-- ==== Sys2Proof/Word.lean ====
section
/-! DEFINITION. The word types of Almigil's registers, command words and frames (R5, R71). -/
namespace Sys2Proof

/-- A register word: registers are 32 bits wide (R11). -/
abbrev Word := BitVec 32

/-- One byte of a payload, record or frame. -/
abbrev Byte := BitVec 8

/-- One 64-bit payload word or ledger word. -/
abbrev Dword := BitVec 64

end Sys2Proof
end

