-- ==== Sys2Proof/Config.lean ====
section
/-! DEFINITION. What the spec leaves open: constants with no body, which no proof can see through. -/
namespace Sys2Proof

/-- FREE VALUE (log 4): the choice an allocator makes among the free places that the spec allows it (R105, R116).
It is applied to the model's counter `State.free`, which advances at every draw. -/
opaque Config.freePick : Nat → Nat

end Sys2Proof
end

