-- ==== Sys2Proof/Syntax.lean ====
section
/-! DEFINITION. The commands of the block: one constructor of `Instr` for each row of spec/opcode_table.json,
and the operand types that the rows carry. -/
namespace Sys2Proof

/-- The two halves of the block: queenside and kingside (R16). -/
inductive Wing where
  | q
  | k
  deriving DecidableEq, Repr

/-- The fields of a 128-bit command word other than its opcode (Table 3.1, R71). -/
structure CmdW where
  slot   : BitVec 3
  prio   : BitVec 3
  tag    : BitVec 8
  wait   : Bool
  eager  : Bool
  staged : Bool
  notify : Bool
  obj    : BitVec 20
  arg    : BitVec 20
  data   : BitVec 64
  deriving DecidableEq, Repr

/-- How a command enters (R81, R91). On the slot path, `ahead` is the number of slot-path units that stand ahead
of it at its pipe or register port when it is presented (R27): a moment of time, which the sender supplies. `caught` is a
slot-path command on whose path block `blk` enters its safe state, or has a fault, while the command is under way (R27). -/
inductive Path where
  | slot (ahead : Nat)
  | caught (ahead blk : Nat)
  | win (w : Wing)
  deriving DecidableEq, Repr

/-- What an access to one row finds (R350 to R352): nothing, words that it corrects, or words that SEC-DED cannot correct, by their bits
among the row's 16, beside words that it corrects. -/
inductive RowFind where
  | clean
  | corrected (words : Nat)
  | uncorrectable (words : Nat) (lost : BitVec 16)
  deriving DecidableEq, Repr

/-- A row named by wing, bank and logical row (Table 13.1). -/
structure RowId where
  wing : Wing
  bank : Nat
  row  : Nat
  deriving DecidableEq, Repr

/-- The errors that have come into the hardware by the time a command is presented (log 14): bit errors in array rows, with what reading
the row finds from now on (R349 to R352; the operation table counts as banks 64 and 65, the wait-slot store as bank 66); parity errors in
the logic of blocks, by block code and source (Table 12.3); the places in the seam's order of the holding-buffer entries that fail
parity (SEAM ENTRY_PARITY); whether a direction's credit count disagrees with its occupancy (SEAM CREDIT), where that changes; and parity
errors in the fault registers of blocks (R343): the block and bit 0 for STAT, 1 for MASK and 2 for the others. -/
structure Strikes where
  rows    : List (RowId × RowFind)
  parity  : List (Nat × Nat)
  entries : List Nat
  credit  : Option Bool
  regs    : List (Nat × Nat)
  deriving DecidableEq, Repr

/-- No error. -/
def Strikes.none : Strikes := { rows := [], parity := [], entries := [], credit := .none, regs := [] }

/-- Where a command comes from: the agent position that the hardware sees (R80) and its path; `queue` is the number of units that stand
at its pipe ahead of a queued-path command when it comes there (R22), `mates` the operations that other pipes of its wing have checked
before it in its cycle, of its own domain and of all, and that still count (R113), and `strikes` what has come into the hardware before
it. -/
structure Src where
  pos     : Nat
  path    : Path
  queue   : Nat
  mates   : Nat × Nat
  strikes : Strikes
  deriving DecidableEq, Repr

/-- A sync frame: the header of Table 10.10 and a 48-byte body (R298). -/
structure Frame where
  ftype  : BitVec 8
  term   : BitVec 8
  src    : BitVec 16
  dst    : BitVec 16
  dom    : BitVec 10
  level  : BitVec 2
  frag   : BitVec 3
  obj    : BitVec 20
  group  : BitVec 8
  fcount : BitVec 3
  fwd    : Bool
  gen    : BitVec 32
  body   : List Byte
  deriving DecidableEq, Repr

/-- What the EOF block of a fast-mode frame carries (Table 10.7). -/
structure Eof where
  lseq  : BitVec 8
  ack   : BitVec 8
  vl    : BitVec 2
  crVl  : BitVec 2
  crCnt : BitVec 4
  deriving DecidableEq, Repr

/-- A tunnel packet's transport header (Table 10.12) with the part of its 64-byte area that its TTYPE uses. -/
structure Packet where
  edge    : Bool
  src     : BitVec 16
  dst     : BitVec 16
  seq     : BitVec 16
  ack     : BitVec 16
  sack    : BitVec 16
  map     : BitVec 256
  bootSeq : BitVec 32
  buildId : BitVec 64
  busy    : Bool
  crcOk   : Bool
  frame   : Frame
  deriving DecidableEq, Repr

/-- A Domain entry of the DOMAINS section (Table 4.1). -/
structure DomainEnt where
  enabled     : Bool
  refuseLimit : Nat
  objQ        : Nat
  objK        : Nat
  accQ        : Nat
  accK        : Nat
  wslotQ      : Nat
  wslotK      : Nat
  opsQ        : Nat
  opsK        : Nat
  seqRun      : Nat
  weight      : Nat
  rateQ       : Nat
  rateK       : Nat
  depthQ      : Nat
  depthK      : Nat
  objBase     : Nat
  objSize     : Nat
  deriving DecidableEq, Repr

/-- A POSMAP entry (Table 2.6). -/
structure PosEnt where
  spare    : Bool
  enabled  : Bool
  schedPos : Nat
  dom      : Nat
  deriving DecidableEq, Repr

/-- A list entry without its held bits (Table 4.10): KIND (true: relay) and WHO. -/
structure Member where
  relay : Bool
  who   : Nat
  deriving DecidableEq, Repr

/-- A preset of the OBJECTS section (R125): the image-set fields of its record by type (Tables 4.3 to 4.9). -/
inductive PresetBody where
  | barrier (mcount combine pwords fallAfter : Nat) (abortOnFall holdEligible : Bool)
  | semaphore (count : Nat)
  | lock (global : Option Nat)
  | token (capacity credits givers : Nat)
  | flag (set : Bool)
  | ledger (eager : Bool) (consumers window : Nat)
  | relay (child level group : Nat)
  deriving DecidableEq, Repr

/-- One preset: descriptor and record (R125). -/
structure Preset where
  obj     : Nat
  pin     : Bool
  cold    : Bool
  owner   : Nat
  members : List Member
  body    : PresetBody
  deriving DecidableEq, Repr

/-- A sequencer entry of the OPENINGS section (Table 7.2). -/
structure SeqEnt where
  enabled   : Bool
  autostart : Bool
  actPos    : Nat
  dom       : Nat
  startPly  : Nat
  objBase   : Nat
  w0        : Nat
  w1        : Nat
  w2        : Nat
  w3        : Nat
  deriving DecidableEq, Repr

/-- A link table entry (Table 10.1). -/
structure LinkEnt where
  enabled    : Bool
  txPreset   : Nat
  retryLimit : Nat
  quietAfter : Nat
  coldLease  : Nat
  deriving DecidableEq, Repr

/-- A tunnel peer list entry (R302). -/
structure PeerEnt where
  chip  : BitVec 16
  rto   : Nat
  valid : Bool
  deriving DecidableEq, Repr

/-- A group entry (Table 8.2). -/
structure GroupEnt where
  valid    : Bool
  top      : Nat
  arity    : Nat
  owner    : Nat
  seats    : BitVec 16
  clusters : BitVec 16
  boards   : BitVec 256
  fallL1   : Nat
  fallL2   : Nat
  fallL3   : Nat
  arbL1    : Option Nat
  arbL2    : Option Nat
  arbL3    : Option Nat
  deriving DecidableEq, Repr

/-- A SEVERITY entry (Table 12.4). -/
structure SevEnt where
  blk    : Nat
  auto   : Bool
  src    : Nat
  sev    : Nat
  rlimit : Nat
  grace  : Nat
  unitMs : Bool
  quiet  : Nat
  deriving DecidableEq, Repr

/-- The POWER section (Table 11.12). -/
structure PowerEnt where
  deepestQ  : Nat
  deepestK  : Nat
  pnomQ     : Nat
  pnomK     : Nat
  guard     : Nat
  beAdj     : Nat
  beDeep    : Nat
  waitLimit : Nat
  qmask     : List (BitVec 16 × BitVec 3)
  deriving DecidableEq, Repr

/-- The REPAIRPTR section (Table 13.3). -/
structure RepairEnt where
  region : Nat
  copy0  : Nat
  copy1  : Nat
  dispQ  : Nat
  dispK  : Nat
  deriving DecidableEq, Repr

/-- One section entry of the image header (Table 2.4). -/
structure SecEnt where
  type   : Nat
  flags  : Nat
  offset : Nat
  length : Nat
  count  : Nat
  deriving DecidableEq, Repr

/-- The image header (Table 2.3); `reservedZero` says that every reserved byte of the header is zero. -/
structure ImageHdr where
  magic        : BitVec 32
  format       : Nat
  hdrSize      : Nat
  imageSize    : Nat
  secVersion   : Nat
  targetRev    : Nat
  hostId       : Nat
  relVersion   : BitVec 32
  buildId      : BitVec 64
  reservedZero : Bool
  sections     : List SecEnt
  pubkey       : List Byte
  sigR         : BitVec 384
  sigS         : BitVec 384
  deriving DecidableEq, Repr

/-- The eight sections' content (Table 2.5). The spec gives the tree entries of TOPOLOGY no fields: their bytes are held. -/
structure ImageBody where
  domains      : List DomainEnt
  posmap       : List PosEnt
  presets      : List Preset
  backQ        : Nat
  backK        : Nat
  grants       : List (Nat × Nat)
  seqs         : List SeqEnt
  plies        : List (BitVec 128)
  plyBacking   : Nat
  paged        : Nat
  pageCheck    : List Word
  links        : List LinkEnt
  peers        : List PeerEnt
  groups       : List GroupEnt
  trees        : List Byte
  sevs         : List SevEnt
  power        : PowerEnt
  repair       : RepairEnt
  deriving DecidableEq, Repr

/-- The area of an image slot as the IML reads it, each byte once (R58), as one number: byte `i` in bits `8 i` to `8 i + 7`
(R5). -/
structure Image where
  bits : Nat
  deriving DecidableEq, Repr

/-- What reading a slot gives: a read that the flash fails to deliver (R50), or the bytes as an image. -/
inductive SlotRead where
  | readError
  | image (i : Image) (other : Nat)
  deriving DecidableEq, Repr

/-- What discovery finds in the flash's SFDP tables (R44, R45): the density in bytes, the dummy cycles of a read at the chosen clock, and
whether the flash offers instructions with a 4-byte address. -/
structure Sfdp where
  present    : Bool
  octalTable : Bool
  octalSeq   : Bool
  quad       : Bool
  qeNeeded   : Bool
  qeSet      : Bool
  density    : Nat
  dummies    : Nat
  fourByte   : Bool
  deriving DecidableEq, Repr

/-- A repair record as it lies in the ledger (Table 13.4). -/
structure RepRec where
  type  : Nat
  wing  : Wing
  bank  : Nat
  row   : Nat
  spare : Nat
  rseq  : Nat
  boot  : Nat
  time  : Nat
  obj0  : Option Nat
  obj1  : Option Nat
  deriving DecidableEq, Repr

/-- A boot record (Table 2.10). -/
structure BootRec where
  bootSeq    : Nat
  slot       : Nat
  dirCopy    : Nat
  restarted  : Bool
  failA      : Nat
  failB      : Nat
  halt       : Nat
  flashMode  : Nat
  secVersion : Nat
  minVersion : Nat
  relVersion : BitVec 32
  buildId    : BitVec 64
  readyUs    : Nat
  deriving DecidableEq, Repr

/-- What the OTP read of the version field gives (R57): the 64 bytes, or a failed read. -/
inductive OtpRead where
  | failed
  | field (bits : BitVec 512)
  deriving DecidableEq, Repr

/-- Who asks for or holds a maintenance hold (R268): a position's slot or a sequencer. -/
inductive HoldBy where
  | pos (p : Nat)
  | seq (k : Nat)
  deriving DecidableEq, Repr

/-- A loopback mode (Table 17.3); BOARD sends PRBS31 or quiet frames. -/
inductive LoopMode where
  | phy
  | board (quiet : Bool)
  | quiet
  deriving DecidableEq, Repr

/-- Who writes the trace buffer's controls (R11, R397, R403): an agent with WRITE_REG, or the TRACE instrument. -/
inductive TraceBy where
  | agent (src : Src) (tag : BitVec 8)
  | test
  deriving DecidableEq, Repr

/-- The register that is written (R403): TCU_TRCTL or TCU_TRSEL. The TRACE instrument reads the record that `data` numbers (R397). -/
inductive TraceReg where
  | ctl
  | sel
  | data
  deriving DecidableEq, Repr

/-- A discarded write of a command window (R80, R91): the stamp of its sender, and its offset. -/
structure BadWrite where
  stamp : Nat
  off   : BitVec 16
  deriving DecidableEq, Repr

/-- The words of the boot record area's two sectors (R66). -/
structure BootArea where
  first  : List (BitVec 256)
  second : List (BitVec 256)
  deriving DecidableEq, Repr

/-- An append of a boot record (R66): whether the flash takes it, and what the area holds, for one that has not been scanned. -/
structure BootWrite where
  ok   : Bool
  area : BootArea
  deriving DecidableEq, Repr

/-- A write of IML_FLASH.RELEASE to 0 (R67): its TAG, and what the flash's SFDP tables hold now, for the discovery that follows. -/
structure Reclaim where
  tag  : BitVec 8
  sfdp : Sfdp
  deriving DecidableEq, Repr

/-- The arbiter's copy of a global lock for its standby (R176): the holder with its PRIO at the grant (log 33). -/
structure GlockCopy where
  lock     : Nat
  holder   : Option (BitVec 26)
  prio     : Nat
  orphaned : Bool
  waiters  : List (BitVec 26 × Nat)
  deriving DecidableEq, Repr

/-- A carrier of alive frames: a Shaut link or a tunnel context (R240). -/
inductive Carrier where
  | port (k : BitVec 4)
  | ctx (i : Nat)
  deriving DecidableEq, Repr

/-- What a copy to the standby holds (R333: sources ARBITER and GLOCK). -/
inductive CopyKind where
  | level
  | glock
  deriving DecidableEq, Repr

/-- The commands of the block, one constructor for each row of spec/opcode_table.json, in the table's order. -/
inductive Instr where
  -- agent commands (Table 3.3)
  | nop (src : Src) (w : CmdW)
  | open (src : Src) (w : CmdW)
  | close (src : Src) (w : CmdW)
  | bindMembers (src : Src) (w : CmdW)
  | grant (src : Src) (w : CmdW)
  | grantRevoke (src : Src) (w : CmdW)
  | pin (src : Src) (w : CmdW)
  | unpin (src : Src) (w : CmdW)
  | arrive (src : Src) (w : CmdW)
  | arriveWait (src : Src) (w : CmdW)
  | wait (src : Src) (w : CmdW)
  | poll (src : Src) (w : CmdW)
  | cancelWait (src : Src) (w : CmdW)
  | semPost (src : Src) (w : CmdW)
  | semTake (src : Src) (w : CmdW)
  | semTry (src : Src) (w : CmdW)
  | lockAcquire (src : Src) (w : CmdW)
  | lockTry (src : Src) (w : CmdW)
  | lockRelease (src : Src) (w : CmdW)
  | lockHandoff (src : Src) (w : CmdW)
  | tokenGive (src : Src) (w : CmdW)
  | tokenTake (src : Src) (w : CmdW)
  | tokenTry (src : Src) (w : CmdW)
  | flagSet (src : Src) (w : CmdW)
  | flagClear (src : Src) (w : CmdW)
  | payloadWrite (src : Src) (w : CmdW)
  | resultRead (src : Src) (w : CmdW)
  | ledgerPost (src : Src) (w : CmdW)
  | ledgerCheck (src : Src) (w : CmdW)
  | ledgerRead (src : Src) (w : CmdW)
  | vote (src : Src) (w : CmdW)
  | unvote (src : Src) (w : CmdW)
  | holdRequest (src : Src) (w : CmdW)
  | holdDone (src : Src) (w : CmdW)
  | seqStart (src : Src) (w : CmdW)
  | seqStop (src : Src) (w : CmdW)
  | readReg (src : Src) (w : CmdW)
  | writeReg (src : Src) (w : CmdW)
  | clearStatus (src : Src) (w : CmdW)
  | resign (src : Src) (w : CmdW)
  | reassign (src : Src) (w : CmdW)
  | remap (src : Src) (w : CmdW)
  -- answers, wakes and ticks
  | responseEntryRead (win : Wing) (reader : Nat) (off : BitVec 16) (size : Nat) (single : Bool)
  | lateCompletion (pos : Nat)
  | queuedCommandResume (pos : Nat) (win : Wing) (tag2 : BitVec 2)
  | wakeBeat (w : Wing) (branch : BitVec 4) (err : BitVec 56)
  | rateTick
  | pageIn (obj : BitVec 20) (err : Bool)
  | writeBack (obj : BitVec 20) (err : Bool)
  | operandFold (file : BitVec 3)
  | combineFinish (obj : BitVec 20)
  | flagFall (obj : BitVec 20)
  | secondStalemateWalk (obj : BitVec 20) (pos : Nat)
  | rstNotify (pos : Nat)
  | orphaning (pos : Nat)
  -- sequencers and holds
  | seqWaitMet (k : BitVec 5)
  | seqTimeWait (k : BitVec 5)
  | seqActionAnswer (k : BitVec 5)
  | plyPageArrival (w : Wing) (page : Nat) (plies : List (BitVec 128)) (err : Bool)
  | forcedHoldBegin
  | forcedHoldGrant
  | holdDurationEnd (who : HoldBy)
  -- levels
  | groupJoin
  | hello (k : BitVec 4) (e : Eof) (f : Frame)
  | helloTimeout (chip : BitVec 16)
  | alive (k : BitVec 4) (e : Eof) (f : Frame)
  | aliveDue (c : Carrier)
  | chipSilent (chip : BitVec 16)
  | arrival (k : BitVec 4) (e : Eof) (f : Frame)
  | half1 (k : BitVec 4) (e : Eof) (f : Frame)
  | rsWord (k : BitVec 4) (e : Eof) (f : Frame)
  | release (k : BitVec 4) (e : Eof) (f : Frame)
  | agWord (k : BitVec 4) (e : Eof) (f : Frame)
  | half1Down (k : BitVec 4) (e : Eof) (f : Frame)
  | takeover (k : BitVec 4) (e : Eof) (f : Frame)
  | answer (k : BitVec 4) (e : Eof) (f : Frame)
  | suspect (k : BitVec 4) (e : Eof) (f : Frame)
  | suspectForget (chip : BitVec 16) (level : BitVec 2) (group : BitVec 8)
  | resignFrame (k : BitVec 4) (e : Eof) (f : Frame)
  | fall (k : BitVec 4) (e : Eof) (f : Frame)
  | levelDeadline (relay : BitVec 20) (gen : BitVec 32) (level : BitVec 2)
  | time (k : BitVec 4) (e : Eof) (f : Frame)
  | timeExchangeDue
  | probeDue (ctx : Nat)
  | remote (k : BitVec 4) (e : Eof) (f : Frame)
  | glockRequest (k : BitVec 4) (e : Eof) (f : Frame)
  | glockRelease (k : BitVec 4) (e : Eof) (f : Frame)
  | glockGrant (k : BitVec 4) (e : Eof) (f : Frame)
  | glockOrphanReport (k : BitVec 4) (e : Eof) (f : Frame)
  | glockWithdrawal (k : BitVec 4) (e : Eof) (f : Frame)
  -- Shaut links
  | quietWakeQ (k seat : BitVec 4)
  | quietWakeK (k seat : BitVec 4)
  | quietArrival (k seat : BitVec 4)
  | quietTime (k seat : BitVec 4)
  | quietAlive (k seat : BitVec 4)
  | quietAck (k seat : BitVec 4)
  | quietCold (k seat : BitVec 4)
  | quietTimeMarkDue
  | quietAckTimeout (k : BitVec 4)
  | coldAckTimeout (k : BitVec 4)
  | trainingPhaseDone (k : BitVec 4)
  | trainingTimeout (k : BitVec 4)
  | retrainDue (k : BitVec 4)
  | resumeLock (k : BitVec 4)
  | quiesceStart (k : BitVec 4)
  | quiesce (k : BitVec 4) (ack : BitVec 8)
  | idleBlock (k : BitVec 4) (ack : BitVec 8) (crVl : BitVec 2) (crCnt : BitVec 4)
  | nak (k : BitVec 4) (lseq ack : BitVec 8)
  | refuse (k : BitVec 4) (lseq ack : BitVec 8) (crVl : BitVec 2) (crCnt : BitVec 4)
  | trainBlock (k : BitVec 4) (chip : BitVec 16) (build : BitVec 32)
  | replayTimeout (k : BitVec 4)
  | refuseResend (k : BitVec 4)
  -- tunnel port
  | tunnelData (p : Packet)
  | tunnelAck (p : Packet)
  | tunnelOpen (p : Packet)
  | openAck (p : Packet)
  | ackDelay (ctx : Nat)
  | retransmitTimeout (ctx : Nat)
  | ringPathFail (chip : BitVec 16)
  | edgeRetry (ctx : Nat)
  | openBusyRetry (ctx : Nat)
  -- power
  | throttleCeiling (w : Wing) (code : BitVec 2)
  | frequencyStep (w : Wing)
  | powerChoice (w : Wing)
  | abortPointReached (w : Wing)
  | deepen
  | coldLeaseEnd
  | regRdy (w : Wing)
  | oscRdy (w : Wing)
  | pllLock (w : Wing)
  | memRdy (w : Wing)
  | sealedMoveRestored (w : Wing) (bad : List Nat)
  | wakeLate (w : Wing)
  -- faults
  | graceExpiry (blk : Nat)
  | autoRecovery (blk : Nat)
  | registerReload (blk : Nat) (ok : Bool)
  | aliveInEdge (n : BitVec 2)
  | aliveInStop (n : BitVec 2)
  -- repair and flash
  | scrubRow (w : Wing) (found : RowFind)
  | liveRemap (w : Wing) (badSpares : Nat)
  | displacementCopy (w : Wing) (row : Nat) (err : Bool)
  | repairRecordAppend (ok compactOk : Bool)
  | bootRecordAppend (x : BootWrite)
  -- start-up
  | poresetAssert
  | poresetRelease
  | aonUp (romOk : Bool)
  | wingUp
  | wingPowerTimeout
  | discovery (sfdp : Sfdp) (dir0 dir1 : List Byte)
  | load (r : SlotRead)
  | verify (otp : OtpRead)
  | bist (corrected : List RowId) (bad : List RowId)
  | repair (c0 c1 : List (BitVec 256)) (boots : BootArea) (bad : Option RowId)
  | linkTrain
  -- register clears and writes with a row of their own
  | ingLoadClrCnt (src : Src) (tag : BitVec 8) (w : Wing)
  | ingWinClr (src : Src) (tag : BitVec 8) (w : Wing)
  | ingRefuseClr (src : Src) (tag : BitVec 8) (w : Wing)
  | filPageClr (src : Src) (tag : BitVec 8) (file : BitVec 3)
  | filLedgerClr (src : Src) (tag : BitVec 8) (file : BitVec 3)
  | wakeNoteClr (src : Src) (tag : BitVec 8) (w : Wing)
  | seqPageClr (src : Src) (tag : BitVec 8) (w : Wing)
  | cmbLvlerrClr (src : Src) (tag : BitVec 8) (w : Wing)
  | clrAll (src : Src) (tag : BitVec 8)
  | clrSel (src : Src) (tag : BitVec 8)
  | shpCnt0Clr (src : Src) (tag : BitVec 8) (k : BitVec 4)
  | tunCntClr (src : Src) (tag : BitVec 8)
  | tcuHoldcntClr (src : Src) (tag : BitVec 8)
  | tcuPwrcntClr (src : Src) (tag : BitVec 8)
  | repScrubClr (src : Src) (tag : BitVec 8) (w : Wing)
  | flashRelease (src : Src) (tag : BitVec 8)
  | flashReclaim (src : Src) (x : Reclaim)
  | traceEnable (by_ : TraceBy) (reg : TraceReg) (value : BitVec 32)
  | pcselWrite (src : Src) (tag : BitVec 8) (n : BitVec 2) (code : BitVec 4)
  -- test access
  | tapReset
  | extest
  | samplePreload (balls : List Bool)
  | idcode
  | ijtag (holdBoot : Bool)
  | wrapSel
  | bypass
  | intest
  | regread (off : BitVec 20)
  | holdBootClear
  | mbist
  | mbistDone (rows : List RowId) (spares : List RowId)
  | loopback (k : BitVec 4) (mode : LoopMode)
  | margin (k : BitVec 4) (phase threshold : Int) (dwell abortAt : Nat)
  | marginDwellEnd (k : BitVec 4) (headers crcs replays : Nat)
  | pathdly (count : Nat)
  -- collisions, discards and remaining events
  | reservedOpcode (src : Src) (w : CmdW) (opc : BitVec 6)
  | badSubmit (win : Wing) (x : BadWrite)
  | idleExit (w : Wing)
  | quietFrameBad (k : BitVec 4)
  | badFrame (k : BitVec 4)
  | reservedFtype (k : BitVec 4) (e : Eof) (f : Frame)
  | exchangeTimeout
  | standbyCopy (c : GlockCopy)
  | standbyCopyTimeout (kind : CopyKind)
  | loopbackStop (k : BitVec 4) (errors sent rejected matched : Nat)
  deriving DecidableEq, Repr

end Sys2Proof
end

