-- ==== Sys2Proof/Decode.lean ====
section
/-! DEFINITION. Command words, response words, wake beats and quiet frames as bits, with their encoders; the opcodes and
status codes. The opcode table gives its rows no bits, so `decodeTableWord` reads none of them. -/
namespace Sys2Proof

/-- The opcodes of Table 3.3. -/
inductive Op where
  | nop | open | close | bindMembers | grant | pin | unpin
  | arrive | arriveWait | wait | poll | cancelWait
  | semPost | semTake | semTry
  | lockAcquire | lockTry | lockRelease | lockHandoff
  | tokenGive | tokenTake | tokenTry
  | flagSet | flagClear
  | payloadWrite | resultRead
  | ledgerPost | ledgerCheck | ledgerRead
  | vote | unvote | holdRequest | holdDone
  | seqStart | seqStop
  | readReg | writeReg | clearStatus
  | resign | reassign | remap
  deriving DecidableEq, Repr

/-- The code of an opcode (Table 3.3). -/
def Op.code : Op → BitVec 6
  | .nop => 0x00 | .open => 0x01 | .close => 0x02 | .bindMembers => 0x03 | .grant => 0x04 | .pin => 0x05 | .unpin => 0x06
  | .arrive => 0x08 | .arriveWait => 0x09 | .wait => 0x0A | .poll => 0x0B | .cancelWait => 0x0C
  | .semPost => 0x10 | .semTake => 0x11 | .semTry => 0x12
  | .lockAcquire => 0x14 | .lockTry => 0x15 | .lockRelease => 0x16 | .lockHandoff => 0x17
  | .tokenGive => 0x18 | .tokenTake => 0x19 | .tokenTry => 0x1A
  | .flagSet => 0x1C | .flagClear => 0x1D
  | .payloadWrite => 0x20 | .resultRead => 0x21
  | .ledgerPost => 0x24 | .ledgerCheck => 0x25 | .ledgerRead => 0x26
  | .vote => 0x28 | .unvote => 0x29 | .holdRequest => 0x2A | .holdDone => 0x2B
  | .seqStart => 0x2C | .seqStop => 0x2D
  | .readReg => 0x30 | .writeReg => 0x31 | .clearStatus => 0x32
  | .resign => 0x34 | .reassign => 0x35 | .remap => 0x36

/-- The opcodes in the order of Table 3.3. -/
def Op.all : List Op :=
  [.nop, .open, .close, .bindMembers, .grant, .pin, .unpin, .arrive, .arriveWait, .wait, .poll, .cancelWait,
   .semPost, .semTake, .semTry, .lockAcquire, .lockTry, .lockRelease, .lockHandoff, .tokenGive, .tokenTake, .tokenTry,
   .flagSet, .flagClear, .payloadWrite, .resultRead, .ledgerPost, .ledgerCheck, .ledgerRead, .vote, .unvote,
   .holdRequest, .holdDone, .seqStart, .seqStop, .readReg, .writeReg, .clearStatus, .resign, .reassign, .remap]

/-- The opcode of a code; none for 0x3F and every code absent from Table 3.3 (R9). -/
def Op.ofCode (c : BitVec 6) : Option Op := Op.all.find? (fun o => o.code == c)

/-- The 128-bit command word of an opcode code and the other fields (Table 3.1). -/
def encodeCommand (opc : BitVec 6) (w : CmdW) : BitVec 128 :=
  opc ++ w.slot ++ w.prio ++ w.tag ++ BitVec.ofBool w.wait ++ BitVec.ofBool w.eager ++ BitVec.ofBool w.staged ++
    BitVec.ofBool w.notify ++ w.obj ++ w.arg ++ w.data

/-- The opcode field of a command word (Table 3.1, bits 127:122). -/
def commandOpc (x : BitVec 128) : BitVec 6 := x.extractLsb' 122 6

/-- The other fields of a command word (Table 3.1). -/
def commandFields (x : BitVec 128) : CmdW where
  slot := x.extractLsb' 119 3
  prio := x.extractLsb' 116 3
  tag := x.extractLsb' 108 8
  wait := x.getLsbD 107
  eager := x.getLsbD 106
  staged := x.getLsbD 105
  notify := x.getLsbD 104
  obj := x.extractLsb' 84 20
  arg := x.extractLsb' 64 20
  data := x.extractLsb' 0 64

/-- The command that a slot-path or queued-path word stands for: the opcode decides the row (Table 3.3); GRANT with
ARG[10] at 1 is the revoke row; a reserved opcode is its own row (R9). -/
def decodeCommand (src : Src) (x : BitVec 128) : Instr :=
  let w := commandFields x
  match Op.ofCode (commandOpc x) with
  | some .nop => .nop src w
  | some .open => .open src w
  | some .close => .close src w
  | some .bindMembers => .bindMembers src w
  | some .grant => if w.arg.getLsbD 10 then .grantRevoke src w else .grant src w
  | some .pin => .pin src w
  | some .unpin => .unpin src w
  | some .arrive => .arrive src w
  | some .arriveWait => .arriveWait src w
  | some .wait => .wait src w
  | some .poll => .poll src w
  | some .cancelWait => .cancelWait src w
  | some .semPost => .semPost src w
  | some .semTake => .semTake src w
  | some .semTry => .semTry src w
  | some .lockAcquire => .lockAcquire src w
  | some .lockTry => .lockTry src w
  | some .lockRelease => .lockRelease src w
  | some .lockHandoff => .lockHandoff src w
  | some .tokenGive => .tokenGive src w
  | some .tokenTake => .tokenTake src w
  | some .tokenTry => .tokenTry src w
  | some .flagSet => .flagSet src w
  | some .flagClear => .flagClear src w
  | some .payloadWrite => .payloadWrite src w
  | some .resultRead => .resultRead src w
  | some .ledgerPost => .ledgerPost src w
  | some .ledgerCheck => .ledgerCheck src w
  | some .ledgerRead => .ledgerRead src w
  | some .vote => .vote src w
  | some .unvote => .unvote src w
  | some .holdRequest => .holdRequest src w
  | some .holdDone => .holdDone src w
  | some .seqStart => .seqStart src w
  | some .seqStop => .seqStop src w
  | some .readReg => .readReg src w
  | some .writeReg => .writeReg src w
  | some .clearStatus => .clearStatus src w
  | some .resign => .resign src w
  | some .reassign => .reassign src w
  | some .remap => .remap src w
  | none => .reservedOpcode src w (commandOpc x)

/-- The opcode, source and word of an agent command row. -/
def commandOf : Instr → Option (Op × Src × CmdW)
  | .nop s w => some (.nop, s, w)
  | .open s w => some (.open, s, w)
  | .close s w => some (.close, s, w)
  | .bindMembers s w => some (.bindMembers, s, w)
  | .grant s w => some (.grant, s, w)
  | .grantRevoke s w => some (.grant, s, w)
  | .pin s w => some (.pin, s, w)
  | .unpin s w => some (.unpin, s, w)
  | .arrive s w => some (.arrive, s, w)
  | .arriveWait s w => some (.arriveWait, s, w)
  | .wait s w => some (.wait, s, w)
  | .poll s w => some (.poll, s, w)
  | .cancelWait s w => some (.cancelWait, s, w)
  | .semPost s w => some (.semPost, s, w)
  | .semTake s w => some (.semTake, s, w)
  | .semTry s w => some (.semTry, s, w)
  | .lockAcquire s w => some (.lockAcquire, s, w)
  | .lockTry s w => some (.lockTry, s, w)
  | .lockRelease s w => some (.lockRelease, s, w)
  | .lockHandoff s w => some (.lockHandoff, s, w)
  | .tokenGive s w => some (.tokenGive, s, w)
  | .tokenTake s w => some (.tokenTake, s, w)
  | .tokenTry s w => some (.tokenTry, s, w)
  | .flagSet s w => some (.flagSet, s, w)
  | .flagClear s w => some (.flagClear, s, w)
  | .payloadWrite s w => some (.payloadWrite, s, w)
  | .resultRead s w => some (.resultRead, s, w)
  | .ledgerPost s w => some (.ledgerPost, s, w)
  | .ledgerCheck s w => some (.ledgerCheck, s, w)
  | .ledgerRead s w => some (.ledgerRead, s, w)
  | .vote s w => some (.vote, s, w)
  | .unvote s w => some (.unvote, s, w)
  | .holdRequest s w => some (.holdRequest, s, w)
  | .holdDone s w => some (.holdDone, s, w)
  | .seqStart s w => some (.seqStart, s, w)
  | .seqStop s w => some (.seqStop, s, w)
  | .readReg s w => some (.readReg, s, w)
  | .writeReg s w => some (.writeReg, s, w)
  | .clearStatus s w => some (.clearStatus, s, w)
  | .resign s w => some (.resign, s, w)
  | .reassign s w => some (.reassign, s, w)
  | .remap s w => some (.remap, s, w)
  | _ => none

/-- The command word of an agent command row; zero for the rows that are no command words. -/
def encode (i : Instr) : BitVec 128 :=
  match i with
  | .reservedOpcode _ w opc => encodeCommand opc w
  | i => match commandOf i with
    | some (op, _, w) => encodeCommand op.code w
    | none => 0

/-- The opcode table gives no row any bits, so no word spells a row. -/
def decodeTableWord (_nbits _w : Nat) : Option Instr := none

/-- The status codes of Table 3.5. -/
inductive Status where
  | ok | pending | released | granted | grantedOrphan | busy | deferred | tainted | notFound | refusedState | refusedQuota
  | noSlot | flagFall | aborted | stalemate | resigned | poisoned | clearPartial | malformed
  deriving DecidableEq, Repr

/-- The code of a status (Table 3.5). -/
def Status.code : Status → BitVec 5
  | .ok => 0x00 | .pending => 0x01 | .released => 0x02 | .granted => 0x03 | .grantedOrphan => 0x04 | .busy => 0x05
  | .deferred => 0x06 | .tainted => 0x07 | .notFound => 0x08 | .refusedState => 0x09 | .refusedQuota => 0x0A
  | .noSlot => 0x0B | .flagFall => 0x0C | .aborted => 0x0D | .stalemate => 0x0E | .resigned => 0x0F
  | .poisoned => 0x10 | .clearPartial => 0x11 | .malformed => 0x12

/-- A response word's fields (Table 3.2). -/
structure Resp where
  status : Status
  tag    : BitVec 8
  value  : BitVec 51
  deriving DecidableEq, Repr

/-- The 64-bit response word (Table 3.2). -/
def Resp.word (r : Resp) : BitVec 64 := r.status.code ++ r.tag ++ r.value

/-- Beat types of Table 3.8. -/
inductive BeatType where
  | bind
  | set
  | free
  deriving DecidableEq, Repr

/-- The TYPE field of a beat (Table 3.8, bits 54:53). -/
def BeatType.code : BeatType → BitVec 2
  | .bind => 0b01
  | .set => 0b10
  | .free => 0b11

/-- Parity of the low `n` bits of a word: true when an odd number of them is 1. -/
def parityBits : Nat → Nat → Bool
  | 0, _ => false
  | n + 1, x => xor (x % 2 == 1) (parityBits n (x / 2))

/-- A wake-bus beat with even parity over bits 55:0 (Table 3.8). -/
def encodeBeat (t : BeatType) (slot : BitVec 3) (mask : BitVec 48) : BitVec 56 :=
  let low : BitVec 55 := t.code ++ (0 : BitVec 2) ++ slot ++ mask
  BitVec.ofBool (parityBits 55 low.toNat) ++ low

/-- CRC-4 with polynomial x^4 + x + 1 and initial value 0, most significant bit first, of the low `n` bits (R279). -/
def crc4 : Nat → BitVec 8 → BitVec 4 → BitVec 4
  | 0, _, r => r
  | n + 1, x, r =>
    let fb := xor (r.getLsbD 3) (x.getLsbD n)
    let r' := r <<< 1
    crc4 n x (if fb then r' ^^^ 0b0011 else r')

/-- The 12 bits of a quiet frame: seat, class and the CRC-4 of both (R279). -/
def encodeQuiet (seat cls : BitVec 4) : BitVec 12 :=
  let b : BitVec 8 := seat ++ cls
  b ++ crc4 8 b 0

/-- One byte into a CRC-32C register: eight reflected steps of the polynomial 0x1EDC_6F41 (R47). -/
def crc32cBits : Nat → BitVec 32 → BitVec 32
  | 0, r => r
  | n + 1, r => crc32cBits n (if r.getLsbD 0 then (r >>> 1) ^^^ 0x82F63B78 else r >>> 1)

/-- CRC-32C with initial value and final XOR 0xFFFF_FFFF (R47). -/
def crc32c (bs : List Byte) : BitVec 32 :=
  (bs.foldl (fun r b => crc32cBits 8 (r ^^^ b.zeroExtend 32)) 0xFFFFFFFF) ^^^ 0xFFFFFFFF

/-- The little-endian number in a list of bytes (R5). -/
def leNat : List Byte → Nat
  | [] => 0
  | b :: bs => b.toNat + 256 * leNat bs

/-- `n` bytes of a number, little-endian (R5). -/
def leBytes : Nat → Nat → List Byte
  | 0, _ => []
  | n + 1, x => BitVec.ofNat 8 x :: leBytes n (x / 256)

/-- Bytes `i` to `i + n - 1` of a list as a number, little-endian; bytes past the end read as zero. -/
def fieldNat (bs : List Byte) (i n : Nat) : Nat := leNat ((bs.drop i).take n)

end Sys2Proof
end

