-- ==== Sys2Proof/Machine/Table.lean ====
section
/-! DEFINITION. Tables keyed by a number, held as lists of pairs in one canonical form: rising keys, and no entry equal
to what an absent key reads as. -/
namespace Sys2Proof

/-- A table: pairs of key and entry. -/
abbrev Table (α : Type) := List (Nat × α)

/-- The entry at a key; `d` when the key is absent. -/
def tget {α : Type} (d : α) : Table α → Nat → α
  | [], _ => d
  | (k, v) :: t, n => if k = n then v else tget d t n

/-- Remove a key. -/
def tdel {α : Type} : Table α → Nat → Table α
  | [], _ => []
  | (k, v) :: t, n => if k = n then tdel t n else (k, v) :: tdel t n

/-- Write an entry at a key, keeping keys rising. -/
def tput {α : Type} : Table α → Nat → α → Table α
  | [], n, x => [(n, x)]
  | (k, v) :: t, n, x =>
    if n < k then (n, x) :: (k, v) :: t
    else if k = n then (n, x) :: t
    else (k, v) :: tput t n x

/-- Write an entry: writing what an absent key reads as removes the key. -/
def tset {α : Type} [DecidableEq α] (d : α) (t : Table α) (n : Nat) (x : α) : Table α :=
  if x = d then tdel t n else tput t n x

/-- Change the entry at a key by a function. -/
def tmod {α : Type} [DecidableEq α] (d : α) (t : Table α) (n : Nat) (f : α → α) : Table α :=
  tset d t n (f (tget d t n))

/-- Rising keys, all above `lo` when it is given, and no entry equal to `d`. -/
def twfFrom {α : Type} [DecidableEq α] (d : α) : Option Nat → Table α → Bool
  | _, [] => true
  | lo, (k, v) :: t => (lo.all (fun l => decide (l < k))) && decide (v ≠ d) && twfFrom d (some k) t

/-- The canonical form of a table whose absent keys read as `d`. -/
def twf {α : Type} [DecidableEq α] (d : α) (t : Table α) : Bool := twfFrom d none t

end Sys2Proof
end

