-- ==== Sys2Proof/Machine/State.lean ====
section
/-! DEFINITION. The state of the block: every register, table, queue and mode that the spec gives it, the queue of
waiting commands, and the state after reset. -/
namespace Sys2Proof.Machine

/-- The reasons a step can fault. No meaning of this model raises one: a refused command is an answer (R78), and an
event that is not due changes nothing (log 13). -/
inductive Fault where
  /-- Raised by no meaning; it keeps the type inhabited. Safe: it could only stop a run. -/
  | neverRaised
  deriving DecidableEq, Repr

/-- The reasons a step can be refused. -/
inductive Refusal where
  /-- Raised by `exec` for a row that has no meaning yet, named by its mnemonic. Safe: it stops the run. -/
  | notModelled (mnemonic : String)
  deriving DecidableEq, Repr

/-! ### Objects -/

/-- A list entry (Table 4.10). -/
structure Ent where
  arr   : Bool
  adv   : Bool
  res   : Bool
  relay : Bool
  who   : Nat
  deriving DecidableEq, Repr

/-- BARRIER body (Table 4.3). `members` holds the list entries bound so far; `advQ` the advance arrivals in the order
in which they were held, with their STAGED bit (R136); `fallen`, `combining`, `holding` and `parentWait` are the states
of Table 5.2; `note` is the RESIGNED note that the next release carries (R158); `relNote` that of the last release. -/
structure Barrier where
  gen        : BitVec 32
  arrived    : Nat
  advQ       : List (Nat × Bool)
  mbase      : Nat
  mcount     : Nat
  members    : List Ent
  pwords     : Nat
  combine    : Nat
  accBase    : Nat
  fallAfter  : Nat
  deadline   : Nat
  abortOnFall : Bool
  holdEligible : Bool
  parent     : Option Nat
  fallen     : Bool
  combining  : Bool
  holding    : Bool
  parentWait : Bool
  folded     : Nat
  note       : Bool
  relNote    : Bool
  deriving DecidableEq, Repr

/-- LOCK body (Table 4.5). -/
structure Lock where
  holder   : BitVec 26
  held     : Bool
  orphaned : Bool
  prio     : Nat
  eff      : Nat
  global   : Option Nat
  deriving DecidableEq, Repr

/-- TOKEN body (Table 4.6). -/
structure Token where
  credits  : Nat
  capacity : Nat
  gcount   : Nat
  gbase    : Nat
  givers   : List Ent
  nextGiver : Nat
  deriving DecidableEq, Repr

/-- Chunk states (Table 9.2); an EMPTY chunk has no record. -/
inductive ChunkSt where
  | provisional
  | committed
  | poisoned
  deriving DecidableEq, Repr

/-- A chunk record (R256). -/
structure Chunk where
  st       : ChunkSt
  crc      : BitVec 32
  producer : Nat
  replays  : Nat
  taint    : BitVec 64
  taintAll : Bool
  deriving DecidableEq, Repr

/-- LEDGER body (Table 4.8) with its window's records and counters (R256, R257). The owed mark of a consumer is the ARR
bit of its entry (R263). -/
structure Ledger where
  eager     : Bool
  faulted   : Bool
  lepoch    : BitVec 32
  low       : BitVec 24
  owedFirst : BitVec 24
  ccount    : Nat
  cbase     : Nat
  consumers : List Ent
  window    : Nat
  accBase   : Nat
  chunks    : Table (Option Chunk)
  deriving DecidableEq, Repr

/-- RELAY body (Table 4.9); `handing` is the state HANDING (R234). -/
structure Relay where
  child    : Nat
  level    : Nat
  group    : Nat
  pgen     : BitVec 32
  inFlight : Bool
  handing  : Bool
  deriving DecidableEq, Repr

/-- An object's body by type (Table 3.4). -/
inductive Body where
  | barrier (b : Barrier)
  | sem (count : Nat)
  | lock (l : Lock)
  | token (t : Token)
  | flag (set : Bool) (n : BitVec 32)
  | ledger (l : Ledger)
  | relay (r : Relay)
  deriving DecidableEq, Repr

/-- An open object's record: header (Table 4.2) and body. -/
structure Obj where
  owner  : Nat
  pinned : Bool
  cold   : Bool
  slow   : Bool
  body   : Body
  deriving DecidableEq, Repr

/-- A resident record: its slot in the file, the object or none for a closed record, whether it has been read from or
written to the backing region since ALM_READY (R108), and whether its write-back is under way (R119). -/
structure Resident where
  slot     : Nat
  obj      : Option Obj
  touched  : Bool
  evicting : Bool
  deriving DecidableEq, Repr

/-- A record in the backing region with its EPOCH and its stored number (R117, R120). -/
structure Backing where
  epoch : Nat
  num   : Nat
  obj   : Option Obj
  deriving DecidableEq, Repr

/-! ### Waiting -/

/-- The unit at which a wait slot is bound (R24). -/
inductive Home where
  | wing (w : Wing)
  | tcu
  deriving DecidableEq, Repr

/-- What a waiting operation waits for; `walk` is set while a lock request's second stalemate walk is due (R170). -/
inductive WaitKind where
  | gen (g : BitVec 32)
  | amount (n : Nat)
  | lock (walk : Bool)
  | flag
  | chunk (c : BitVec 24) (eager : Bool)
  | hold
  deriving DecidableEq, Repr

/-- A waiting operation of an object, in the object's queue order (R162, R178). -/
structure Waiter where
  pos  : Nat
  slot : Nat
  prio : Nat
  kind : WaitKind
  deriving DecidableEq, Repr

/-- A queued-path response entry's name: window, position, TAG[1:0] (Table 3.9). -/
structure EntryId where
  win : Wing
  pos : Nat
  t   : Nat
  deriving DecidableEq, Repr

/-- A wait slot 0 to 6 that is not FREE (R84): the object it is bound to, the unit of R24, the domain and wing whose
quota it counts in (R112), the VALUE of PENDING, the entry of a NOTIFY slot (R95), and the recorded completion. -/
structure SlotRec where
  obj    : Option Nat
  home   : Home
  dom    : Nat
  qwing  : Wing
  value  : BitVec 51
  entry  : Option EntryId
  ready  : Option (Status × BitVec 51)
  deriving DecidableEq, Repr

/-- A response entry (R93): the response, DONE, LOST, whether a command is in flight, the slot that the response's NOTIFY
bound, and the one that the command in flight has bound (R95). -/
structure Entry where
  resp     : Option Resp
  isDone   : Bool
  lost     : Bool
  inFlight : Bool
  slot     : Option Nat
  flight   : Option Nat
  deriving DecidableEq, Repr

/-- The entry with nothing in it. -/
def Entry.empty : Entry := { resp := none, isDone := false, lost := false, inFlight := false, slot := none, flight := none }

/-- A notice word (R189) without its layout: KIND and the fields of Tables 6.5 and 5.9. -/
inductive Notice where
  | holder (obj eff agent waiter : Nat)
  | giver (obj prio agent lack : Nat)
  | straggler (obj missing report : Nat) (gen : BitVec 32)
  | orphan (obj agent : Nat) (granted : Bool)
  deriving DecidableEq, Repr

/-- A position's notice queue on slot 7: up to 7 words, and the overflow count, 0 when the overflow word is absent. -/
structure NoteQ where
  words    : List Notice
  overflow : Nat
  deriving DecidableEq, Repr

/-- A position's ready and bound bits (R35, R88). -/
structure Leaf where
  ready : BitVec 8
  bound : BitVec 8
  deriving DecidableEq, Repr

/-- A completion that waits for lane L (R81): `caught` is set for that of a deterministic-mode command that a fault held, which does
not count against the limit of R28 (R27); `moves` holds the positions that the answered REASSIGN or REMAP moves (R124). -/
structure Late where
  resp   : Resp
  caught : Bool
  moves  : List Nat
  deriving DecidableEq, Repr

/-- A late-mode completion. -/
def Late.plain (r : Resp) : Late := { resp := r, caught := false, moves := [] }

/-- A position's response slots (R81): the last lane D and lane L words driven, and the completions not yet delivered, oldest first. -/
structure Lanes where
  d      : Option Resp
  l      : Option Resp
  queue  : List Late
  deriving DecidableEq, Repr

/-- Who gave a command. -/
inductive Req where
  | slot (pos : Nat)
  | win (e : EntryId)
  | seq (k aslot : Nat)
  | remote (chip : BitVec 16) (dom : Nat)
  deriving DecidableEq, Repr

/-- A reset notice that was taken and whose effect is not done (R374): whether its effect in the wing of the position's
port has come, and the locks still to be orphaned (R171, R172). -/
structure ResetRec where
  pos   : Nat
  eff   : Bool
  locks : List Nat
  deriving DecidableEq, Repr

/-- Where a command is held: in a capture stage, at a command window port, at the seam, for its record, at its unit, or on its
path by a block that enters its safe state or has a fault (R27); a `late` one is a late-mode command behind such a command on the same
object (R30). A `stalled` one waits before the seam's holding buffer, which is full (R33). -/
inductive Place where
  | capture (pos : Nat)
  | window (w : Wing)
  | seam (into : Wing) (stalled : Bool)
  | file (obj : Nat)
  | aside
  | caught (blk : Nat) (late : Bool)
  deriving DecidableEq, Repr

/-- A held command (R32 to R34, R92, R116). `mute` is set when its position's reset notice was taken after it was
presented: its answer is discarded (R87). `bad` is set when its opcode is reserved (R9); `op` is then not used. `charged`
is set while it counts as an operation in flight (R112). `merged` is set when an earlier arrival's unit absorbed it
(R22), and `mates` is as in its source (R113). `n` is its place in the order in which commands and units were held (R32), and `came` the place in that order at which it was
first held, by which commands of one path keep their order (R30); 0 stands for a command not yet held. -/
structure Held where
  mute  : Bool
  bad   : Bool
  charged : Bool
  merged : Bool
  mates : Nat × Nat
  n     : Nat
  came  : Nat
  place : Place
  req   : Req
  op    : Op
  w     : CmdW
  pos   : Nat
  deriving DecidableEq, Repr

/-- Has a command been admitted: is it past its capture stage and its window port (R79)? -/
def Held.admitted (h : Held) : Bool :=
  match h.place with
  | .capture _ => false
  | .window _ => false
  | _ => true

/-- A use count of one domain in one wing (R112). -/
structure Use where
  objs  : Nat
  acc   : Nat
  slots : Nat
  ops   : Nat
  deriving DecidableEq, Repr

/-- A staging block (R138, R139): the words written and their values, and the domain charged. -/
structure Staging where
  acc     : Nat
  dom     : Nat
  written : BitVec 32
  data    : BitVec 2048
  claimed : Bool
  deriving DecidableEq, Repr

/-- An operand waiting for or in a combine queue (R140): its barrier, its member's index, its payload, and the
accumulator it returns when folded. -/
structure Operand where
  obj  : Nat
  acc  : Option Nat
  dom  : Nat
  data : BitVec 2048
  deriving DecidableEq, Repr

/-- A straggler report (R153). -/
structure Straggler where
  obj     : Nat
  gen     : BitVec 32
  missing : Nat
  arrived : Nat
  named   : List Member
  deriving DecidableEq, Repr

/-- One file's state besides its records (R116, R119, R140, R153, R167, R274). -/
structure FileSt where
  missCnt   : Nat
  wbCnt     : Nat
  pageins   : List Nat
  grants    : List (Nat × Nat)
  combineQ  : List Operand
  promoted  : List Operand
  ring      : Table (Option Straggler)
  ringNext  : Nat
  strName   : Nat
  strReport : Nat
  promo     : Option (Nat × BitVec 26 × Nat)
  faultCnt  : Nat
  lateCnt   : Nat
  poisonCnt : Nat
  ldgLast   : Option (Bool × Nat × Nat × Nat)
  deriving DecidableEq, Repr

/-- A file with nothing in it. -/
def FileSt.empty : FileSt :=
  { missCnt := 0, wbCnt := 0, pageins := [], grants := [], combineQ := [], promoted := [], ring := [], ringNext := 0,
    strName := 0, strReport := 0, promo := none, faultCnt := 0, lateCnt := 0, poisonCnt := 0, ldgLast := none }

/-- An allocated or withdrawn block of a pool: wing, first unit, units, and whether retirement withdrew it (R105, R355). -/
structure Block where
  wing : Wing
  base : Nat
  size : Nat
  lost : Bool
  deriving DecidableEq, Repr

/-- A lock directory entry's kind (R168). -/
inductive DirKind where
  | held
  | pending
  deriving DecidableEq, Repr

/-- A lock directory update that has not reached the other wing's copy (R168): `byWalk` when a second stalemate walk made it
(R170), `stalled` when the seam's holding buffer had no room for it (R33). -/
structure DirUpd where
  into    : Wing
  pos     : Nat
  obj     : Nat
  kind    : Option DirKind
  byWalk  : Bool
  stalled : Bool
  deriving DecidableEq, Repr

/-! ### Sequencers and holds -/

/-- Sequencer states (Table 7.6). -/
inductive SeqState where
  | stopped | waiting | acting | stopping | done | halted
  deriving DecidableEq, Repr

/-- Halt reasons of SEQ_STAT.REASON (R222). -/
inductive SeqReason where
  | none | actionRefused | plyReserved | plyRange | pageCheck | waitObject | ledgerFaulted | contained | arrayEcc
  deriving DecidableEq, Repr

/-- One sequencer (R199 to R222). `met` is set when its wait has been met and its actions wait for a pause, a P-level step or
its wing; `cur` is the current ply; `plyAt` the time at which it became current; `answers` the answers received, as action slot, object and
status; `waitingActs` the answers still to be taken; `bad` the first refused answer taken, for whose halt the others are awaited; `ahead`
the pages still to be read ahead for the current ply (R221). `checking` is set while a ply that has become current waits for a unit of
its own to reach the objects that it names (R32, R116, R353). -/
structure Seq where
  state    : SeqState
  reason   : SeqReason
  haltObj  : Nat
  haltSlot : Nat
  haltSt   : Nat
  pageWait : Bool
  met      : Bool
  checking : Bool
  pc       : Nat
  cur      : Option (BitVec 128)
  watches  : List (Option (BitVec 32))
  loops    : List (BitVec 16)
  anchor   : Nat
  plyAt    : Nat
  answers  : List (Nat × Nat × Status)
  waitingActs : Nat
  bad      : Option (Nat × Nat × Status)
  ahead    : List Nat
  wcond    : Nat
  deriving DecidableEq, Repr

/-- A sequencer after reset. -/
def Seq.reset : Seq :=
  { state := .stopped, reason := .none, haltObj := 0, haltSlot := 0, haltSt := 0, pageWait := false,
    met := false, checking := false, pc := 0, cur := none, watches := [none, none, none, none], loops := [0, 0, 0, 0], anchor := 0, plyAt := 0,
    answers := [], waitingActs := 0, bad := none, ahead := [], wcond := 0 }

/-- A read of a ply page, under way or waiting (R219 to R221): whether it is the one after a failed check, whether the mesh's error has
had it repeated (R378), and the sequencer whose read-ahead it is. -/
structure PageRead where
  page   : Nat
  second : Bool
  repeated : Bool
  ahead  : Option Nat
  deriving DecidableEq, Repr

/-- A hold request or granted hold (R268). -/
structure HoldRec where
  who      : HoldBy
  slot     : Nat
  dom      : Nat
  us       : Nat
  urgent   : Bool
  at_      : Nat
  granted  : Option Nat
  forced   : Bool
  barriers : List Nat
  deriving DecidableEq, Repr

/-! ### Levels -/

/-- What a part of a level context is (R235 to R238): a chip's contribution at L1, a tree A partial, a half 1 up tree B, a
cluster's contribution at L3, reduce-scatter words, or reduced words. -/
inductive PartKind where
  | l1 | treeA | treeB | l3 | rs | ag
  deriving DecidableEq, Repr

/-- A message that a level context holds (R232): its kind, the chip that made it, and its payload. -/
structure Part where
  kind  : PartKind
  chip  : BitVec 16
  data  : BitVec 2048
  deriving DecidableEq, Repr

/-- A message that a generation sends once from a chip. -/
inductive Sent where
  | contribution | ag | upA | upB | upL3 | downA | downB | board | downL3
  deriving DecidableEq, Repr

/-- A level context (R232): one relay generation in flight at this chip. `parts` stands in order of arrival; `rel` is the
result taken from a release, the whole of it when `whole` is set and half 0 otherwise. -/
structure LvlCtx where
  relay    : Nat
  gen      : BitVec 32
  own      : Option (BitVec 2048)
  parts    : List Part
  sent     : List Sent
  l1       : Option (BitVec 2048)
  l2       : Option (BitVec 2048)
  rel      : Option (BitVec 2048)
  whole    : Bool
  half1    : Option (BitVec 2048)
  deadlines : List (Nat × Nat)
  fell     : List Nat
  deriving DecidableEq, Repr

/-- A message being gathered from fragments (R300). -/
structure Gather where
  ftype : BitVec 8
  level : Nat
  src   : BitVec 16
  obj   : Nat
  gen   : BitVec 32
  term  : BitVec 8
  fcount : Nat
  frags : Table (Option (List Byte))
  deriving DecidableEq, Repr

/-- Group states (Table 8.3). -/
inductive GroupState where
  | absent | joining | up | failover | refused | resigned
  deriving DecidableEq, Repr

/-- A group on this chip (R228, R229, R240 to R245): its state; when it joined; term, arbiter and standby per level
(levels 1 to 3 in order); `heads`, the node chips of other boards (by board) and clusters (by 65,536 + cluster) that a
takeover has named; the chips resigned; those whose hello has been answered, with their BOOT_SEQ; those passed over; those
whose resignation this board's arbiter has asked about; at that arbiter, the resignations under way, each with the
participants that have not answered and the contributions announced and not yet come; contributions of resigned chips that
the arbiter has announced; the answers that a takeover awaits and owes, with their level; the generations in flight at the takeover; those among them that an answer
has told to be released; the chips that have answered "not released" for one (R241); and the generations for which the board's arbiter
has said that it sends a contribution of the chip it is about to resign (R245). -/
structure GroupSt where
  state    : GroupState
  everUp   : Bool
  joinAt   : Nat
  terms    : List (BitVec 8)
  arbs     : List (Option (BitVec 16))
  sbys     : List (Option (BitVec 16))
  heads     : Table (Option (BitVec 16))
  resigned : List (BitVec 16)
  answered : List (BitVec 16 × BitVec 32)
  passed   : List (BitVec 16)
  asked    : List (BitVec 16)
  leaving  : List (BitVec 16 × List (BitVec 16) × List (Nat × BitVec 32))
  expects  : List (BitVec 16 × Nat × BitVec 32)
  awaits   : List (Nat × BitVec 16)
  owes     : List (Nat × BitVec 16)
  flying   : List (Nat × BitVec 32)
  told     : List (Nat × BitVec 32)
  unready  : List (BitVec 16 × Nat × BitVec 32)
  coming   : List (Nat × BitVec 32)
  deriving DecidableEq, Repr

/-- A group of which nothing is known. -/
def GroupSt.absent : GroupSt :=
  { state := .absent, everUp := false, joinAt := 0, terms := [0, 0, 0], arbs := [none, none, none],
    sbys := [none, none, none], heads := [], resigned := [], answered := [], passed := [], asked := [], leaving := [],
    expects := [], awaits := [], owes := [], flying := [], told := [], unready := [], coming := [] }

/-- What is known of another chip (R240, R294, R296): when it was last heard, whether it is silent, since when it has
been live, the links it reported up, and the lane 3 records for it. -/
structure ChipSt where
  heard    : Bool
  last     : Nat
  silent   : Bool
  liveFrom : Nat
  links    : BitVec 16
  coldTill : Nat
  sent3    : BitVec 16
  exec3    : Option (BitVec 32 × BitVec 16)
  deriving DecidableEq, Repr

/-- A chip never heard of. -/
def ChipSt.unknown : ChipSt :=
  { heard := false, last := 0, silent := false, liveFrom := 0, links := 0, coldTill := 0, sent3 := 0, exec3 := none }

/-- An entry of the arbiter's suspect table (R251, R252). -/
structure Suspect where
  chip    : BitVec 16
  level   : BitVec 2
  group   : BitVec 8
  cause   : Nat
  witness : Nat
  madeAt  : Nat
  raisedWith : Nat
  deriving DecidableEq, Repr

/-- A global lock homed at this chip (R174), or the standby's copy of it (R176). -/
structure Glock where
  holder   : Option (BitVec 26)
  orphaned : Bool
  waiters  : List (BitVec 26 × Nat)
  prio     : Nat
  eff      : Nat
  deriving DecidableEq, Repr

/-- A global lock with no holder and no waiter. -/
def Glock.free : Glock := { holder := none, orphaned := false, waiters := [], prio := 0, eff := 0 }

/-- A LOCK_TRY that waits for the arbiter's answer (R175), or a LOCK_ACQUIRE forwarded and not yet granted; `mute` as for
a held command. -/
structure GlockReq where
  mute : Bool
  tag  : BitVec 8
  lock : Nat
  obj  : Nat
  pos  : Nat
  prio : Nat
  try_ : Option EntryId
  deriving DecidableEq, Repr

/-! ### Links and tunnel -/

/-- Port states (Table 10.3). -/
inductive PortState where
  | off | training | quiet | resuming | fast | cold | down | fenced
  deriving DecidableEq, Repr

/-- A frame kept by a sender until it is acknowledged, with its LSEQ (R291). -/
structure TxFrame where
  lseq : BitVec 8
  f    : Frame
  deriving DecidableEq, Repr

/-- The outbound scheduler of a port (R249): each domain's deficit in bytes, the domain being visited, and each domain's
last flow. -/
structure Sched where
  deficits : Table Nat
  lastDom  : Nat
  flows    : Table Nat
  deriving DecidableEq, Repr

/-- A scheduler with nothing waiting. -/
def Sched.idle : Sched := { deficits := [], lastDom := 0, flows := [] }

/-- A quiet frame that awaits its acknowledgement (R281 to R283): class, sent twice, on a COLD link, and when it ended. -/
structure Await where
  cls    : Nat
  resent : Bool
  cold   : Bool
  at_    : Nat
  deriving DecidableEq, Repr

/-- A margining point (R401): its offset in phase and threshold, its dwell, and what it has counted so far: invalid sync headers, CRC
failures and frames replayed. -/
structure MarginPt where
  phase     : Int
  threshold : Int
  dwell     : Nat
  headers   : Nat
  crcs      : Nat
  replays   : Nat
  deriving DecidableEq, Repr

/-- One Shaut port (R277 to R294, R400, R401). `refusedQ` holds each refused frame with the time at which it is sent
again; `peerQuiesce` is set while an answer to QUIESCE is owed; `coldWish` while a COLD announcement is under way;
`coldMine` after this end's announcement was acknowledged; `onWake` while fast transmission waits for the wing; `loopRes` what the last
loopback counted: bit errors, and quiet frames sent, rejected and matched; `marginRes` what the last margining point counted, and whether it
was ABORTED. -/
structure Port where
  state    : PortState
  why      : Nat
  via      : Option Nat
  peerChip : BitVec 16
  downCnt  : Nat
  retryCnt : Nat
  qbad     : Nat
  qdrop    : Nat
  phase    : Nat
  phaseAt  : Nat
  attempt  : Nat
  aliveIn  : Nat
  trainIn  : Nat
  trained  : Bool
  downAt   : Nat
  waitQ    : List Frame
  unacked  : List TxFrame
  ackAt    : Nat
  replays  : Nat
  lseq     : BitVec 8
  expect   : BitVec 8
  nakSent  : Bool
  credits  : List Nat
  refusedQ : List (Nat × Frame)
  quiescing : Bool
  quiesced : Bool
  peerQuiesce : Bool
  await    : Option Await
  coldWish : Bool
  coldMine : Bool
  leaseEnd : Nat
  onWake   : Bool
  lastTx   : Nat
  lastUse  : Nat
  sched    : Sched
  loop     : Option LoopMode
  loopRes  : Option (Nat × Nat × Nat × Nat)
  margin   : Option MarginPt
  marginRes : Option (Nat × Nat × Nat × Bool)
  abortAt  : Nat
  deriving DecidableEq, Repr

/-- A port before LINK_TRAIN. -/
def Port.reset : Port :=
  { state := .off, why := 0, via := none, peerChip := 0, downCnt := 0, retryCnt := 0, qbad := 0, qdrop := 0, phase := 0,
    phaseAt := 0, attempt := 0, aliveIn := 0, trainIn := 0, trained := false, downAt := 0, waitQ := [], unacked := [],
    ackAt := 0, replays := 0, lseq := 0, expect := 0, nakSent := false, credits := [8, 16, 16, 8], refusedQ := [],
    quiescing := false, quiesced := false, peerQuiesce := false, await := none, coldWish := false, coldMine := false,
    leaseEnd := 0, onWake := false, lastTx := 0, lastUse := 0, sched := Sched.idle, loop := none, loopRes := none,
    margin := none, marginRes := none, abortAt := 16 }

/-- Tunnel context states (TUN_CTX0.STATE). -/
inductive CtxState where
  | closed | opening | open | dead
  deriving DecidableEq, Repr

/-- A frame sent and not acknowledged, with its SEQ and when it was last sent (R303, R304). -/
structure TunTx where
  seq : BitVec 16
  at_ : Nat
  f   : Frame
  deriving DecidableEq, Repr

/-- A tunnel peer context (R302 to R305, R370, R391). `rto` is the base time in µs and `cur` the current one; `sentAt` is
when OPEN was last sent; `trialArm` is set when the next DATA packet goes by RING
as a trial, and `trial` is its SEQ. `openDue` is set while OPEN is to be sent and the tunnel port does not run, `failed` when the ring
has reported the path failed meanwhile. -/
structure TunCtx where
  state   : CtxState
  peer    : BitVec 16
  edge    : Bool
  backoff : Nat
  rto     : Nat
  cur     : Nat
  join    : Bool
  bootSeq : Option (BitVec 32)
  sndNxt  : BitVec 16
  rcvNxt  : BitVec 16
  unacked : List TunTx
  sentAt  : Nat
  sacked  : List (BitVec 16)
  waitQ   : List Frame
  reorder : List (BitVec 16 × Frame)
  ackOwed : Option Nat
  trialArm : Bool
  trial   : Option (BitVec 16)
  edgeAt  : Nat
  busyAt  : Option Nat
  lastUse : Nat
  lastTx  : Nat
  probes  : List Nat
  probeT1 : Option Nat
  probeAt : Nat
  openDue : Bool
  failed  : Bool
  deriving DecidableEq, Repr

/-- A context with no peer. -/
def TunCtx.closed : TunCtx :=
  { state := .closed, peer := 0, edge := false, backoff := 0, rto := 5, cur := 5, join := false, bootSeq := none,
    sndNxt := 0, rcvNxt := 0, unacked := [], sentAt := 0, sacked := [], waitQ := [], reorder := [], ackOwed := none,
    trialArm := false, trial := none, edgeAt := 0, busyAt := none, lastUse := 0, lastTx := 0, probes := [],
    probeT1 := none, probeAt := 0, openDue := false, failed := false }

/-- The tunnel port's own state (R306). -/
structure Tun where
  ctxs     : Table TunCtx
  ctxSel   : Nat
  hopSel   : Nat
  fallback : Nat
  retx     : Nat
  lost     : Nat
  front    : Option (Nat × Packet)
  sched    : Sched
  deriving DecidableEq, Repr

/-- A control block that a port sends (Table 10.7). -/
inductive Ctl where
  | idle (ack : BitVec 8) (crVl : BitVec 2) (crCnt : BitVec 4)
  | nak (lseq ack : BitVec 8)
  | refuse (lseq ack : BitVec 8) (crVl : BitVec 2) (crCnt : BitVec 4)
  | quiesce (ack : BitVec 8)
  | train (chip : BitVec 16) (build : BitVec 32)
  deriving DecidableEq, Repr

/-- A tunnel packet's fields beside SRC (Table 10.12): the path used, DST, SEQ, ACK and SACK. -/
structure PktHead where
  edge : Bool
  dst  : BitVec 16
  seq  : BitVec 16
  ack  : BitVec 16
  sack : BitVec 16
  deriving DecidableEq, Repr

/-- What leaves the block (log 5). `run` is a control block that a port sends over and over until its next recorded block,
`prbs` the PRBS31 pattern that it sends until then (R285). -/
inductive Out where
  | frame (k : Nat) (e : Eof) (f : Frame)
  | ctl (k : Nat) (c : Ctl)
  | run (k : Nat) (c : Ctl)
  | quiet (k : Nat) (bits : BitVec 12)
  | prbs (k : Nat)
  | data (h : PktHead) (f : Frame)
  | ack (h : PktHead) (map : BitVec 256)
  | open (h : PktHead) (bootSeq : BitVec 32) (buildId : BitVec 64)
  | openAck (h : PktHead) (bootSeq : BitVec 32) (buildId : BitVec 64) (busy : Bool)
  | flResetPulse
  | pageRead (addr : Nat)
  | pageWrite (addr : Nat) (bits : BitVec 512)
  | plyRead (addr : Nat)
  | rowWrite (w : Wing) (row : Nat)
  | otpRead (enter : Option (BitVec 8)) (read : BitVec 8) (addr : BitVec 24) (exit : Option (BitVec 8))
  | bootRecord (second : Bool) (pos : Nat) (bits : BitVec 256)
  | repairRecord (second : Bool) (pos : Nat) (bits : BitVec 256)
  | sectorErase (second : Bool)
  | compacted (second : Bool) (records : List (BitVec 256))
  | standbyCopy (dest : BitVec 16) (kind : CopyKind) (lock : Nat)
  | standbyAck (lock : Nat)
  | windowRead (win : Wing) (off : BitVec 16) (reader : Nat) (bits : BitVec 128)
  deriving DecidableEq, Repr

/-! ### Power -/

/-- Wing power states (TCU_PWRSTAT). -/
inductive PState where
  | active | idle | entering | adjourned | deep | exiting | off
  deriving DecidableEq, Repr

/-- A last-wake record (R326). -/
structure WakeRec where
  source : Nat
  state  : PState
  ap     : Nat
  detail : Nat
  exit   : Nat
  time   : Nat
  deriving DecidableEq, Repr

/-- Where an exit or a P-level step stands: what it waits for (R309, R322). -/
inductive Hand where
  | none
  | reg
  | osc
  | pll
  | mem
  | restore
  | drain
  | step
  | stepReg
  deriving DecidableEq, Repr

/-- A wing's power state and handshake pins (R307 to R326, Table 15.1). -/
structure Pwr where
  state    : PState
  plvl     : Nat
  ceil     : Nat
  ap       : Nat
  hand     : Hand
  target   : Nat
  wakePend : Option (Nat × Nat × Nat)
  exitFrom : PState
  exitAt   : Nat
  reqAt    : Nat
  lateExit : Bool
  lastWake : Option WakeRec
  regEn    : Bool
  regLvl   : Nat
  oscEn    : Bool
  memLvl   : Nat
  thrAck   : Bool
  deriving DecidableEq, Repr

/-- A wing's power state after reset. -/
def Pwr.reset : Pwr :=
  { state := .off, plvl := 1, ceil := 0, ap := 7, hand := .none, target := 1, wakePend := none, exitFrom := .off,
    exitAt := 0, reqAt := 0, lateExit := false, lastWake := none, regEn := false, regLvl := 1,
    oscEn := false, memLvl := 3, thrAck := true }

/-! ### Faults and repair -/

/-- FSTATE of a block (R334). -/
inductive FState where
  | normal | grace | contained | reload
  deriving DecidableEq, Repr

/-- A block's fault registers (R334, R344). `clrAged` holds the set bits whose stamp is aged; `graces` the GRACE of its
ESCALATE sources; `lastSet` is when a CONTAIN or ESCALATE source last set; `parityIn` holds parity errors not yet found, of
STAT, MASK and the others as bits 0, 1 and 2 (log 14); `reloading` while the IML reloads the block (R343). -/
structure Blk where
  stat     : BitVec 32
  stamps   : Table Nat
  aged     : BitVec 32
  mask     : BitVec 31
  sevs     : Table Nat
  fstate   : FState
  exitImg  : Bool
  exitMan  : Bool
  cause    : Nat
  graceEnd : Nat
  graceBy  : Nat
  quiet    : Nat
  quietMs  : Bool
  rlimit   : Nat
  rcount   : Nat
  contCnt  : Nat
  sqn      : BitVec 16
  graces   : Table Nat
  lastSet  : Nat
  parityIn : Nat
  reloading : Bool
  deriving DecidableEq, Repr

/-- A block's fault registers after reset. -/
def Blk.reset : Blk :=
  { stat := 0, stamps := [], aged := 0, mask := 0, sevs := [], fstate := .normal, exitImg := false, exitMan := false,
    cause := 0, graceEnd := 0, graceBy := 0, quiet := 0, quietMs := false, rlimit := 0, rcount := 0, contCnt := 0, sqn := 0,
    graces := [], lastSet := 0, parityIn := 0, reloading := false }

/-- A bank's repair state (R354, R355): for each spare in service its logical row; bad spares; retired rows; remaps so
far of a row; degraded. -/
structure Bank where
  used     : Table (Option Nat)
  bad      : BitVec 8
  retired  : List Nat
  remaps   : Table Nat
  degraded : Bool
  deriving DecidableEq, Repr

/-- A bank with no repair. -/
def Bank.sound : Bank := { used := [], bad := 0, retired := [], remaps := [], degraded := false }

/-- A row watch entry (R351): row, count, the passes since it was last counted, and whether it has been counted since the last
scrub visit. -/
structure Watch where
  bank  : Nat
  row   : Nat
  count : Nat
  quiet : Nat
  since : Bool
  deriving DecidableEq, Repr

/-- Work that a pass has left to be done in the same step: a consequence of its effect on another object, sequencer or
link, in the order in which it arose. The model's own; it is empty between steps. Some of it stands for a unit that may
have to wait at the seam first: a notice, or a bare WAKE when there is no word, with the sequencer and action slot of a WAKE
action (R188, R205); a frame built in the other wing for a Shaut port, or for the tunnel port when no port is named (R39); and
a ply fetch of a sequencer of the other wing (R16). `paged` is what waits for a record that has been installed (R116). The events `fall`,
`walk`, `combine`, `fold`, `met`, `deadline`, `withdraw` and `orphan` are those that have come to an object and wait for its record or a locked row
(R118, R353); `rowFound` is what an access found in a row (R351, R352); `overflow` carries a failed position's overflow count (R123). `sendBy` is a frame that a wing's frame
builder has built (R39). `lvlFall` is a fallen level's effect at its CHILD (R239), `noteOn` the RESIGNED note that a CHILD takes
(R233), `answers` the answers that a takeover is owed (R241), and `resend` what a board's new node chip is sent again (R243). -/
inductive Work where
  | complete (obj : Nat)
  | parent (obj : Nat)
  | relayArrive (relay : Nat)
  | level (key : Nat)
  | holdsEnded
  | handover
  | rerun (h : Held)
  | act (k aslot : Nat)
  | send (f : Frame)
  | linkDown (k : Nat)
  | front
  | frame (f : Frame)
  | levels
  | note (pos : Nat) (note : Option Notice) (by_ : Option (Nat × Nat))
  | put (port : Option Nat) (f : Frame)
  | ply (k : Nat)
  | paged (obj : Nat)
  | fall (obj : Nat)
  | walk (obj pos : Nat)
  | combine (obj : Nat)
  | fold (file : Nat)
  | met (k : Nat)
  | deadline (relay : Nat) (gen : BitVec 32) (level : Nat)
  | withdraw (obj pos slot : Nat)
  | orphan (obj pos : Nat)
  | rowFound (w : Wing) (row : Nat) (x : RowFind)
  | overflow (pos n : Nat)
  | sendBy (origin : Option Wing) (f : Frame)
  | lvlFall (relay : Nat) (gen : BitVec 32)
  | noteOn (obj : Nat)
  | answers (g level : Nat) (dest : BitVec 16)
  | resend (g : Nat) (chip : BitVec 16)
  deriving DecidableEq, Repr

/-- What work waits for outside the seam: an object's record (R116, R118), room in a file's page-in queue (R116), a wing's locked row
(R353), or a contained file's service (R338). -/
inductive WaitOn where
  | record (obj : Nat)
  | room (file : Nat)
  | row (w : Wing)
  | file (file : Nat)
  deriving DecidableEq, Repr

/-- A unit at the seam besides commands (R31 to R33, R39); `n` and `stalled` as for a held command. -/
structure SeamUnit where
  into    : Wing
  n       : Nat
  stalled : Bool
  item    : Work
  deriving DecidableEq, Repr

/-- A wing's state that is not kept per object, position or port; `parked` holds level frames of this chip that wait for a
level context (R232). -/
structure WingSt where
  deferCnt   : Nat
  lostCnt    : Nat
  badCnt     : Nat
  useSel     : Nat
  lastDomain : Nat
  crossCnt   : Nat
  opsTotal   : Nat
  draining   : Bool
  dropCnt    : Nat
  lastPos    : Nat
  pageMiss   : Nat
  checkFail  : Nat
  pageReads  : List PageRead
  remoteFail : Nat
  genErr     : Nat
  noCtx      : Nat
  beats      : List (Nat × BitVec 56)
  withheld   : List (Nat × Nat)
  latched    : List (Nat × Nat)
  pwr        : Pwr
  scrubAt    : Nat
  passCnt    : Nat
  ceCnt      : Nat
  watch      : List Watch
  remapQ     : List (Nat × Nat)
  displaced  : List Nat
  dispQ      : List Nat
  parked     : List Frame
  deriving DecidableEq, Repr

/-- A wing after reset. -/
def WingSt.reset : WingSt :=
  { deferCnt := 0, lostCnt := 0, badCnt := 0, useSel := 0, lastDomain := 0, crossCnt := 0, opsTotal := 0,
    draining := false, dropCnt := 0, lastPos := 0, pageMiss := 0, checkFail := 0, pageReads := [],
    remoteFail := 0, genErr := 0, noCtx := 0, beats := [], withheld := [], latched := [], pwr := Pwr.reset,
    scrubAt := 0, passCnt := 0, ceCnt := 0, watch := [], remapQ := [], displaced := [], dispQ := [], parked := [] }

/-! ### Image loader, timebase, test -/

/-- Start-up stages (Table 2.8). -/
inductive Stage where
  | aonUp | wingUp | discovery | load | verify | bist | repair | linkTrain | ready | halted
  deriving DecidableEq, Repr

/-- The boot directory copy in use (Table 2.2). -/
structure Directory where
  slotA   : Nat
  slotB   : Nat
  preferB : Bool
  chipId  : BitVec 16
  bootRec : Nat
  density : Nat
  deriving DecidableEq, Repr

/-- The image loader (R43 to R70). `queue` holds the repair records waiting to be written (R67, R360). `scanned` says
that the boot record area has been scanned, `bootSector` and `bootNext` are the sector and the position of the next boot
record (R66); `otpBad` says that a version-field read failed (R57), `sfdp` what the flash's SFDP tables hold (R44). -/
structure Iml where
  stage      : Stage
  porLow     : Bool
  slotB      : Bool
  dirCopy    : Bool
  restarted  : Bool
  failA      : Nat
  failB      : Nat
  halt       : Nat
  flashMode  : Nat
  readyUs    : Nat
  minVersion : Nat
  secVersion : Nat
  relVersion : BitVec 32
  buildId    : BitVec 64
  chip       : BitVec 16
  bootSeq    : Nat
  release    : Bool
  released   : Bool
  runtimeOnly : Nat
  queue      : List RepRec
  dir        : Option Directory
  trying     : Option Bool
  staged     : Option Image
  holdStop   : Bool
  bootDone   : Bool
  scanned    : Bool
  otpBad     : Bool
  sfdp       : Sfdp
  bootSector : Bool
  bootNext   : Nat
  deriving DecidableEq, Repr

/-- The image loader after reset. -/
def Iml.reset : Iml :=
  { stage := .aonUp, porLow := true, slotB := false, dirCopy := false, restarted := false, failA := 0, failB := 0,
    halt := 0, flashMode := 0, readyUs := 0, minVersion := 0, secVersion := 0, relVersion := 0, buildId := 0, chip := 0,
    bootSeq := 0, release := false, released := false, runtimeOnly := 0, queue := [], dir := none, trying := none,
    staged := none, holdStop := false, bootDone := false, scanned := false, otpBad := false,
    sfdp := { present := false, octalTable := false, octalSeq := false, quad := false, qeNeeded := false, qeSet := false, density := 0,
              dummies := 0, fourByte := false },
    bootSector := false,
    bootNext := 0 }

/-- The ROM fields of Table 2.7. -/
structure Rom where
  rootDigest : BitVec 384
  hostId     : Nat
  allowQuad  : Bool
  allowOctal : Bool
  otpMode    : Nat
  otpRead    : BitVec 8
  otpEnter   : BitVec 8
  otpExit    : BitVec 8
  otpAddr    : BitVec 24
  deriving DecidableEq, Repr

/-- The repair unit and the repair ledger (R359 to R362): the copy in use (`copyB`: copy 1) with its GEN, its `positions` in
use, header included, none in use at 0, its records, the next RSEQ, and the repairs in force that are not in flash. `bistRows` are the rows in which a start-up test
found errors, `slowObjs` the objects that RETIRE records name. -/
structure Rep where
  banks      : Table Bank
  bankSel    : Nat
  positions  : Nat
  copyB      : Bool
  copyGen    : Nat
  records    : List RepRec
  rseq       : Nat
  repRuntime : Nat
  bistRows   : List RowId
  slowObjs   : List Nat
  deriving DecidableEq, Repr

/-- The timebase follower (R247, R248). -/
structure Tsync where
  state   : Nat
  delay   : Nat
  offset  : Int
  stepped : Bool
  slew    : Int
  frac    : Nat
  first   : Option Nat
  last    : Nat
  doneAt  : Nat
  t1      : Option Nat
  master  : Option (BitVec 16)
  deriving DecidableEq, Repr

/-- TAP instructions (Table 17.1). -/
inductive TapInstr where
  | extest | samplePreload | idcode | ijtag | wrapSel | bypass
  deriving DecidableEq, Repr

/-- The test access port and instruments (R393 to R401). The refused fields are the instruments' STATUS fields at REFUSED, and `sib`
holds the segment insertion bits of the instruments in the order of Table 17.2 (R397). `mbistEnd` says that a full march has completed; its
failed rows and spares follow (R399). -/
structure Tap where
  ir       : TapInstr
  bypass   : Bool
  sib      : BitVec 37
  holdBoot : Bool
  boundary : List Bool
  mbist    : Bool
  mbistEnd : Bool
  mbistRows : List RowId
  mbistSpares : List RowId
  regData  : BitVec 48
  traceData : BitVec 128
  pathdly  : Nat
  mbistRefused : Bool
  loopRefused : BitVec 16
  marginRefused : BitVec 16
  deriving DecidableEq, Repr

/-- A trace record (Table 17.4): TIME, CLASS, SRC, AUX and OBJ_GEN. -/
structure TraceRec where
  time : Nat
  cls  : Nat
  blk  : Nat
  aux  : Nat
  og   : Nat
  deriving DecidableEq, Repr

/-- The ALIVE_OUT pin (R347): whether its wave runs, when it started, and the level that it had then or at its stop. -/
structure AliveOut where
  run  : Bool
  at_  : Nat
  high : Bool
  deriving DecidableEq, Repr

/-- An ALIVE_IN pin (R348): whether it has shown an edge since ALM_READY, whether it has then shown none for 2 µs, and the time of its
last edge. -/
structure AliveIn where
  seen  : Bool
  still : Bool
  at_   : Nat
  deriving DecidableEq, Repr

/-- Trace buffer and event counters (R402 to R404); `lapped` says that every record has been written once. `groups` holds, for each pipe,
the arrival units that started last, each with its object, its ARG value and the units that followed it (R22). `peakQ` and `peakK` are
the highest occupancies of the seam towards queenside and kingside (SEAM_OCC, R42), `calmQ` and `calmK` for how long, in ns, each wing has
had no vote and been quiescent (R318), and `wave` is the ALIVE_OUT pin. -/
structure Trace where
  ctl    : BitVec 32
  selIdx : Nat
  recs   : Table (Option TraceRec)
  lapped : Bool
  wrapped : Bool
  stopped : Bool
  dropped : Nat
  trig   : Option Nat
  next   : Nat
  pcSel  : Table Nat
  pc     : Table Nat
  groups : Table (List (Nat × BitVec 20 × Nat))
  peakQ  : Nat
  peakK  : Nat
  calmQ  : Nat
  calmK  : Nat
  wave   : AliveOut
  deriving DecidableEq, Repr

/-- The power counters and chip-wide power state of the TCU (R320, R328). -/
structure Pwrc where
  adjCnt    : Nat
  abortCnt  : Nat
  lateRdy   : Nat
  announcing : Bool
  deriving DecidableEq, Repr

/-- Forced hold and hold counters (R271, R274). -/
structure Holds where
  recs     : List HoldRec
  forced   : Bool
  forcedAt : Nat
  grantsDone : Bool
  barCnt   : Nat
  forcedCnt : Nat
  overrunCnt : Nat
  deriving DecidableEq, Repr

/-- Output pins that are not computed from other state (Table 15.1). -/
structure Pins where
  flResetN : Bool
  deriving DecidableEq, Repr

/-- Suspect tables and their selector (R250 to R252). -/
structure Susp where
  reported : List ((BitVec 16 × BitVec 2 × BitVec 8) × Nat)
  table    : Table (Option Suspect)
  overflow : Nat
  sel      : Nat
  raisedAt : Table Nat
  deriving DecidableEq, Repr

/-- The block's state. `onHold` holds work that waits for a record, a row or a file, in order; `upsets` what reading each array row finds
where it holds bit errors, keyed by 65,536 × wing + 512 × bank + row (log 14). Objects are keyed by number, slots by 8 × position + slot, quotas and buckets by
1,024 × wing + domain, level contexts by 2^32 × relay + generation. -/
structure State where
  pending  : List Instr
  now      : Nat
  free     : Nat
  todo     : List Work
  onHold   : List (WaitOn × Work)
  upsets   : Table RowFind
  out      : List Out
  iml      : Iml
  rom      : Rom
  pins     : Pins
  img      : ImageBody
  posmap   : Table PosEnt
  votes    : Table Bool
  use      : Table Use
  spent    : Table Nat
  refusals : Table Nat
  held     : List Held
  lanes    : Table Lanes
  entries  : Table Entry
  slots    : Table (Option SlotRec)
  leaves   : Table Leaf
  notes    : Table NoteQ
  seam     : List SeamUnit
  seamNext : Nat
  waitq    : Table (List Waiter)
  recs     : Table (Option Resident)
  backing  : Table (Option Backing)
  mblocks  : List Block
  ablocks  : List Block
  accs     : Table (BitVec 2048)
  stages   : Table (Option Staging)
  lockDir  : Table (List (Nat × DirKind))
  dirLag   : List DirUpd
  files    : Table FileSt
  seqs     : Table Seq
  pages    : Table (List (BitVec 128))
  pageFrame : Table Nat
  badPages : List Nat
  holds    : Holds
  groups   : Table GroupSt
  grpSel   : Nat
  chips    : Table ChipSt
  lctxs    : Table (Option LvlCtx)
  gather   : List Gather
  susp     : Susp
  glocks   : Table Glock
  glockReqs : List GlockReq
  ports    : Table Port
  tun      : Tun
  wq       : WingSt
  wk       : WingSt
  pwrc     : Pwrc
  blks     : Table Blk
  alive    : Table AliveIn
  conds    : List (Nat × Nat)
  rep      : Rep
  tsync    : Tsync
  tap      : Tap
  trace    : Trace
  resets   : List ResetRec
  deriving DecidableEq, Repr

/-- The configuration before VERIFY commits an image: every image-set field reads zero (R15). -/
def ImageBody.empty : ImageBody :=
  { domains := [], posmap := [], presets := [], backQ := 0, backK := 0, grants := [], seqs := [],
    plies := [], plyBacking := 0, paged := 0, pageCheck := [], links := [], peers := [], groups := [], trees := [], sevs := [],
    power := { deepestQ := 0, deepestK := 0, pnomQ := 0, pnomK := 0, guard := 0, beAdj := 0, beDeep := 0, waitLimit := 0,
               qmask := [] },
    repair := { region := 0, copy0 := 0, copy1 := 0, dispQ := 0, dispK := 0 } }

/-- The state right after reset: PORESET_N low, both wings OFF, every register at its reset value (R15, R312, R373).
The values without a reset value in the spec are those of log 3; the ROM fields those of log 7. -/
def State.reset : State :=
  { pending := []
    now := 0
    free := 0
    todo := []
    onHold := []
    upsets := []
    out := []
    iml := Iml.reset
    rom := { rootDigest := 0, hostId := 0, allowQuad := true, allowOctal := true, otpMode := 0, otpRead := 0, otpEnter := 0,
             otpExit := 0, otpAddr := 0 }
    pins := { flResetN := false }
    img := ImageBody.empty
    posmap := []
    votes := []
    use := []
    spent := []
    refusals := []
    held := []
    lanes := []
    entries := []
    slots := []
    leaves := []
    notes := []
    seam := []
    seamNext := 1
    waitq := []
    recs := []
    backing := []
    mblocks := []
    ablocks := []
    accs := []
    stages := []
    lockDir := []
    dirLag := []
    files := []
    seqs := []
    pages := []
    pageFrame := []
    badPages := []
    holds := { recs := [], forced := false, forcedAt := 0, grantsDone := false, barCnt := 0, forcedCnt := 0,
               overrunCnt := 0 }
    groups := []
    grpSel := 0
    chips := []
    lctxs := []
    gather := []
    susp := { reported := [], table := [], overflow := 0, sel := 0, raisedAt := [] }
    glocks := []
    glockReqs := []
    ports := []
    tun := { ctxs := [], ctxSel := 0, hopSel := 0, fallback := 0, retx := 0, lost := 0, front := none, sched := Sched.idle }
    wq := WingSt.reset
    wk := WingSt.reset
    pwrc := { adjCnt := 0, abortCnt := 0, lateRdy := 0, announcing := false }
    blks := []
    alive := []
    conds := []
    rep := { banks := [], bankSel := 0, positions := 0, copyB := false, copyGen := 0, records := [], rseq := 0, repRuntime := 0,
             bistRows := [], slowObjs := [] }
    tsync := { state := 0, delay := 0, offset := 0, stepped := false, slew := 0, frac := 0, first := none, last := 0, doneAt := 0, t1 := none,
               master := none }
    tap := { ir := .idcode, bypass := false, sib := 0, holdBoot := false, boundary := [], mbist := false, mbistEnd := false,
             mbistRows := [], mbistSpares := [], regData := 0, traceData := 0, pathdly := 0, mbistRefused := false, loopRefused := 0, marginRefused := 0 }
    trace := { ctl := 0, selIdx := 0, recs := [], lapped := false, wrapped := false, stopped := false, dropped := 0,
               trig := none, next := 0, pcSel := [], pc := [], groups := [], peakQ := 0, peakK := 0, calmQ := 0, calmK := 0, wave := { run := false, at_ := 0, high := false } }
    resets := [] }

end Sys2Proof.Machine
end

