-- ==== Sys2Proof/Machine/Ops.lean ====
section
/-! DEFINITION. The named operations that the meanings share: access to each part of the state, wake beats, completions,
quotas, pools, power wakes, fault sources and containment. -/
namespace Sys2Proof

/-- The number of a wing, 0 queenside and 1 kingside (R19). -/
def Wing.num : Wing → Nat
  | .q => 0
  | .k => 1

/-- The other wing. -/
def Wing.other : Wing → Wing
  | .q => .k
  | .k => .q

/-- A disabled domain's entry. -/
def DomainEnt.disabled : DomainEnt :=
  { enabled := false, refuseLimit := 0, objQ := 0, objK := 0, accQ := 0, accK := 0, wslotQ := 0, wslotK := 0, opsQ := 0,
    opsK := 0, seqRun := 0, weight := 0, rateQ := 0, rateK := 0, depthQ := 0, depthK := 0, objBase := 0, objSize := 0 }

/-- A position with no entry: disabled. -/
def PosEnt.disabled : PosEnt := { spare := false, enabled := false, schedPos := 0, dom := 0 }

end Sys2Proof

namespace Sys2Proof.Machine

/-! ### Numbers -/

/-- A count that stops at the largest value of its field (R367). -/
def sat (max n : Nat) : Nat := if n < max then n + 1 else max

/-- A count raised by `k` that stops at the largest value of its field (R367). -/
def satAdd (max n k : Nat) : Nat := Nat.min max (n + k)

/-- The largest of two numbers. -/
def hi (a b : Nat) : Nat := if a < b then b else a

/-- A wing from a bit (R19). -/
def wingOfBit (b : Bool) : Wing := if b then .k else .q

/-- The file of an object number (R19): bits [2:0]. -/
def fileOf (obj : Nat) : Nat := obj % 8

/-- The wing of an object number (R19): bit 2. -/
def wingOf (obj : Nat) : Wing := wingOfBit (obj / 4 % 2 == 1)

/-- The wing of a file. -/
def wingOfFile (f : Nat) : Wing := wingOfBit (decide (4 ≤ f % 8))

/-- The ingress port of a position (R23). -/
def portOf (p : Nat) : Nat := p / 48

/-- The wing of a position's ingress port (R23). -/
def posWing (p : Nat) : Wing := wingOfBit (decide (384 ≤ p))

/-- The wing of a sequencer (Table 1.1). -/
def seqWing (k : Nat) : Wing := wingOfBit (decide (16 ≤ k))

/-- The wing of a Shaut port's edge (Table 1.1). -/
def shpWing (k : Nat) : Wing := wingOfBit (decide (8 ≤ k))

/-- Replace every element by its image under a function that may drop it, and stop at the first match: list tools kept
structural so that they evaluate. -/
def updAt {α : Type} (l : List α) (i : Nat) (f : α → α) : List α :=
  match l, i with
  | [], _ => []
  | a :: t, 0 => f a :: t
  | a :: t, i + 1 => a :: updAt t i f

/-- The positions 0 to `n - 1` at which a predicate holds. -/
def idxsFrom {α : Type} (p : α → Bool) : Nat → List α → List Nat
  | _, [] => []
  | i, a :: t => if p a then i :: idxsFrom p (i + 1) t else idxsFrom p (i + 1) t

/-- Fold a state change over a list, left to right. -/
def each {α σ : Type} (f : α → σ → σ) : List α → σ → σ
  | [], s => s
  | a :: t, s => each f t (f a s)

/-! ### Access -/

/-- A wing's own state. -/
def State.wing (s : State) : Wing → WingSt
  | .q => s.wq
  | .k => s.wk

/-- Change a wing's own state. -/
def State.modWing (s : State) (w : Wing) (f : WingSt → WingSt) : State :=
  match w with
  | .q => { s with wq := f s.wq }
  | .k => { s with wk := f s.wk }

/-- Change a wing's power state. -/
def State.modPwr (s : State) (w : Wing) (f : Pwr → Pwr) : State :=
  s.modWing w (fun x => { x with pwr := f x.pwr })

/-- A wing's power state. -/
def State.pwr (s : State) (w : Wing) : Pwr := (s.wing w).pwr

/-- Is the wing ACTIVE (Table 11.2)? -/
def State.active (s : State) (w : Wing) : Bool := (s.pwr w).state == .active

/-- Has start-up reached READY (R59)? -/
def State.ready (s : State) : Bool := s.iml.stage == .ready

/-- Is the block in reset: PORESET_N low, or EXTEST selected (R395)? -/
def State.inReset (s : State) : Bool := s.iml.porLow || s.tap.ir == TapInstr.extest

/-- A domain's entry (R97). -/
def State.domain (s : State) (d : Nat) : DomainEnt := s.img.domains.getD d DomainEnt.disabled

/-- A figure of a domain entry by wing (R97). -/
def byWing (w : Wing) (q k : Nat) : Nat :=
  match w with
  | .q => q
  | .k => k

/-- A position's map entry (Table 2.6, R123). -/
def State.posEnt (s : State) (p : Nat) : PosEnt := tget PosEnt.disabled s.posmap p

/-- A position's domain (R80). -/
def State.domOf (s : State) (p : Nat) : Nat := (s.posEnt p).dom

/-- The agent identity of a position of this chip (R8). -/
def State.identity (s : State) (p : Nat) : BitVec 26 := s.iml.chip ++ BitVec.ofNat 10 p

/-- One file's state. -/
def State.file (s : State) (f : Nat) : FileSt := tget FileSt.empty s.files f

/-- Change a file's state. -/
def State.modFile (s : State) (f : Nat) (g : FileSt → FileSt) : State :=
  { s with files := tmod FileSt.empty s.files f g }

/-- One sequencer. -/
def State.seq (s : State) (k : Nat) : Seq := tget Seq.reset s.seqs k

/-- Change a sequencer. -/
def State.modSeq (s : State) (k : Nat) (f : Seq → Seq) : State := { s with seqs := tmod Seq.reset s.seqs k f }

/-- One Shaut port. -/
def State.port (s : State) (k : Nat) : Port := tget Port.reset s.ports k

/-- Change a Shaut port. -/
def State.modPort (s : State) (k : Nat) (f : Port → Port) : State := { s with ports := tmod Port.reset s.ports k f }

/-- One block's fault registers. -/
def State.blk (s : State) (b : Nat) : Blk := tget Blk.reset s.blks b

/-- Change a block's fault registers. -/
def State.modBlk (s : State) (b : Nat) (f : Blk → Blk) : State := { s with blks := tmod Blk.reset s.blks b f }

/-- One group. -/
def State.group (s : State) (g : Nat) : GroupSt := tget GroupSt.absent s.groups g

/-- Change a group. -/
def State.modGroup (s : State) (g : Nat) (f : GroupSt → GroupSt) : State :=
  { s with groups := tmod GroupSt.absent s.groups g f }

/-- What is known of a chip. -/
def State.chip (s : State) (c : BitVec 16) : ChipSt := tget ChipSt.unknown s.chips c.toNat

/-- Change what is known of a chip. -/
def State.modChip (s : State) (c : BitVec 16) (f : ChipSt → ChipSt) : State :=
  { s with chips := tmod ChipSt.unknown s.chips c.toNat f }

/-- One bank's repair state, keyed by 64 × wing + bank. -/
def State.bank (s : State) (w : Wing) (b : Nat) : Bank := tget Bank.sound s.rep.banks (64 * w.num + b)

/-- Change a bank's repair state. -/
def State.modBank (s : State) (w : Wing) (b : Nat) (f : Bank → Bank) : State :=
  { s with rep := { s.rep with banks := tmod Bank.sound s.rep.banks (64 * w.num + b) f } }

/-- The resident record of an object number. -/
def State.resident (s : State) (obj : Nat) : Option Resident := tget none s.recs obj

/-- The open object at a number, when its record is resident. -/
def State.obj (s : State) (obj : Nat) : Option Obj := (s.resident obj).bind Resident.obj

/-- Change the open object at a number, when its record is resident. -/
def State.modObj (s : State) (obj : Nat) (f : Obj → Obj) : State :=
  { s with recs := tmod none s.recs obj (fun r => r.map (fun x => { x with obj := x.obj.map f })) }

/-- The body of a resident barrier. -/
def State.barrier (s : State) (obj : Nat) : Option Barrier :=
  match s.obj obj with
  | some o => match o.body with
    | .barrier b => some b
    | _ => none
  | none => none

/-- Write the body of an open object. -/
def State.setBody (s : State) (obj : Nat) (b : Body) : State := s.modObj obj (fun o => { o with body := b })

/-- Change the body of a barrier. -/
def State.modBarrier (s : State) (obj : Nat) (f : Barrier → Barrier) : State :=
  s.modObj obj (fun o => match o.body with
    | .barrier b => { o with body := .barrier (f b) }
    | _ => o)

/-- Change the body of a relay. -/
def State.modRelay (s : State) (obj : Nat) (f : Relay → Relay) : State :=
  s.modObj obj (fun o => match o.body with
    | .relay b => { o with body := .relay (f b) }
    | _ => o)

/-- The body of a resident relay. -/
def State.relay (s : State) (obj : Nat) : Option Relay :=
  match s.obj obj with
  | some o => match o.body with
    | .relay r => some r
    | _ => none
  | none => none

/-- A wait slot of a position; none when FREE (R84). -/
def State.slot (s : State) (p i : Nat) : Option SlotRec := tget none s.slots (8 * p + i)

/-- Write a wait slot. -/
def State.setSlot (s : State) (p i : Nat) (r : Option SlotRec) : State :=
  { s with slots := tset none s.slots (8 * p + i) r }

/-- A response entry's key. -/
def EntryId.key (e : EntryId) : Nat := (e.win.num * 768 + e.pos) * 4 + e.t

/-- A response entry. -/
def State.entry (s : State) (e : EntryId) : Entry := tget Entry.empty s.entries e.key

/-- Change a response entry. -/
def State.modEntry (s : State) (e : EntryId) (f : Entry → Entry) : State :=
  { s with entries := tmod Entry.empty s.entries e.key f }

/-- A position's response lanes with nothing in them. -/
def Lanes.empty : Lanes := { d := none, l := none, queue := [] }

/-- A position's response lanes. -/
def State.lane (s : State) (p : Nat) : Lanes := tget Lanes.empty s.lanes p

/-- Change a position's response lanes. -/
def State.modLane (s : State) (p : Nat) (f : Lanes → Lanes) : State :=
  { s with lanes := tmod Lanes.empty s.lanes p f }

/-- The leaf of a position with nothing bound or ready: slot 7 counts as bound at all times (R89). -/
def Leaf.low : Leaf := { ready := 0, bound := 0x80 }

/-- A position's leaf. -/
def State.leaf (s : State) (p : Nat) : Leaf := tget Leaf.low s.leaves p

/-- Change a position's leaf. -/
def State.modLeaf (s : State) (p : Nat) (f : Leaf → Leaf) : State :=
  { s with leaves := tmod Leaf.low s.leaves p f }

/-- A position's wake line: a ready bit of a bound slot is set (R35). -/
def State.wakeLine (s : State) (p : Nat) : Bool := (s.leaf p).ready &&& (s.leaf p).bound != 0

/-- A notice queue with nothing in it. -/
def NoteQ.empty : NoteQ := { words := [], overflow := 0 }

/-- A position's notice queue. -/
def State.noteQ (s : State) (p : Nat) : NoteQ := tget NoteQ.empty s.notes p

/-- The waiting operations of an object, in order. -/
def State.waiters (s : State) (obj : Nat) : List Waiter := tget [] s.waitq obj

/-- Write the waiting operations of an object. -/
def State.setWaiters (s : State) (obj : Nat) (l : List Waiter) : State := { s with waitq := tset [] s.waitq obj l }

/-- Record something that leaves the block (log 5). -/
def State.emit (s : State) (o : Out) : State := { s with out := o :: s.out }

/-- Leave work for the end of the step. -/
def State.work (s : State) (w : Work) : State := { s with todo := s.todo ++ [w] }

/-- Work waits for something outside the seam, once. -/
def State.park (s : State) (x : WaitOn) (w : Work) : State :=
  if s.onHold.contains (x, w) then s else { s with onHold := s.onHold ++ [(x, w)] }

/-- What waited for something goes on, in the order in which it waited. -/
def State.unpark (s : State) (x : WaitOn) : State :=
  { s with onHold := s.onHold.filter (fun y => y.1 != x), todo := s.todo ++ (s.onHold.filter (fun y => y.1 == x)).map Prod.snd }

/-! ### Block codes (Table 12.2) -/

/-- SEAM. -/ def bSEAM : Nat := 0
/-- TCU. -/ def bTCU : Nat := 1
/-- IML. -/ def bIML : Nat := 2
/-- REP. -/ def bREP : Nat := 3
/-- A file's block. -/ def bFIL (f : Nat) : Nat := 4 + f
/-- A wing's SEQ block. -/ def bSEQ (w : Wing) : Nat := 12 + w.num
/-- A wing's CMB block. -/ def bCMB (w : Wing) : Nat := 14 + w.num
/-- A wing's ING block. -/ def bING (w : Wing) : Nat := 16 + w.num
/-- A wing's WAKE block. -/ def bWAKE (w : Wing) : Nat := 18 + w.num
/-- A Shaut port's block. -/ def bSHP (k : Nat) : Nat := 20 + k
/-- TUN. -/ def bTUN : Nat := 36

/-- The wing whose clock a block runs on; none for SEAM, TCU, IML and REP (R344). -/
def blkWing (b : Nat) : Option Wing :=
  if b < 4 then none
  else if b < 12 then some (wingOfFile (b - 4))
  else if b < 20 then some (wingOfBit (b % 2 == 1))
  else if b < 36 then some (shpWing (b - 20))
  else some .k

/-! ### Trace records and performance counters -/

/-- Count `n` occurrences of a performance event (R404). -/
def State.perfN (s : State) (code n : Nat) : State :=
  { s with trace := { s.trace with
      pc := each (fun i pc => if tget 0 s.trace.pcSel i = code then tmod 0 pc i (fun x => satAdd 0xFFFFFFFF x n) else pc)
              [0, 1, 2, 3] s.trace.pc } }

/-- Count one occurrence of a performance event (R404). -/
def State.perf (s : State) (code : Nat) : State := s.perfN code 1

/-- Put a record at an index of the trace buffer: before those of the same CLK_AON cycle whose source code is higher (R402). -/
def placeRec (r : TraceRec) : Nat → Nat → Table (Option TraceRec) → Table (Option TraceRec)
  | 0, i, l => tset none l i (some r)
  | n + 1, i, l =>
    match tget none l ((i + 4095) % 4096) with
    | some y =>
      if y.time / 20 = r.time / 20 ∧ r.blk < y.blk then placeRec r n ((i + 4095) % 4096) (tset none l i (some y))
      else tset none l i (some r)
    | none => tset none l i (some r)

/-- Write one record into the trace buffer (R402). -/
def Trace.record (t : Trace) (r : TraceRec) : Trace :=
  if t.stopped then { t with dropped := sat 0xFFF t.dropped }
  else
    let full := t.next == 4095
    let t3 := { t with
      recs := placeRec r 4095 t.next t.recs, next := (t.next + 1) % 4096, wrapped := t.wrapped || t.lapped
      lapped := t.lapped || full, stopped := full && t.ctl.getLsbD 30 }
    match t.trig with
    | some n => if n ≤ 1 then { t3 with stopped := true, trig := some 0 } else { t3 with trig := some (n - 1) }
    | none => if r.cls == 7 && t.ctl.getLsbD 29 then { t3 with trig := some 2048 } else t3

/-- A trace event (R402): recorded while ENABLE is set, its class enabled, the object filter passes, and the block's wing
is ACTIVE. -/
def State.event (s : State) (cls blk aux obj gen : Nat) : State :=
  let t := s.trace
  let filt := (t.ctl.extractLsb' 0 20).toNat
  if t.ctl.getLsbD 31 && t.ctl.getLsbD (20 + cls - 1) && (decide (5 ≤ cls) || filt == 0 || filt == obj) &&
      (blkWing blk).all (fun w => s.active w) then
    { s with trace := t.record { time := s.now, cls := cls, blk := blk, aux := aux, og := obj + 2 ^ 20 * (gen % 4096) } }
  else s

/-! ### Wings: wakes -/

/-- The nominal P-level of a wing (Table 11.12). -/
def State.pnom (s : State) (w : Wing) : Nat := byWing w s.img.power.pnomQ s.img.power.pnomK

/-- The effective P-level: the slower of PNOM and the ceiling; P1 until ALM_READY (R308). -/
def State.effective (s : State) (w : Wing) : Nat := if s.ready then hi (s.pnom w) (s.pwr w).ceil else 1

/-- A wake is raised (R402): its record names the position, for the sources that have one (Table 11.11). -/
def State.wakeEvent (s : State) (source detail : Nat) : State :=
  s.event 5 bTCU (if source = 1 ∨ source = 2 ∨ source = 4 ∨ source = 8 then detail else 0) 0 0

/-- A power state is entered (R402). -/
def State.stateEvent (s : State) (code : Nat) : State := s.event 6 bTCU code 0 0

/-- Begin an exit (R322): the last-wake record is written and the regulator step starts at the effective level. -/
def State.startExit (s : State) (w : Wing) (from_ : PState) (r : WakeRec) : State :=
  (s.modPwr w (fun p => { p with
    state := .exiting, exitFrom := from_, exitAt := s.now, reqAt := s.now, hand := .reg, lateExit := false, regEn := true
    regLvl := s.effective w, target := s.effective w, lastWake := some r })).stateEvent 5

/-- A further wake raised in the CLK_AON cycle of the recorded one: the record names the lower code (R326). -/
def Pwr.sameCycle (p : Pwr) (source detail now : Nat) : Pwr :=
  match p.lastWake with
  | some r => if r.time / 20 = now / 20 ∧ source < r.source then
      { p with lastWake := some { r with source := source, detail := detail }
               wakePend := p.wakePend.map (fun x => (source, detail, x.2.2)) } else p
  | none => p

/-- Raise a wake (R312, R321, R326): an IDLE wing starts its exit; an entering wing keeps the wake for its next abort
point; an adjourned wing starts an exit, and deepening is abandoned (R320); a wake raised during an exit joins it. -/
def State.wake (s : State) (w : Wing) (source detail : Nat) : State :=
  let p := s.pwr w
  let rec_ : WakeRec := { source := source, state := p.state, ap := 7, detail := detail, exit := 0, time := s.now }
  match p.state with
  | .idle =>
    ((s.modPwr w (fun p => { p with state := .exiting, exitFrom := .idle, exitAt := s.now })).wakeEvent source detail).stateEvent 5
  | .entering =>
    match p.wakePend with
    | some _ => s.modPwr w (fun p => p.sameCycle source detail s.now)
    | none =>
      (s.modPwr w (fun p => { p with wakePend := some (source, detail, s.now), lastWake := some rec_ })).wakeEvent source detail
  | .adjourned =>
    let s1 : State := { s with pwrc := { s.pwrc with announcing := false } }
    (s1.wakeEvent source detail).startExit w .adjourned rec_
  | .deep => (s.wakeEvent source detail).startExit w .deep rec_
  | .exiting => if p.exitFrom = .idle then s else s.modPwr w (fun p => p.sameCycle source detail s.now)
  | _ => s

/-- Raise a wake for a wing that is not ACTIVE. -/
def State.wakeIfDown (s : State) (w : Wing) (source detail : Nat) : State :=
  if s.active w then s else s.wake w source detail

/-- Is a block in its safe state (R337)? -/
def State.contained (s : State) (b : Nat) : Bool :=
  match (s.blk b).fstate with
  | .contained => true
  | .reload => true
  | _ => false

/-- Is a file contained (R338)? -/
def State.fileContained (s : State) (obj : Nat) : Bool := s.contained (bFIL (fileOf obj))

/-! ### Wake beats -/

/-- Send one beat on a branch of a wing's bus (R88), unless the wing's WAKE block is contained (Table 12.5). -/
def State.beat (s : State) (w : Wing) (branch : Nat) (t : BeatType) (slot : Nat) (mask : BitVec 48) : State :=
  if s.contained (bWAKE w) then s
  else s.modWing w (fun x => { x with beats := x.beats ++ [(branch, encodeBeat t (BitVec.ofNat 3 slot) mask)] })

/-- Send one position's beat. -/
def State.beat1 (s : State) (w : Wing) (p : Nat) (t : BeatType) (slot : Nat) : State :=
  s.beat w (portOf p) t slot (BitVec.twoPow 48 (p % 48))

/-- The MASK of the positions of one branch in a list (R88). -/
def branchMask (k : Nat) : List Nat → BitVec 48
  | [] => 0
  | p :: t => if portOf p = k then BitVec.twoPow 48 (p % 48) ||| branchMask k t else branchMask k t

/-- Send the SET beats of one event: ascending slot, one beat per branch (R35, R89). -/
def State.setBeats (s : State) (w : Wing) (l : List (Nat × Nat)) : State :=
  each (fun i s =>
    let ps := (l.filter (fun x => x.2 == i)).map Prod.fst
    match ps with
    | [] => s
    | _ => each (fun k s => let m := branchMask k ps; if m = 0 then s else s.beat w k .set i m) (List.range 16) s)
    (List.range 8) s

/-- Does a position hold a granted hold (R271)? -/
def State.holdsHold (s : State) (p : Nat) : Bool :=
  s.holds.recs.any (fun h => h.who == HoldBy.pos p && h.granted.isSome)

/-- Send SET beats for completions on slots 0 to 6, withholding them during a forced hold from every position that holds
no granted hold (R271), and behind beats that are still withheld. -/
def State.announce (s : State) (w : Wing) (l : List (Nat × Nat)) : State :=
  if s.holds.forced then
    let now := l.filter (fun x => s.holdsHold x.1)
    let later := l.filter (fun x => !s.holdsHold x.1)
    (s.modWing w (fun x => { x with withheld := x.withheld ++ later })).setBeats w now
  else if (s.wing w).withheld.isEmpty then s.setBeats w l
  else s.modWing w (fun x => { x with withheld := x.withheld ++ l })

/-! ### Quotas (R112) -/

/-- The key of a wing and domain. -/
def wd (w : Wing) (d : Nat) : Nat := 1024 * w.num + d

/-- No use. -/
def Use.zero : Use := { objs := 0, acc := 0, slots := 0, ops := 0 }

/-- A domain's use in a wing. -/
def State.useOf (s : State) (w : Wing) (d : Nat) : Use := tget Use.zero s.use (wd w d)

/-- Change a domain's use in a wing. -/
def State.modUse (s : State) (w : Wing) (d : Nat) (f : Use → Use) : State :=
  { s with use := tmod Use.zero s.use (wd w d) f }

/-- Take an operation-table entry and charge it as an operation in flight (R112). -/
def State.takeOp (s : State) (w : Wing) (d : Nat) : State :=
  (s.modUse w d (fun u => { u with ops := u.ops + 1 })).modWing w (fun x => { x with opsTotal := x.opsTotal + 1 })

/-- Return an operation-table entry. -/
def State.dropOp (s : State) (w : Wing) (d : Nat) : State :=
  (s.modUse w d (fun u => { u with ops := u.ops - 1 })).modWing w (fun x => { x with opsTotal := x.opsTotal - 1 })

/-- Is an operation-table entry free in a wing? 4,096 less 512 level contexts (R232). -/
def State.opFree (s : State) (w : Wing) : Bool := decide ((s.wing w).opsTotal < 3584)

/-- Is an entry free while `n` that are back in the table still count (R113, R364)? -/
def State.opFreeWith (s : State) (n : Nat) (w : Wing) : Bool := decide ((s.wing w).opsTotal + n < 3584)

/-- Does the domain's OPS quota allow one more operation (R112)? -/
def State.opsOk (s : State) (w : Wing) (d : Nat) : Bool :=
  decide ((s.useOf w d).ops < byWing w (s.domain d).opsQ (s.domain d).opsK)

/-- Does the OPS quota allow one more operation while `n` that have ended still count (R113)? -/
def State.opsOkWith (s : State) (n : Nat) (w : Wing) (d : Nat) : Bool :=
  decide ((s.useOf w d).ops + n < byWing w (s.domain d).opsQ (s.domain d).opsK)

/-- Does the domain's wait-slot quota allow one more slot (R112)? -/
def State.slotsOk (s : State) (w : Wing) (d : Nat) : Bool :=
  decide ((s.useOf w d).slots < byWing w (s.domain d).wslotQ (s.domain d).wslotK)

/-- Does the domain's object quota allow one more object or grant (R104, R110)? -/
def State.objsOk (s : State) (w : Wing) (d : Nat) : Bool :=
  decide ((s.useOf w d).objs < byWing w (s.domain d).objQ (s.domain d).objK)

/-- Does the domain's accumulator quota allow `n` more accumulators of 256 bytes (R104)? -/
def State.accOk (s : State) (w : Wing) (d n : Nat) : Bool :=
  decide ((s.useOf w d).acc + 256 * n ≤ byWing w (s.domain d).accQ (s.domain d).accK)

/-! ### Pools (R105) -/

/-- The smallest power of two at or above `n`, starting at `p`, with fuel. -/
def pow2From : Nat → Nat → Nat → Nat
  | 0, p, _ => p
  | f + 1, p, n => if n ≤ p then p else pow2From f (2 * p) n

/-- The block size that holds `n` member entries: at least 16 (R105). -/
def memberSize (n : Nat) : Nat := pow2From 20 16 n

/-- The block size that holds `n` accumulators: at least one (R105). -/
def accSize (n : Nat) : Nat := pow2From 20 1 n

/-- Is the block at `base` of `size` units free in a wing's pool? -/
def blockFree (l : List Block) (w : Wing) (base size : Nat) : Bool :=
  l.all (fun b => !(b.wing == w) || decide (b.base + b.size ≤ base) || decide (base + size ≤ b.base))

/-- The first free aligned block of a size at or after the `i`-th, of `n` blocks left to try. -/
def findBlock (l : List Block) (w : Wing) (size : Nat) : Nat → Nat → Option Nat
  | 0, _ => none
  | n + 1, i => if blockFree l w (i * size) size then some (i * size) else findBlock l w size n (i + 1)

/-- Where an allocation of a size goes: FREE VALUE among the free aligned blocks (R105, log 4); none when no free block
of the size exists. -/
def pickBlock (l : List Block) (w : Wing) (size units draw : Nat) : Option Nat :=
  match findBlock l w size (units / size) 0 with
  | none => none
  | some b =>
    let want := Config.freePick draw % (units / size) * size
    some (if blockFree l w want size then want else b)

/-- Allocate member entries (R105); no block for none. -/
def State.allocMembers (s : State) (w : Wing) (n : Nat) : Option (Nat × State) :=
  if n = 0 then some (0, s)
  else match pickBlock s.mblocks w (memberSize n) 131072 s.free with
    | none => none
    | some b => some (b, { s with free := s.free + 1,
                                  mblocks := { wing := w, base := b, size := memberSize n, lost := false } :: s.mblocks })

/-- The accumulators of a wing that are in use or withdrawn, level contexts apart. A withdrawn one counts once, also while
its holder keeps it (Table 13.2). -/
def State.accsUsed (s : State) (w : Wing) : Nat :=
  let l := s.ablocks.filter (fun b => b.wing == w)
  (l.filter (fun b => !b.lost || blockFree (l.filter (fun c => !c.lost)) w b.base b.size)).foldl (fun n b => n + b.size) 0

/-- Allocate accumulators (R105); the pool leaves 3,584 beside the level contexts (R232). -/
def State.allocAccs (s : State) (w : Wing) (n : Nat) : Option (Nat × State) :=
  if n = 0 then some (0, s)
  else if s.accsUsed w + accSize n > 3584 then none
  else match pickBlock s.ablocks w (accSize n) 4096 s.free with
    | none => none
    | some b => some (b, { s with free := s.free + 1,
                                  ablocks := { wing := w, base := b, size := accSize n, lost := false } :: s.ablocks })

/-- Return the member block at a base (R108). -/
def State.freeMembers (s : State) (w : Wing) (base n : Nat) : State :=
  if n = 0 then s
  else { s with mblocks := s.mblocks.filter (fun b => !(b.wing == w && b.base == base && !b.lost)) }

/-- The key of an accumulator. -/
def accKey (w : Wing) (a : Nat) : Nat := 4096 * w.num + a

/-- Zero and return the accumulator block at a base (R108). -/
def State.freeAccs (s : State) (w : Wing) (base n : Nat) : State :=
  if n = 0 then s
  else { s with
    accs := each (fun i t => tset 0 t (accKey w (base + i)) 0) (List.range n) s.accs
    ablocks := s.ablocks.filter (fun b => !(b.wing == w && b.base == base && !b.lost)) }

/-- An accumulator's 256 bytes. -/
def State.acc (s : State) (w : Wing) (a : Nat) : BitVec 2048 := tget 0 s.accs (accKey w a)

/-- Write an accumulator. -/
def State.setAcc (s : State) (w : Wing) (a : Nat) (x : BitVec 2048) : State :=
  { s with accs := tset 0 s.accs (accKey w a) x }

/-! ### The seam's holding buffers (R31 to R33) -/

/-- A command that waits in the seam's holding buffer for a wing. -/
def Held.inBuffer (h : Held) (into : Wing) : Bool :=
  match h.place with
  | .seam w stalled => w == into && !stalled
  | _ => false

/-- Is the way into a wing through the seam open: the wing ACTIVE, and the SEAM block not contained (R31, R32, Table 12.5)? -/
def State.seamOpen (s : State) (into : Wing) : Bool := s.active into && !s.contained bSEAM

/-- Units held in the seam for a wing (SEAM_OCC): commands, notices, frames, ply fetches and other work, and lock directory
updates while the way is shut (R168). -/
def State.seamHeld (s : State) (into : Wing) : Nat :=
  (s.held.filter (fun h => h.inBuffer into)).length + (s.seam.filter (fun u => u.into == into && !u.stalled)).length +
    (if s.seamOpen into then 0 else (s.dirLag.filter (fun u => u.into == into && !u.stalled)).length)

/-- The highest occupancy of the seam towards a wing has been at least `n` (SEAM_OCC). -/
def Trace.peak (t : Trace) (into : Wing) (n : Nat) : Trace :=
  match into with
  | .q => { t with peakQ := max t.peakQ n }
  | .k => { t with peakK := max t.peakK n }

/-- For how long a wing has rested: no vote, and quiescent (R318). -/
def Trace.calm (t : Trace) : Wing → Nat
  | .q => t.calmQ
  | .k => t.calmK

/-- Set for how long a wing has rested. -/
def Trace.setCalm (t : Trace) (w : Wing) (n : Nat) : Trace :=
  match w with
  | .q => { t with calmQ := n }
  | .k => { t with calmK := n }

/-- Work comes to a wing or its votes change: its 64 cycles of rest start again (R318). -/
def State.stir (s : State) (w : Wing) : State := { s with trace := s.trace.setCalm w 0 }

/-- A unit crosses the seam into a wing at once: it is one more than those held while it crosses (R31, log 30). -/
def State.crossing (s : State) (into : Wing) : State :=
  { s with trace := (s.trace.peak into (Nat.min 32 (s.seamHeld into + 1))).setCalm into 0 }

/-- Does the seam's holding buffer for a wing have room (R33)? -/
def State.seamRoom (s : State) (w : Wing) : Bool := decide (s.seamHeld w < 32)

/-- A unit comes to the seam for a wing: it is held in the buffer, or stalls before it while it is full (R33). -/
def State.toSeam (s : State) (w : Wing) (x : Work) : State :=
  { s with seam := s.seam ++ [{ into := w, n := s.seamNext, stalled := !s.seamRoom w, item := x }], seamNext := s.seamNext + 1 }

/-- Put work with its place in the order in which it was held. -/
def insertHeld (x : Nat × Work) : List (Nat × Work) → List (Nat × Work)
  | [] => [x]
  | y :: t => if x.1 < y.1 then x :: y :: t else y :: insertHeld x t

/-- The units that wait at the seam for a wing enter it, commands and others in the order in which they were held (R32). -/
def State.seamGo (s : State) (w : Wing) : State :=
  let mine (h : Held) : Bool := match h.place with
    | .seam v _ => v == w
    | _ => false
  let cmds := (s.held.filter mine).map (fun h => (h.n, Work.rerun h))
  let all := (s.seam.filter (fun u => u.into == w)).foldl (fun l u => insertHeld (u.n, u.item) l)
    (cmds.foldl (fun l x => insertHeld x l) [])
  { s with held := s.held.filter (fun h => !mine h), seam := s.seam.filter (fun u => u.into != w)
           todo := s.todo ++ all.map Prod.snd }

/-- The place of a command that comes to the seam for a wing. -/
def State.seamPlace (s : State) (w : Wing) : Place := .seam w (!s.seamRoom w)

/-! ### Lock directory (R168) -/

/-- Remove an object from a position's directory entries. -/
def dirDrop (l : List (Nat × DirKind)) (obj : Nat) : List (Nat × DirKind) := l.filter (fun x => x.1 != obj)

/-- Apply one update to one copy of the lock directory. -/
def dirApply (t : Table (List (Nat × DirKind))) (w : Wing) (pos obj : Nat) (k : Option DirKind) :
    Table (List (Nat × DirKind)) :=
  tmod [] t (wd w pos) (fun l => match k with
    | some k => dirDrop l obj ++ [(obj, k)]
    | none => dirDrop l obj)

/-- A lock that a reset position no longer holds needs no orphaning (R172). -/
def ResetRec.drop (r : ResetRec) (pos obj : Nat) : ResetRec :=
  if r.pos = pos then { r with locks := r.locks.filter (fun x => x != obj) } else r

/-- Update the lock directory: the lock's wing at once, the other wing's copy when the update has crossed (R168). `byWalk` says
that a second stalemate walk makes the update (R170). -/
def State.dirSetBy (s : State) (byWalk : Bool) (pos obj : Nat) (k : Option DirKind) : State :=
  let w := wingOf obj
  { s with
    lockDir := dirApply s.lockDir w pos obj k
    dirLag := s.dirLag ++ [{ into := w.other, pos := pos, obj := obj, kind := k, byWalk := byWalk
                             stalled := !s.seamOpen w.other && !s.seamRoom w.other }]
    resets := if k.isNone then s.resets.map (fun r => r.drop pos obj) else s.resets }

/-- Update the lock directory for a command or an event other than a second stalemate walk. -/
def State.dirSet (s : State) (pos obj : Nat) (k : Option DirKind) : State := s.dirSetBy false pos obj k

/-- Let the lock directory updates for an ACTIVE wing that satisfy a predicate cross the seam to that wing's copy, unless no unit
crosses (Table 12.5). -/
def State.dirCrossIf (s : State) (p : DirUpd → Bool) : State :=
  let due := s.dirLag.filter (fun u => s.seamOpen u.into && p u)
  let s1 : State := { s with
    lockDir := each (fun u t => dirApply t u.into u.pos u.obj u.kind) due s.lockDir
    dirLag := s.dirLag.filter (fun u => !(s.seamOpen u.into && p u)) }
  each (fun u s => s.crossing u.into) due s1

/-- Let every lock directory update for an ACTIVE wing reach that wing's copy. -/
def State.dirCross (s : State) : State := s.dirCrossIf (fun _ => true)

/-- Let the updates reach the other copy that a second stalemate walk sees: all but the removals that second walks made in these
cycles (R170), unless the position has since queued for the lock again. -/
def State.dirCrossWalk (s : State) : State :=
  s.dirCrossIf (fun u => !u.byWalk || s.dirLag.any (fun v => !v.byWalk && v.pos == u.pos && v.obj == u.obj))

/-- A position's entries in one wing's copy of the lock directory. -/
def State.dir (s : State) (w : Wing) (pos : Nat) : List (Nat × DirKind) := tget [] s.lockDir (wd w pos)

/-! ### Completions -/

/-- Record the completion of a bound slot (R84): its status and VALUE, and its operation's end (R112). -/
def State.finishSlot (s : State) (p i : Nat) (st : Status) (v : BitVec 51) : State :=
  match s.slot p i with
  | some r =>
    match r.ready with
    | some _ => s
    | none =>
      let s1 := s.setSlot p i (some { r with ready := some (st, v) })
      match r.entry with
      | some _ => s1
      | none => s1.dropOp r.qwing r.dom
  | none => s

/-- Complete one bound slot through a wing's wake builder (R84). -/
def State.complete (s : State) (w : Wing) (p i : Nat) (st : Status) (v : BitVec 51) : State :=
  (s.finishSlot p i st v).announce w [(p, i)]

/-- Complete several slots in one event (R35). -/
def State.completeAll (s : State) (w : Wing) (l : List (Nat × Nat × Status × BitVec 51)) : State :=
  (each (fun x s => s.finishSlot x.1 x.2.1 x.2.2.1 x.2.2.2) l s).announce w (l.map (fun x => (x.1, x.2.1)))

/-- Free a slot (R84): its quota is released and a FREE beat is sent. -/
def State.freeSlot (s : State) (p i : Nat) : State :=
  match s.slot p i with
  | none => s.beat1 (posWing p) p .free i
  | some r =>
    let w := match r.home with
      | .wing w => w
      | .tcu => posWing p
    let s1 := (s.setSlot p i none).modUse r.qwing r.dom (fun u => { u with slots := u.slots - 1 })
    let s2 := match r.ready, r.entry with
      | none, none => s1.dropOp r.qwing r.dom
      | _, _ => s1
    { s2 with wq := { s2.wq with withheld := s2.wq.withheld.filter (fun x => x != (p, i)) }
              wk := { s2.wk with withheld := s2.wk.withheld.filter (fun x => x != (p, i)) } }.beat1 w p .free i

/-- Bind a slot for a command that waits (R84): PENDING's VALUE, the quota, the operation and a BIND beat. -/
def State.bindSlot (s : State) (p i : Nat) (obj : Option Nat) (home : Home) (qw : Wing) (d : Nat) (v : BitVec 51)
    (entry : Option EntryId) : State :=
  let s1 := s.setSlot p i (some { obj := obj, home := home, dom := d, qwing := qw, value := v, entry := entry,
                                  ready := none })
  let s2 := s1.modUse qw d (fun u => { u with slots := u.slots + 1 })
  let s3 := match entry with
    | none => s2.takeOp qw d
    | some _ => s2
  let w := match home with
    | .wing w => w
    | .tcu => posWing p
  s3.beat1 w p .bind i

/-- Put a waiter behind every waiter of equal or higher priority (R162). -/
def enqueue (l : List Waiter) (x : Waiter) : List Waiter :=
  match l with
  | [] => [x]
  | y :: t => if y.prio < x.prio then x :: y :: t else y :: enqueue t x

/-- Remove a position's waiter of a slot from an object's queue. -/
def dequeue (l : List Waiter) (p i : Nat) : List Waiter := l.filter (fun x => !(x.pos == p && x.slot == i))

/-- The slots of waiters that satisfy a predicate. -/
def slotsOf (l : List Waiter) : List (Nat × Nat) := l.map (fun x => (x.pos, x.slot))

/-! ### Chips of the board -/

/-- The chip at a seat of this board. -/
def State.boardChip (s : State) (k : Nat) : BitVec 16 := BitVec.ofNat 16 (s.iml.chip.toNat / 16 * 16 + k % 16)

/-- A link leaves COLD at this end: the peer's announcement has counted as a frame of the peer up to now, or up to the end of its lease
(R283). -/
def State.coldHeard (s : State) (k : Nat) : State :=
  s.modChip (s.boardChip k) (fun c =>
    if c.heard then { c with last := Nat.max c.last (Nat.min s.now c.coldTill), coldTill := 0 } else c)

/-- A port is about to leave the state in which it is: a COLD link leaves COLD (R283). -/
def State.offCold (s : State) (k : Nat) : State := if (s.port k).state = .cold then s.coldHeard k else s

/-! ### Fault sources and containment -/

/-- Sources that set in a block, those of Table 12.3, as a mask of its STAT bits with REGFAULT. -/
def implemented (b : Nat) : BitVec 32 :=
  if b = 0 then 0x80000003
  else if b = 1 then 0x80000FFF
  else if b = 2 then 0x8000000F
  else if b = 3 then 0x8000001F
  else if b < 12 then 0x8000007F
  else if b < 14 then 0x80000007
  else if b < 16 then 0x8000003F
  else if b < 18 then 0x80000007
  else if b < 20 then 0x80000003
  else if b < 36 then 0x80000007
  else 0x8000000F

/-- Is it a lock request? -/
def WaitKind.isLock : WaitKind → Bool
  | .lock _ => true
  | _ => false

/-- A LOCK_TRY that waits for the arbiter's answer, as a command that waits for its file (R338). -/
def GlockReq.rerun (g : GlockReq) : Option Work :=
  g.try_.map (fun e => Work.rerun
    { mute := g.mute, bad := false, charged := false, merged := false, mates := (0, 0), n := 0, came := 0, place := .file g.obj, req := .win e, op := .lockTry, pos := g.pos,
      w := { slot := 0, prio := 0, tag := g.tag, wait := false, eager := false, staged := false, notify := false,
             obj := BitVec.ofNat 20 g.obj, arg := 0, data := 0 } })

/-- Every bound slot on an object of file `f` becomes READY with ABORTED and the object (R338). -/
def State.abortFile (s : State) (f : Nat) : State :=
  let hit := s.slots.filter (fun x => match x.2 with
    | some r => r.ready.isNone && (match r.obj with
      | some o => fileOf o == f
      | none => false)
    | none => false)
  let l := hit.map (fun x => (x.1 / 8, x.1 % 8, Status.aborted,
    match x.2 with
    | some r => BitVec.ofNat 51 (r.obj.getD 0)
    | none => 0))
  let s1 := s.completeAll (wingOfFile f) l
  let dirOff := s1.waitq.foldl (fun acc x =>
    if fileOf x.1 == f then acc ++ (x.2.filter (fun y => y.kind.isLock)).map (fun y => (y.pos, x.1)) else acc) []
  let s2 := each (fun (x : Nat × Nat) s => s.dirSet x.1 x.2 none) dirOff s1
  let waits (h : Held) : Bool := match h.place with
    | .file o => fileOf o == f
    | .aside => fileOf h.w.obj.toNat == f
    | .caught b _ => b == bFIL f
    | _ => false
  { s2 with
    waitq := s2.waitq.filter (fun x => fileOf x.1 != f)
    glockReqs := s2.glockReqs.filter (fun g => fileOf g.obj != f)
    held := s2.held.filter (fun h => !waits h)
    todo := s2.todo ++ (s2.held.filter waits).map (fun h => Work.rerun h) ++
      (s2.glockReqs.filter (fun g => fileOf g.obj == f)).filterMap GlockReq.rerun }

/-- Stop a sequencer (R203): a granted hold ends and a pending request is withdrawn. -/
def State.dropSeqHold (s : State) (k : Nat) : State :=
  if s.holds.recs.any (fun h => h.who == HoldBy.seq k) then
    ({ s with holds := { s.holds with recs := s.holds.recs.filter (fun h => h.who != HoldBy.seq k) } }).work .holdsEnded
  else s

/-- The operation in flight of a running sequencer ends (R212). -/
def State.dropSeqOp (s : State) (k : Nat) : State :=
  match (s.img.seqs[k]?) with
  | some e => s.dropOp (seqWing k) e.dom
  | none => s

/-- Is a sequencer running: WAITING, ACTING or STOPPING (R213)? -/
def Seq.running (q : Seq) : Bool :=
  match q.state with
  | .waiting => true
  | .acting => true
  | .stopping => true
  | _ => false

/-- Does an action's answer let the ply go on (R207)? -/
def acceptedAnswer (st : Status) : Bool :=
  match st with
  | .ok => true
  | .released => true
  | .granted => true
  | _ => false

/-- Halt a running sequencer with a reason (R217). A containment records a refused answer that is already in. -/
def State.haltSeq (s : State) (k : Nat) (r : SeqReason) (obj aslot st : Nat) : State :=
  if (s.seq k).running then
    let bad := if r = .contained then (s.seq k).bad.or ((s.seq k).answers.find? (fun x => !acceptedAnswer x.2.2)) else none
    let (hs, ho, hst) := match bad with
      | some (a, o, st) => (a, o, st.code.toNat)
      | none => (aslot, obj, st)
    ((((s.modSeq k (fun q => { q with
        state := .halted, reason := r, haltObj := ho, haltSlot := hs, haltSt := hst
        pageWait := false, met := false, checking := false, waitingActs := 0, answers := [], bad := none, ahead := [] })).dropSeqHold
        k).dropSeqOp k).event 8 (bSEQ (seqWing k)) 0 0 0)
  else s

/-- An action's answer reaches its sequencer (R207, R217): after a containment only a refused one is recorded. -/
def State.seqAnswer (s : State) (k a obj : Nat) (st : Status) : State :=
  s.modSeq k (fun q =>
    if q.running then { q with answers := q.answers ++ [(a, obj, st)] }
    else if q.state = .halted ∧ q.reason = .contained ∧ q.haltSt = 0 ∧ !acceptedAnswer st then
      { q with haltSlot := a, haltObj := obj, haltSt := st.code.toNat }
    else q)

/-- Set bound and ready of all eight slots at every leaf (R90, Table 12.5). -/
def State.flushLeaves (s : State) : State :=
  each (fun p s => s.modLeaf p (fun _ => { ready := 0xFF, bound := 0xFF })) (List.range 768) s

/-- The effect of entering the safe state (Table 12.5) beyond what each operation reads from FSTATE. -/
def State.safeState (s : State) (b : Nat) : State :=
  if b = bTCU then ((s.wakeIfDown .q 9 0).wakeIfDown .k 9 0).work .handover
  else if 4 ≤ b ∧ b < 12 then s.abortFile (b - 4)
  else if b = 12 ∨ b = 13 then
    each (fun k s => if seqWing k == wingOfBit (b == 13) then s.haltSeq k .contained 0 0 0 else s) (List.range 32) s
  else if b = bREP then (s.unpark (.row .q)).unpark (.row .k)
  else if b = 14 ∨ b = 15 ∨ b = bTUN then s.work .handover
  else if b = 18 ∨ b = 19 then (s.modWing (wingOfBit (b == 19)) (fun x => { x with beats := [] })).flushLeaves
  else if 20 ≤ b ∧ b < 36 then
    (s.offCold (b - 20)).modPort (b - 20) (fun p => { p with
      state := if p.loop.isSome then p.state else .fenced, margin := none, quiescing := false, quiesced := false, peerQuiesce := false, await := none,
      coldWish := false, coldMine := false, onWake := false })
  else s

/-- Contain a block (R337). A source that sets while the block is contained changes neither CAUSE nor the safe state. A block
at its recovery limit does not recover by itself again: its EXIT reads 0 (R342). -/
def State.contain (s : State) (b cause : Nat) : State :=
  if s.contained b then s
  else (s.modBlk b (fun x => { x with
    fstate := .contained, cause := cause, contCnt := sat 0xFFFF x.contCnt, graceEnd := 0
    exitMan := x.exitMan || decide (x.rlimit ≤ x.rcount) })).safeState b

/-- The severity of a source (R329); IML HALT is fixed at NOTIFY, and REGFAULT always acts. -/
def State.severity (s : State) (b src : Nat) : Nat :=
  if src = 31 then 3 else if b = bIML ∧ src = 3 then 2 else tget 0 (s.blk b).sevs src

/-- Does a source of a block condition still hold (R330)? -/
def State.condTrue (s : State) (b src : Nat) : Bool := s.conds.any (fun x => x == (b, src))

/-- Set a source's STAT bit with a fresh stamp, and mark the stamps that have aged (R344). -/
def Blk.setBit (x : Blk) (src : Nat) : Blk :=
  let n : BitVec 16 := x.sqn + 1
  let old := x.stamps.filter (fun y => y.1 != src && decide (16384 ≤ (n.toNat + 65536 - y.2) % 65536))
  let aged := old.foldl (fun (a : BitVec 32) y => a ||| BitVec.twoPow 32 y.1) x.aged
  { x with stat := x.stat ||| BitVec.twoPow 32 src, sqn := n, stamps := tset 0 x.stamps src n.toNat,
           aged := aged &&& ~~~ (BitVec.twoPow 32 src) }

/-- The quiet period of AUTO exit starts again at the setting of a CONTAIN or ESCALATE source (R342). -/
def Blk.severe (x : Blk) (yes : Bool) (now : Nat) : Blk := if yes then { x with lastSet := now } else x

/-- A source of an ESCALATE severity sets: GRACE starts, or its timer takes the smaller time (R339). -/
def State.startGrace (s : State) (b src : Nat) : State :=
  let g := tget 0 (s.blk b).graces src * 1000
  match (s.blk b).fstate with
  | .normal => s.modBlk b (fun x => { x with fstate := .grace, graceEnd := s.now + g, graceBy := src })
  | .grace => if s.now + g < (s.blk b).graceEnd then s.modBlk b (fun x => { x with graceEnd := s.now + g, graceBy := src })
              else s
  | _ => s

/-- The setting of a source in its block's cycle (R329, R344). -/
def State.setSource (s : State) (b src : Nat) : State :=
  let sev := s.severity b src
  if sev = 0 then s
  else
    let s1 := (s.modBlk b (fun x => (x.setBit src).severe (3 ≤ sev) s.now)).event 7 b src 0 0
    if sev = 3 then s1.contain b src
    else if sev = 4 then s1.startGrace b src
    else s1

/-- Raise a fault source (R329, R330): sources act from ALM_READY, IML HALT on entry to HALTED. An event of a block
whose wing clock does not run is latched until it does (R344). -/
def State.raise (s : State) (b src : Nat) : State :=
  if !(s.ready || (b == bIML && src == 3)) then s
  else match blkWing b with
    | none => s.setSource b src
    | some w => if s.active w then s.setSource b src
                else s.modWing w (fun x => { x with latched := x.latched ++ [(b, src)] })

/-- A condition source becomes true (R330). -/
def State.condOn (s : State) (b src : Nat) : State :=
  if s.condTrue b src then s else ({ s with conds := (b, src) :: s.conds }).raise b src

/-- A condition source becomes false (R330). -/
def State.condOff (s : State) (b src : Nat) : State := { s with conds := s.conds.filter (fun x => x != (b, src)) }

/-! ### Notices (R188 to R190) -/

/-- Do two notices merge: the same kind for the same object, and for HOLDER, GIVER and ORPHAN the same agent (R190)? -/
def Notice.merges : Notice → Notice → Bool
  | .holder o _ a _, .holder o' _ a' _ => o == o' && a == a'
  | .giver o _ a _, .giver o' _ a' _ => o == o' && a == a'
  | .straggler o _ _ _, .straggler o' _ _ _ => o == o'
  | .orphan o a _, .orphan o' a' _ => o == o' && a == a'
  | _, _ => false

/-- Replace the word that a new notice merges with. -/
def mergeNote (n : Notice) : List Notice → List Notice
  | [] => []
  | m :: t => if m.merges n then n :: t else m :: mergeNote n t

/-- Queue a notice word in the position's own wing, merging, appending or dropping it, and set slot 7 (R190). -/
def State.queueNote (s : State) (p : Nat) (n : Notice) : State :=
  let w := posWing p
  let q := s.noteQ p
  if q.words.any (fun m => m.merges n) then
    ({ s with notes := tset NoteQ.empty s.notes p { q with words := mergeNote n q.words } }).beat1 w p .set 7
  else if q.words.length < 7 then
    ({ s with notes := tset NoteQ.empty s.notes p { q with words := q.words ++ [n] } }).beat1 w p .set 7
  else
    (((({ s with notes := tset NoteQ.empty s.notes p { q with overflow := sat 0x7FFF q.overflow } }).modWing w
      (fun x => { x with dropCnt := sat 0xFFFF x.dropCnt, lastPos := p })).raise (bWAKE w) 1)).beat1 w p .set 7

/-- The object of a notice, whose wing it comes from. -/
def Notice.obj : Notice → Nat
  | .holder o _ _ _ => o
  | .giver o _ _ _ => o
  | .straggler o _ _ _ => o
  | .orphan o _ _ => o

/-- A notice, or a bare WAKE when there is no word, reaches the wing of its position (R188, R205); a WAKE action has its
answer. -/
def State.takeNote (s : State) (p : Nat) (n : Option Notice) (by_ : Option (Nat × Nat)) : State :=
  let s1 := match n with
    | some x => s.queueNote p x
    | none => s.beat1 (posWing p) p .set 7
  match by_ with
  | some (k, a) => s1.seqAnswer k a 0 .ok
  | none => s1

/-- Carry a notice or a WAKE from a wing to its position's wing: it waits at the seam, and wakes that wing, while the wing is not
ACTIVE or the seam is contained (R32, R188, Table 12.5). -/
def State.carryNote (s : State) (origin : Wing) (p : Nat) (n : Option Notice) (by_ : Option (Nat × Nat)) : State :=
  let w := posWing p
  if origin == w && s.active w then s.takeNote p n by_
  else if s.seamOpen w then (s.crossing w).takeNote p n by_
  else (s.toSeam w (.note p n by_)).wake w 3 0

/-- A notice for a position (R188). -/
def State.notify (s : State) (p : Nat) (n : Notice) : State := s.carryNote (wingOf n.obj) p (some n) none

/-- A notice to a position and to its SCHED_POS, once when they are the same (R167). -/
def State.notifyBoth (s : State) (p : Nat) (n : Notice) : State :=
  let q := (s.posEnt p).schedPos
  let s1 := s.notify p n
  if q = p then s1 else s1.notify q n

/-! ### Visibility (R99) -/

/-- Does a number lie in an enabled domain's own range (R98)? -/
def State.owns (s : State) (d obj : Nat) : Bool :=
  let e := s.domain d
  e.enabled && decide (e.objBase ≤ obj) && decide (obj < e.objBase + e.objSize)

/-- May a domain use an object number (R99)? -/
def State.mayUse (s : State) (d obj : Nat) : Bool :=
  s.owns d obj || (s.file (fileOf obj)).grants.any (fun g => g == (obj, d))

/-! ### Time -/

/-- Let `dt` ns pass (R247, R248, log 12): the timebase advances, a slew gains or loses 200 ppm of it, lock directory
updates cross (R168), and tempo frames are counted (R404). -/
def State.advance (s : State) (dt : Nat) : State :=
  let y := s.tsync
  let ps := y.frac + dt * 1000 / 5000
  let whole := Nat.min (ps / 1000) y.slew.natAbs
  let now' := if y.slew < 0 then s.now + dt - whole else s.now + dt + whole
  let slew' := if y.slew < 0 then y.slew + whole else y.slew - whole
  let s1 := { s with now := now', tsync := { y with slew := slew', frac := if y.slew = 0 then 0 else ps % 1000 } }
  (s1.perfN 9 (now' / 30 - s.now / 30)).dirCross

/-! ### Cycles -/

/-- The pipe of an object within its file (R19): bit 3 of its number. -/
def pipeOf (obj : Nat) : Nat := obj / 8 % 2

/-- The divider of a P-level from 4.8 GHz (Table 11.1). -/
def plDivider (p : Nat) : Nat := [3, 4, 6, 12].getD p 3

/-- Does a time in ns reach a number of cycles of a wing at its P-level (R307)? -/
def State.cyclesIn (s : State) (w : Wing) (ns n : Nat) : Bool := decide (n * plDivider (s.pwr w).plvl * 5 ≤ ns * 24)

/-! ### Free values -/

/-- Draw a free value below `n` (log 4). -/
def State.draw (s : State) (n : Nat) : Nat × State := (Config.freePick s.free % n, { s with free := s.free + 1 })

end Sys2Proof.Machine
end

