-- ==== Sys2Proof/Machine/Flags.lean ====
section
/-! DEFINITION. State codes, and the VALUEs of responses: arrival and release values, and the VALUE of REFUSED_STATE. -/
namespace Sys2Proof.Machine

/-- The type code of a body (Table 3.4). -/
def Body.typeCode : Body → Nat
  | .barrier _ => 1
  | .sem _ => 2
  | .lock _ => 3
  | .token _ => 4
  | .flag _ _ => 5
  | .ledger _ => 6
  | .relay _ => 7

/-- Is the member live: bound and not resigned (R128)? -/
def Ent.live (e : Ent) : Bool := !e.res

/-- The live members that have not arrived. -/
def Barrier.missing (b : Barrier) : List Ent := b.members.filter (fun e => e.live && !e.arr)

/-- Is the list not yet full (R101)? -/
def Barrier.binding (b : Barrier) : Bool := decide (b.members.length < b.mcount)

/-- The completing states (Table 5.2). -/
def Barrier.completing (b : Barrier) : Bool := b.combining || b.holding || b.parentWait

/-- Does no live member remain (Table 5.2)? -/
def Barrier.vacant (b : Barrier) : Bool := !b.binding && !b.members.any Ent.live

/-- A barrier's state code (Table 5.2). DESIGN CHOICE (log 74): while a granted hold runs and the parent's release is awaited at
the same time (R135), Table 5.2 fits HOLDING and PARENT_WAIT; HOLDING is shown. -/
def Barrier.code (b : Barrier) : Nat :=
  if b.binding then 1
  else if b.combining then 4
  else if b.holding then 5
  else if b.parentWait then 6
  else if b.vacant then 7
  else if b.fallen then 3
  else 2

/-- Is the token's giver list not yet full (R106)? -/
def Token.binding (t : Token) : Bool := decide (t.givers.length < t.gcount)

/-- Is the ledger's consumer list not yet full (R106)? -/
def Ledger.binding (l : Ledger) : Bool := decide (l.consumers.length < l.ccount)

/-- The state code of an amount (Table 6.1): waited, above 0, or 0. -/
def amountCode (n : Nat) (waited : Bool) : Nat := if waited then 4 else if n = 0 then 3 else 2

/-- A relay's state code (Table 8.5); the group's state decides GROUP_DOWN. -/
def State.relayCode (s : State) (r : Relay) : Nat :=
  let g := s.group r.group
  if r.handing then 4
  else if r.inFlight then 3
  else match g.state with
    | .joining => 5
    | .refused => 5
    | .failover => if g.everUp then 2 else 5
    | _ => 2

/-- An object's state code (R101, R159, R231, R255). -/
def State.stateCode (s : State) (obj : Nat) (b : Body) : Nat :=
  let waited := !(s.waiters obj).isEmpty
  match b with
  | .barrier b => b.code
  | .sem n => amountCode n waited
  | .lock l =>
    match l.global with
    | some _ => if l.held then 3 else if l.orphaned then 4 else 5
    | none => if l.held then 3 else if l.orphaned then 4 else 2
  | .token t => if t.binding then 1 else amountCode t.credits waited
  | .flag set _ => if set then 3 else 2
  | .ledger l => if l.faulted then 3 else if l.binding then 1 else 2
  | .relay r => s.relayCode r

/-- VALUE[31:0] of REFUSED_STATE (R159, R231, R255, Table 3.5). -/
def Body.refusedLow : Body → Nat
  | .barrier b => b.gen.toNat
  | .sem n => n
  | .lock _ => 0
  | .token t => t.credits
  | .flag _ n => n.toNat
  | .ledger l => l.low.toNat + 2 ^ 24 * (l.lepoch.toNat % 256)
  | .relay r => r.pgen.toNat

/-- The VALUE of REFUSED_STATE for a command on an object (Table 3.5). -/
def State.refusedValue (s : State) (obj : Nat) : BitVec 51 :=
  match s.obj obj with
  | some o => BitVec.ofNat 51 (o.body.refusedLow % 2 ^ 32 + 2 ^ 32 * s.stateCode obj o.body + 2 ^ 36 * o.body.typeCode)
  | none => 0

/-- A barrier's arrival value (R75). -/
def arrivalValue (gen : BitVec 32) (count : Nat) (advance : Bool) : BitVec 51 :=
  BitVec.ofNat 51 (gen.toNat % 65536 + 2 ^ 16 * (count % 8192) + (if advance then 2 ^ 29 else 0))

/-- A 32-bit word of an accumulator (R142). -/
def accWord (a : BitVec 2048) (i : Nat) : BitVec 32 := a.extractLsb' (32 * i) 32

/-- A 64-bit word of an accumulator (R138). -/
def accDword (a : BitVec 2048) (i : Nat) : BitVec 64 := a.extractLsb' (64 * i) 64

/-- Replace a 64-bit word of an accumulator. -/
def accSetDword (a : BitVec 2048) (i : Nat) (w : BitVec 64) : BitVec 2048 :=
  (a &&& ~~~ ((BitVec.allOnes 64).zeroExtend 2048 <<< (64 * i))) ||| (w.zeroExtend 2048 <<< (64 * i))

/-- The result of a barrier's last release (Table 4.3: the result accumulator); zero when it has none. -/
def State.resultOf (s : State) (obj : Nat) (b : Barrier) : BitVec 2048 :=
  if b.pwords = 0 then 0 else s.acc (wingOf obj) (b.accBase + 1)

/-- The release value of a released generation (R75): its low 16 bits, result word 0 and the RESIGNED note. -/
def State.releaseValue (s : State) (obj : Nat) (b : Barrier) (gen : BitVec 32) (note : Bool) : BitVec 51 :=
  BitVec.ofNat 51 (gen.toNat % 65536 + 2 ^ 16 * (accWord (s.resultOf obj b) 0).toNat + (if note then 2 ^ 48 else 0))

/-- A notice word's VALUE (Tables 5.9 and 6.5). -/
def Notice.word : Notice → BitVec 51
  | .holder o e a w => BitVec.ofNat 51 (1 * 2 ^ 48 + o * 2 ^ 28 + e % 8 * 2 ^ 25 + a % 1024 * 2 ^ 15 + w % 1024 * 2 ^ 5)
  | .giver o p a l => BitVec.ofNat 51 (2 * 2 ^ 48 + o * 2 ^ 28 + p % 8 * 2 ^ 25 + a % 1024 * 2 ^ 15 + Nat.min 0x7FFF l)
  | .straggler o m r g => BitVec.ofNat 51 (3 * 2 ^ 48 + o * 2 ^ 28 + m % 8192 * 2 ^ 15 + r % 16 * 2 ^ 11 + g.toNat % 2048)
  | .orphan o a g => BitVec.ofNat 51 (4 * 2 ^ 48 + o * 2 ^ 28 + a % 1024 * 2 ^ 15 + (if g then 1 else 0))

/-- The overflow word (Table 6.5). -/
def overflowWord (n : Nat) : BitVec 51 := BitVec.ofNat 51 (7 * 2 ^ 48 + Nat.min 0x7FFF n)

end Sys2Proof.Machine
end

