-- ==== Sys2Proof/Machine/Operands.lean ====
section
/-! DEFINITION. The operand forms of command words: which fields each opcode defines, the word-format check of R79, list
entries, and who gives a command. -/
namespace Sys2Proof

/-- Is a command an arrival, whose units merge (R22)? -/
def Op.arrives : Op → Bool
  | .arrive => true
  | .arriveWait => true
  | _ => false

/-- Opcodes that act on the object of OBJ through its pipe (Table 1.4). -/
def Op.onObject : Op → Bool
  | .open => true | .close => true | .bindMembers => true | .grant => true | .pin => true | .unpin => true
  | .arrive => true | .arriveWait => true | .wait => true | .semPost => true | .semTake => true | .semTry => true
  | .lockAcquire => true | .lockTry => true | .lockRelease => true | .lockHandoff => true | .tokenGive => true
  | .tokenTake => true | .tokenTry => true | .flagSet => true | .flagClear => true | .payloadWrite => true
  | .resultRead => true | .ledgerPost => true | .ledgerCheck => true | .ledgerRead => true | .resign => true
  | _ => false

/-- Opcodes on which WAIT must be 1 (R73). -/
def Op.waits : Op → Bool
  | .arriveWait => true | .wait => true | .semTake => true | .lockAcquire => true | .tokenTake => true
  | .holdRequest => true
  | _ => false

/-- Opcodes that name a slot: those that bind one, POLL and CANCEL_WAIT (R72). -/
def Op.namesSlot (o : Op) : Bool :=
  o.waits || (match o with
    | .poll => true
    | .cancelWait => true
    | _ => false)

/-- Opcodes on which PRIO is defined (R72). -/
def Op.hasPrio : Op → Bool
  | .semTake => true | .lockAcquire => true | .tokenTake => true
  | _ => false

/-- Opcodes whose OBJ is defined or ignored (Table 3.3). -/
def Op.hasObj (o : Op) : Bool :=
  o.onObject || (match o with
    | .poll => true
    | .cancelWait => true
    | _ => false)

/-- The defined bits of ARG (Table 3.3); OPEN's and WAIT's depend on the type and are checked where it is known. -/
def Op.argMask : Op → Nat
  | .open => 0xFFFFF
  | .bindMembers => 0x1FFF
  | .grant => 0x7FF
  | .arrive => 0xFFFF
  | .arriveWait => 0xFFFF
  | .wait => 0xFFFF
  | .payloadWrite => 0x1F
  | .resultRead => 0x3F
  | .vote => 0x3
  | .unvote => 0x3
  | .holdRequest => 0x1FFFF
  | .seqStart => 0x1F
  | .seqStop => 0x1F
  | .readReg => 0xFFFFF
  | .writeReg => 0xFFFFF
  | .clearStatus => 0xFFFFF
  | .reassign => 0x3FF
  | .remap => 0x3FF
  | _ => 0

/-- The defined bits of DATA (Table 3.3). -/
def Op.dataMask (o : Op) (w : CmdW) : Nat :=
  match o with
  | .open => 0xFFFFFFFFFFFFFFFF
  | .bindMembers => if w.arg.getLsbD 12 then 0xFFFFFFFFFFFFFFFF else 0xFFFFFFFF
  | .wait => 0xFFFFFF
  | .semPost => 0xFFFFFFFF
  | .semTake => 0xFFFFFFFF
  | .semTry => 0xFFFFFFFF
  | .lockAcquire => 0x3FFFFFF
  | .lockTry => 0x3FFFFFF
  | .lockHandoff => 0x3FFFFFF
  | .tokenGive => 0xFFFFFFFF
  | .tokenTake => 0xFFFFFFFF
  | .tokenTry => 0xFFFFFFFF
  | .payloadWrite => 0xFFFFFFFFFFFFFFFF
  | .resultRead => 0xFFFF
  | .ledgerPost => 0xFFFFFFFFFFFFFF
  | .ledgerCheck => 0xFFFFFFFFFFFFFF
  | .ledgerRead => 0xFFFFFF
  | .seqStart => 0xFFFFFFFF
  | .writeReg => 0xFFFFFFFF
  | .clearStatus => 0xFFFFFFFFFFFF
  | .resign => 0xFFFFFFFF
  | .reassign => 0x3FF
  | .remap => 0x3FF
  | _ => 0

/-- The first list entry of BIND_MEMBERS and RESIGN. -/
def CmdW.ent0 (w : CmdW) : Nat := w.data.toNat % 2 ^ 32

/-- The second list entry of BIND_MEMBERS. -/
def CmdW.ent1 (w : CmdW) : Nat := w.data.toNat / 2 ^ 32

/-- The count, credits or amount of a command: DATA[31:0]. -/
def CmdW.amount (w : CmdW) : Nat := w.data.toNat % 2 ^ 32

/-- The chunk index of a ledger command: DATA[23:0]. -/
def CmdW.chunk (w : CmdW) : BitVec 24 := w.data.extractLsb' 0 24

/-- The CRC-32C of a ledger command: DATA[55:24]. -/
def CmdW.crc (w : CmdW) : BitVec 32 := w.data.extractLsb' 24 32

/-- The generation of a barrier command: ARG[15:0]. -/
def CmdW.gen16 (w : CmdW) : BitVec 16 := w.arg.extractLsb' 0 16

end Sys2Proof

namespace Sys2Proof.Machine

/-- What running a command gives: an answer, a cause for which the slot path answers DEFERRED and the other paths wait
(R92, R206), or an answer that comes later (R175). -/
inductive Res where
  | ans (st : Status) (v : BitVec 51)
  | defer (cause : Nat)
  | later
  deriving DecidableEq, Repr

/-- The caller of a command: position, domain, wing of entry, request, opcode and word. -/
structure Ctx where
  pos  : Nat
  dom  : Nat
  inw  : Wing
  req  : Req
  op   : Op
  w    : CmdW
  deriving DecidableEq, Repr

/-- The object number of a command. -/
def Ctx.obj (c : Ctx) : Nat := c.w.obj.toNat

/-- Is the command of the slot path? -/
def Ctx.onSlot (c : Ctx) : Bool :=
  match c.req with
  | .slot _ => true
  | _ => false

/-- Is the command of the queued path? -/
def Ctx.onWindow (c : Ctx) : Bool :=
  match c.req with
  | .win _ => true
  | _ => false

/-- A refusal with no value. -/
def no (st : Status) : Res := .ans st 0

/-- REFUSED_QUOTA with its kind (Table 3.5). -/
def quota (kind : Nat) : Res := .ans .refusedQuota (BitVec.ofNat 51 kind)

/-- MALFORMED with its reason (Table 3.5). -/
def malformed (reason : Nat) : Res := .ans .malformed (BitVec.ofNat 51 reason)

/-- OK with a value. -/
def okv (v : Nat) : Res := .ans .ok (BitVec.ofNat 51 v)

/-- REFUSED_STATE on an object (Table 3.5). -/
def State.rs (s : State) (obj : Nat) : Res := .ans .refusedState (s.refusedValue obj)

/-- Is a request an agent's own command? -/
def Req.ofAgent : Req → Bool
  | .slot _ => true
  | .win _ => true
  | _ => false

/-- Is a request a slot-path command? -/
def Req.onSlot : Req → Bool
  | .slot _ => true
  | _ => false

/-- Does a number have a bit outside a mask of defined bits? -/
def outside (x mask : Nat) : Bool := Nat.land x mask != x

/-- A list entry's bits (Table 4.10), or why they are not one: reason 2 or 4 (R8, R102). -/
def entryReason (x : Nat) : Option Nat :=
  let kind := x / 2 ^ 26 % 2
  let who := x % 2 ^ 20
  if x / 2 ^ 27 != 0 || x / 2 ^ 20 % 64 != 0 || (kind == 0 && who / 1024 != 0) then some 2
  else if kind == 0 && decide (768 ≤ who % 1024) then some 4
  else none

/-- The list entry that bits name (Table 4.10). -/
def entryOf (x : Nat) : Ent :=
  { arr := false, adv := false, res := false, relay := x / 2 ^ 26 % 2 == 1, who := x % 2 ^ 20 }

/-- Is a combine code valid (R143, Tables 5.4 and 5.5)? -/
def combineValid (code pwords : Nat) : Bool :=
  let op := code / 16
  let f := code % 16
  if op = 0 then decide (code = 0)
  else if op ≤ 4 then decide (1 ≤ f ∧ f ≤ 5)
  else if op ≤ 7 then decide (f = 0)
  else if op = 8 then decide (3 ≤ f ∧ f ≤ 7)
  else if op = 9 then decide (f = 6 ∨ f = 7)
  else if op = 10 then decide (f = 8)
  else if op = 11 then decide (f = 8 ∧ pwords ≤ 8)
  else false

/-- OPEN's parameter check (R76, Table 4.11): the reason of the first rule broken, in the order 3, 2, 4. -/
def openReason (w : CmdW) : Option Nat :=
  let ty := w.arg.toNat / 2 ^ 16
  let a := w.arg.toNat % 2 ^ 15
  let d := w.data.toNat
  let lo := d % 2 ^ 32
  let hi32 := d / 2 ^ 32
  match ty with
  | 1 =>
    let pw := d / 256 % 64
    let code := d % 256
    if (code != 0) != (pw != 0) then some 3
    else if lo / 2 ^ 14 != 0 then some 2
    else if a % 8192 = 0 ∨ 4096 < a % 8192 ∨ 32 < pw ∨ !combineValid code pw ∨ (1 ≤ hi32 ∧ hi32 ≤ 199) then some 4
    else none
  | 2 => if a != 0 || hi32 != 0 then some 2 else if 2 ^ 31 ≤ lo then some 4 else none
  | 3 => if a != 0 || d != 0 then some 2 else none
  | 4 =>
    if a / 8192 != 0 then some 2
    else if 4096 < a % 8192 ∨ lo = 0 ∨ lo < hi32 then some 4
    else none
  | 5 => if a / 2 != 0 || d != 0 then some 2 else none
  | 6 =>
    if a / 2 ^ 14 != 0 || d / 128 != 0 then some 2
    else if a % 8192 = 0 ∨ 4096 < a % 8192 ∨ d % 128 = 0 ∨ 64 < d % 128 then some 4
    else none
  | 7 =>
    if a / 1024 != 0 || d / 2 ^ 20 != 0 then some 2
    else if a % 4 = 0 then some 4
    else none
  | _ => some 4

/-- Values out of range that the word alone shows (R74, R8, R177): reason 4. -/
def rangeBad (o : Op) (w : CmdW) : Bool :=
  match o with
  | .semPost => w.amount == 0 || decide (2 ^ 31 ≤ w.amount)
  | .semTake => w.amount == 0 || decide (2 ^ 31 ≤ w.amount)
  | .semTry => w.amount == 0 || decide (2 ^ 31 ≤ w.amount)
  | .tokenGive => w.amount == 0
  | .tokenTake => w.amount == 0
  | .tokenTry => w.amount == 0
  | .vote => w.arg.toNat % 4 == 0
  | .unvote => w.arg.toNat % 4 == 0
  | .holdRequest => w.arg.toNat % 65536 == 0
  | .reassign => decide (768 ≤ w.arg.toNat % 1024)
  | .remap => decide (768 ≤ w.arg.toNat % 1024) || decide (768 ≤ w.data.toNat % 1024)
  | .bindMembers => entryReason w.ent0 == some 4 || (w.arg.getLsbD 12 && entryReason w.ent1 == some 4)
  | .resign => entryReason w.ent0 == some 4
  | .open => openReason w == some 4
  | _ => false

/-- Reserved bits that are not zero (R72, R102): reason 2. -/
def reservedBad (o : Op) (w : CmdW) : Bool :=
  (!o.namesSlot && !w.notify && w.slot != 0) || (!o.hasPrio && w.prio != 0) || (!o.hasObj && w.obj != 0) ||
    outside w.arg.toNat o.argMask || outside w.data.toNat (o.dataMask w) ||
    (match o with
     | .bindMembers => entryReason w.ent0 == some 2 || (w.arg.getLsbD 12 && entryReason w.ent1 == some 2)
     | .resign => entryReason w.ent0 == some 2
     | .open => openReason w == some 2
     | _ => false)

/-- Flag combinations that R73 refuses: reason 3. -/
def flagsBad (o : Op) (w : CmdW) (onWindow : Bool) : Bool :=
  (w.wait != o.waits) || (o.waits && w.slot == 7) ||
    (w.eager && !(match o with
      | .wait => true
      | .ledgerRead => true
      | _ => false)) ||
    (w.staged && !(match o with
      | .arrive => true
      | .arriveWait => true
      | _ => false)) ||
    (w.notify && (!onWindow || w.wait || w.slot == 7 || (match o with
      | .poll => true
      | .cancelWait => true
      | _ => false))) ||
    (match o with
     | .open => openReason w == some 3
     | _ => false)

/-- STAT registers, by offset (Table 12.2): the block whose fault base an offset is. -/
def faultBase (b : Nat) : Nat :=
  if b = 0 then 0x00000
  else if b = 1 then 0x10000
  else if b = 2 then 0x20020
  else if b = 3 then 0x30000
  else if b < 8 then 0x40000 + 0x4000 * (b - 4)
  else if b < 12 then 0x80000 + 0x4000 * (b - 8)
  else if b = 12 then 0x58020
  else if b = 13 then 0x98020
  else if b = 14 then 0x60000
  else if b = 15 then 0xA0000
  else if b = 16 then 0x70000
  else if b = 17 then 0xB0000
  else if b = 18 then 0x78000
  else if b = 19 then 0xB8000
  else if b < 36 then 0xC0000 + 0x1000 * (b - 20)
  else 0xE0000

/-- The block and register index (0 to 9) of a fault register's offset, if it is one (R334). -/
def faultRegAt (off : Nat) : Option (Nat × Nat) :=
  (List.range 37).findSome? (fun b =>
    let f := faultBase b
    if f ≤ off ∧ off < f + 40 ∧ off % 4 = 0 then some (b, (off - f) / 4) else none)

/-- Register offset rules (R11, R345): reason 6. -/
def offsetBad (o : Op) (w : CmdW) : Bool :=
  match o with
  | .readReg => w.arg.toNat % 4 != 0
  | .writeReg => w.arg.toNat % 4 != 0
  | .clearStatus => w.arg.toNat % 4 != 0 || (match faultRegAt w.arg.toNat with
    | some (_, 0) => false
    | _ => true)
  | _ => false

/-- A bit of CLEAR_STATUS's mask at a reserved source (R345): reason 2. -/
def clearMaskBad (o : Op) (w : CmdW) : Bool :=
  match o with
  | .clearStatus => match faultRegAt w.arg.toNat with
    | some (b, 0) => outside w.amount (implemented b).toNat
    | _ => false
  | _ => false

/-- The word-format check of R79 (check 3): the reason of the first rule broken. -/
def formatReason (o : Op) (w : CmdW) (onWindow : Bool) (ident : BitVec 26) : Option Nat :=
  if flagsBad o w onWindow then some 3
  else if reservedBad o w || clearMaskBad o w then some 2
  else if rangeBad o w then some 4
  else if (match o with
      | .lockAcquire => w.data.extractLsb' 0 26 != ident
      | .lockTry => w.data.extractLsb' 0 26 != ident
      | _ => false) then some 5
  else if offsetBad o w then some 6
  else none

end Sys2Proof.Machine
end

