-- ==== Sys2Proof/Machine/Plies.lean ====
section
/-! DEFINITION. Plies: their fields, their reserved encodings, and where they are fetched (R193 to R205). -/
namespace Sys2Proof

/-- NEXT (Table 7.3). -/
def plyNext (p : BitVec 128) : Nat := (p.extractLsb' 108 20).toNat
/-- LOOP. -/
def plyLoop (p : BitVec 128) : BitVec 16 := p.extractLsb' 92 16
/-- LOOP_EN. -/
def plyLoopEn (p : BitVec 128) : Bool := p.getLsbD 91
/-- LSEL. -/
def plyLsel (p : BitVec 128) : Nat := (p.extractLsb' 89 2).toNat
/-- END. -/
def plyEnd (p : BitVec 128) : Bool := p.getLsbD 88
/-- WCOND. -/
def plyWcond (p : BitVec 128) : Nat := (p.extractLsb' 85 3).toNat
/-- WARG. -/
def plyWarg (p : BitVec 128) : Nat := (p.extractLsb' 63 22).toNat
/-- The action field of a slot 0 to 2. -/
def plyAct (p : BitVec 128) (a : Nat) : Nat := (p.extractLsb' (42 - 21 * a) 21).toNat
/-- KIND of an action field. -/
def actKind (x : Nat) : Nat := x / 2 ^ 17
/-- The operand of an action field. -/
def actArg (x : Nat) : Nat := x % 2 ^ 17

/-- Is an action's encoding one of Table 7.5? REMOTE is valid in A1 alone (R205). -/
def actionOk (x a : Nat) : Bool :=
  let k := actKind x
  let o := actArg x
  if k = 0 then o == 0
  else if k = 1 then decide (o < 16)
  else if k = 2 ∨ k = 3 then decide (o < 4096)
  else if k = 4 ∨ k = 5 then true
  else if k = 6 then decide (o < 768)
  else if k = 7 then o == 0
  else if k = 8 then a == 1 && decide (o < 2 ^ 14)
  else false

/-- Is a wait's encoding one of Table 7.4? -/
def waitOk (wc x : Nat) : Bool :=
  match wc with
  | 0 => x == 0
  | 1 => x / 4 % 256 != 0 && decide (x < 1024)
  | 2 => x / 4 % 256 != 0 && decide (x < 1024)
  | 3 => x / 4096 != 0
  | 4 => decide (x < 4096)
  | 5 => true
  | 6 => x % 65536 != 0 && decide (x < 2 ^ 17)
  | _ => false

/-- Is A1 a REMOTE? -/
def plyRemote (p : BitVec 128) : Bool := actKind (plyAct p 1) == 8

/-- Does a ply hold a reserved encoding (R198, R205, R209)? -/
def plyReserved (p : BitVec 128) : Bool :=
  !waitOk (plyWcond p) (plyWarg p) || !actionOk (plyAct p 0) 0 || !actionOk (plyAct p 1) 1 ||
    (if plyRemote p then plyAct p 2 / 65536 != 0 else !actionOk (plyAct p 2) 2) ||
    (if plyLoopEn p then plyLoop p == 0 || plyEnd p else plyLoop p != 0 || plyLsel p != 0)

/-- The slots of a ply's actions, in order (R206). -/
def plyActions (p : BitVec 128) : List Nat :=
  (if plyRemote p then [0, 1] else [0, 1, 2]).filter (fun a => actKind (plyAct p a) != 0)

/-- Is an index valid (R193)? -/
def ImageBody.plyValid (i : ImageBody) (n : Nat) : Bool :=
  decide (n < i.plies.length) || (decide (65536 ≤ n) && decide (n < 65536 + 64 * i.paged))

/-- The page of a paged ply index. -/
def pageOf (n : Nat) : Nat := (n - 65536) / 64

/-- The object at an offset (R195). -/
def SeqEnt.obj (e : SeqEnt) (off : Nat) : Nat := (e.objBase + off) % 2 ^ 20

/-- The object of a watch (R195). -/
def SeqEnt.watch (e : SeqEnt) (w : Nat) : Nat :=
  e.obj (match w with
    | 0 => e.w0
    | 1 => e.w1
    | 2 => e.w2
    | _ => e.w3)

/-- The object that a ply waits on (Table 7.4). -/
def SeqEnt.waitObj (e : SeqEnt) (p : BitVec 128) : Option Nat :=
  match plyWcond p with
  | 1 => some (e.watch (plyWarg p % 4))
  | 2 => some (e.watch (plyWarg p % 4))
  | 3 => some (e.obj (plyWarg p % 4096))
  | 4 => some (e.obj (plyWarg p % 4096))
  | _ => none

/-- The objects that a ply names when it becomes current: that of its wait, and the watches of its ARRIVE actions. -/
def SeqEnt.plyObjs (e : SeqEnt) (p : BitVec 128) : List Nat :=
  (e.waitObj p).toList ++ (plyActions p).filterMap (fun a =>
    if actKind (plyAct p a) = 1 then some (e.watch (actArg (plyAct p a) % 4)) else none)

end Sys2Proof

namespace Sys2Proof.Machine

/-- The ply at an index, when it is resident or in the page cache. -/
def State.ply (s : State) (n : Nat) : Option (BitVec 128) :=
  if n < 65536 then s.img.plies[n]? else (tget [] s.pages (pageOf n))[n % 64]?

/-- The wing whose ply memory holds a resident ply (Table 13.1). -/
def plyWing (n : Nat) : Wing := wingOfBit (decide (32768 ≤ n))

/-- The wing-local ply-memory row of a resident ply: 8 plies a row (Table 13.1). -/
def plyRow (n : Nat) : Nat := n % 32768 / 8

/-- Where a ply lies in ply memory, resident or cached (R193). -/
def State.plyPlace (s : State) (n : Nat) : Nat := if n < 65536 then n else 64 * tget 0 s.pageFrame (pageOf n) + n % 64

/-- The half of ply memory in which the ply of an index lies, resident or cached (R37, R193). -/
def State.plyHalf (s : State) (n : Nat) : Wing := plyWing (s.plyPlace n)

/-- Has a resident ply's row been copied to the displacement area, so that each fetch of it is a ply miss (Table 13.2)? -/
def State.displacedPly (s : State) (n : Nat) : Bool :=
  decide (n < 65536) && (s.wing (plyWing n)).displaced.contains (plyRow n)

/-- What a ply miss reads: the ply's page, or, numbered from 15,360, its displaced row. -/
def missPage (n : Nat) : Nat := if n < 65536 then 15360 + 4096 * (plyWing n).num + plyRow n else pageOf n

/-- The address of a displaced row: the rows of a wing's displacement area are of 256 bytes each, in the order in which they were
copied there (R356, log 72). -/
def State.rowAddr (s : State) (w : Wing) (row : Nat) : Nat :=
  byWing w s.img.repair.dispQ s.img.repair.dispK + 256 * ((s.wing w).displaced.takeWhile (fun r => r != row)).length

/-- The address in stacked memory of what a ply miss reads: paged page p at PLY_BACKING + p × 1,024 (R197), or a displaced row. -/
def State.plyAddr (s : State) (page : Nat) : Nat :=
  if page < 15360 then s.img.plyBacking + 1024 * page
  else s.rowAddr (wingOfBit (decide (15360 + 4096 ≤ page))) ((page - 15360) % 4096)

/-- A sequencer's entry (Table 7.2). -/
def State.seqEnt (s : State) (k : Nat) : SeqEnt :=
  (s.img.seqs[k]?).getD { enabled := false, autostart := false, actPos := 0, dom := 0, startPly := 0, objBase := 0, w0 := 0,
                          w1 := 0, w2 := 0, w3 := 0 }

/-- The object that a sequencer waits on now (R212). -/
def State.seqWaitsOn (s : State) (k : Nat) : Option Nat :=
  let q := s.seq k
  if q.state = .waiting ∧ !q.pageWait ∧ !q.met then q.cur.bind (s.seqEnt k).waitObj else none

/-- Does a sequencer wait on an object (R212), one of a domain when it is given? -/
def State.seqWaiting (s : State) (obj : Nat) (d : Option Nat) : Bool :=
  (List.range 32).any (fun k => s.seqWaitsOn k == some obj && d.all (fun d => (s.seqEnt k).dom == d))

end Sys2Proof.Machine
end

