-- ==== Sys2Proof/Machine/Signature.lean ====
section
/-! DEFINITION. The signature check of an image (R55): SHA-384 as FIPS 180-4 gives it, and ECDSA verification on curve P-384 as
FIPS 186-5 gives it. The constants are those standards' (log 11). -/
namespace Sys2Proof

/-- A big-endian number (R5, R55). -/
def beNat (l : List Byte) : Nat := l.foldl (fun n b => 256 * n + b.toNat) 0

/-! ### SHA-384 -/

/-- The round constants of SHA-384. -/
def shaK : List Dword :=
  [0x428a2f98d728ae22, 0x7137449123ef65cd, 0xb5c0fbcfec4d3b2f, 0xe9b5dba58189dbbc, 0x3956c25bf348b538,
   0x59f111f1b605d019, 0x923f82a4af194f9b, 0xab1c5ed5da6d8118, 0xd807aa98a3030242, 0x12835b0145706fbe,
   0x243185be4ee4b28c, 0x550c7dc3d5ffb4e2, 0x72be5d74f27b896f, 0x80deb1fe3b1696b1, 0x9bdc06a725c71235,
   0xc19bf174cf692694, 0xe49b69c19ef14ad2, 0xefbe4786384f25e3, 0x0fc19dc68b8cd5b5, 0x240ca1cc77ac9c65] ++
  [0x2de92c6f592b0275, 0x4a7484aa6ea6e483, 0x5cb0a9dcbd41fbd4, 0x76f988da831153b5, 0x983e5152ee66dfab,
   0xa831c66d2db43210, 0xb00327c898fb213f, 0xbf597fc7beef0ee4, 0xc6e00bf33da88fc2, 0xd5a79147930aa725,
   0x06ca6351e003826f, 0x142929670a0e6e70, 0x27b70a8546d22ffc, 0x2e1b21385c26c926, 0x4d2c6dfc5ac42aed,
   0x53380d139d95b3df, 0x650a73548baf63de, 0x766a0abb3c77b2a8, 0x81c2c92e47edaee6, 0x92722c851482353b] ++
  [0xa2bfe8a14cf10364, 0xa81a664bbc423001, 0xc24b8b70d0f89791, 0xc76c51a30654be30, 0xd192e819d6ef5218,
   0xd69906245565a910, 0xf40e35855771202a, 0x106aa07032bbd1b8, 0x19a4c116b8d2d0c8, 0x1e376c085141ab53,
   0x2748774cdf8eeb99, 0x34b0bcb5e19b48a8, 0x391c0cb3c5c95a63, 0x4ed8aa4ae3418acb, 0x5b9cca4f7763e373,
   0x682e6ff3d6b2b8a3, 0x748f82ee5defb2fc, 0x78a5636f43172f60, 0x84c87814a1f0ab72, 0x8cc702081a6439ec] ++
  [0x90befffa23631e28, 0xa4506cebde82bde9, 0xbef9a3f7b2c67915, 0xc67178f2e372532b, 0xca273eceea26619c,
   0xd186b8c721c0c207, 0xeada7dd6cde0eb1e, 0xf57d4f7fee6ed178, 0x06f067aa72176fba, 0x0a637dc5a2c898a6,
   0x113f9804bef90dae, 0x1b710b35131c471b, 0x28db77f523047d84, 0x32caab7b40c72493, 0x3c9ebe0a15c9bebc,
   0x431d67c49c100d4c, 0x4cc5d4becb3e42b6, 0x597f299cfc657e2a, 0x5fcb6fab3ad6faec, 0x6c44198c4a475817]

/-- The initial hash value of SHA-384. -/
def shaInit : List Dword :=
  [0xcbbb9d5dc1059ed8, 0x629a292a367cd507, 0x9159015a3070dd17, 0x152fecd8f70e5939,
   0x67332667ffc00b31, 0x8eb44a8768581511, 0xdb0c2e0d64f98fa7, 0x47b5481dbefa4fa4]

/-- A message with its padding: a 1 bit, zeros, and its length in bits as 128 bits, in blocks of 128 bytes. -/
def shaPad (m : List Byte) : List Byte :=
  m ++ 0x80 :: List.replicate ((239 - m.length % 128) % 128) 0 ++
    (List.range 16).map (fun i => BitVec.ofNat 8 (8 * m.length / 2 ^ (8 * (15 - i))))

/-- The sixteen words of a block. -/
def shaWords (b : List Byte) : List Dword :=
  (List.range 16).map (fun i => BitVec.ofNat 64 (beNat ((b.drop (8 * i)).take 8)))

/-- One more word of a message schedule, whose latest word stands first. -/
def shaNext (l : List Dword) : List Dword :=
  let a := l.getD 14 0
  let b := l.getD 1 0
  let s0 := a.rotateRight 1 ^^^ a.rotateRight 8 ^^^ (a >>> 7)
  let s1 := b.rotateRight 19 ^^^ b.rotateRight 61 ^^^ (b >>> 6)
  (l.getD 15 0 + s0 + l.getD 6 0 + s1) :: l

/-- The message schedule of a block: eighty words. -/
def shaSchedule (b : List Byte) : List Dword :=
  ((List.range 64).foldl (fun l _ => shaNext l) (shaWords b).reverse).reverse

/-- One round on the eight working variables, with a constant and a word of the schedule. -/
def shaRound (v : List Dword) (kw : Dword × Dword) : List Dword :=
  match v with
  | [a, b, c, d, e, f, g, h] =>
    let s1 := e.rotateRight 14 ^^^ e.rotateRight 18 ^^^ e.rotateRight 41
    let t1 := h + s1 + ((e &&& f) ^^^ (~~~e &&& g)) + kw.1 + kw.2
    let s0 := a.rotateRight 28 ^^^ a.rotateRight 34 ^^^ a.rotateRight 39
    let t2 := s0 + ((a &&& b) ^^^ (a &&& c) ^^^ (b &&& c))
    [t1 + t2, a, b, c, d + t1, e, f, g]
  | v => v

/-- The hash value after a block. -/
def shaBlock (h : List Dword) (b : List Byte) : List Dword :=
  List.zipWith (fun x y => x + y) h ((List.zip shaK (shaSchedule b)).foldl shaRound h)

/-- The hash value after `n` blocks of a padded message. -/
def shaBlocks : Nat → List Byte → List Dword → List Dword
  | 0, _, h => h
  | n + 1, l, h => shaBlocks n (l.drop 128) (shaBlock h (l.take 128))

/-- SHA-384 of a message: the first six words of the hash value, big-endian. -/
@[irreducible] def sha384 (m : List Byte) : BitVec 384 :=
  let l := shaPad m
  BitVec.ofNat 384 (((shaBlocks (l.length / 128) l shaInit).take 6).foldl (fun n x => 2 ^ 64 * n + x.toNat) 0)

/-! ### ECDSA on P-384 -/

/-- The field prime of P-384. -/
def p384 : Nat := 2 ^ 384 - 2 ^ 128 - 2 ^ 96 + 2 ^ 32 - 1

/-- The coefficient b of P-384; the coefficient a is -3. -/
def p384b : Nat := 0xb3312fa7e23ee7e4988e056be3f82d19181d9c6efe8141120314088f5013875ac656398d8a2ed19d2a85c8edd3ec2aef

/-- The order of the base point. -/
def p384n : Nat := 0xffffffffffffffffffffffffffffffffffffffffffffffffc7634d81f4372ddf581a0db248b0a77aecec196accc52973

/-- A point of the curve; none is the point at infinity. -/
abbrev CurvePt := Option (Nat × Nat)

/-- The base point. -/
def p384g : CurvePt := some
  (0xaa87ca22be8b05378eb1c71ef320ad746e1d3b628ba79b9859f741e082542a385502f25dbf55296c3a545e3872760ab7,
   0x3617de4a96262c6f5d9e98bf9292dc29f8f41dbd289a147ce9da3113b5f0b8c00a60b1ce1d7e819d7a431d7c90ea0e5f)

/-- A power modulo `m`, with an exponent of at most `k` bits. -/
def powMod (m b : Nat) : Nat → Nat → Nat
  | 0, _ => 1 % m
  | k + 1, e =>
    let h := powMod m b k (e / 2)
    if e % 2 = 1 then h * h % m * b % m else h * h % m

/-- The inverse modulo a prime below 2^384. -/
def invMod (m a : Nat) : Nat := powMod m a 384 (m - 2)

/-- A difference in the field. -/
def subMod (a b : Nat) : Nat := (a + p384 - b % p384) % p384

/-- The third point of a line with a slope, mirrored. -/
def chord (l x1 y1 x2 : Nat) : CurvePt :=
  let x := subMod (subMod (l * l % p384) x1) x2
  some (x, subMod (l * subMod x1 x % p384) y1)

/-- The sum of two points. -/
def ptAdd (a b : CurvePt) : CurvePt :=
  match a, b with
  | none, _ => b
  | _, none => a
  | some (x1, y1), some (x2, y2) =>
    if x1 = x2 then
      if (y1 + y2) % p384 = 0 then none
      else chord (subMod (3 * x1 * x1 % p384) 3 * invMod p384 (2 * y1 % p384) % p384) x1 y1 x2
    else chord (subMod y2 y1 * invMod p384 (subMod x2 x1) % p384) x1 y1 x2

/-- A multiple of a point, with a factor of at most `n` bits. -/
def ptMul (a : CurvePt) : Nat → Nat → CurvePt
  | 0, _ => none
  | n + 1, k =>
    let h := ptMul a n (k / 2)
    if k % 2 = 1 then ptAdd (ptAdd h h) a else ptAdd h h

/-- The point of a SEC1 uncompressed key (Table 2.3), when it lies on the curve. -/
def keyPoint (k : List Byte) : CurvePt :=
  let x := beNat ((k.drop 1).take 48)
  let y := beNat ((k.drop 49).take 48)
  if k.length = 97 ∧ k.head? = some 4 ∧ x < p384 ∧ y < p384 ∧ y * y % p384 = (x * x * x + (p384 - 3) * x + p384b) % p384 then some (x, y)
  else none

/-- Is (r, s) a valid signature under a key over a digest? -/
@[irreducible] def ecdsaP384 (key : List Byte) (r s digest : BitVec 384) : Bool :=
  let inRange (x : BitVec 384) : Bool := decide (1 ≤ x.toNat) && decide (x.toNat < p384n)
  let w := invMod p384n s.toNat
  let q := keyPoint key
  let x := ptAdd (ptMul p384g 384 (digest.toNat * w % p384n)) (ptMul q 384 (r.toNat * w % p384n))
  inRange r && inRange s && q.isSome && x.any (fun x => x.1 % p384n == r.toNat)

end Sys2Proof
end

