-- ==== Sys2Proof/Machine/Layout.lean ====
section
/-! DEFINITION. The byte layouts of a Tasol image: its header, its sections and their entries (Tables 2.3 to 2.6, 4.1 to 4.10,
7.1, 7.2, 8.2, 10.1, 11.12, 12.4, 13.3), and the signed message (R55). A field that a table shows as zero is read by the
functions whose names end in `Zero`. -/
namespace Sys2Proof

/-! ### Bytes of an image (R5) -/

/-- The little-endian number in the `n` bytes from an offset on. -/
def Image.num (m : Image) (off n : Nat) : Nat := (m.bits >>> (8 * off)) % 2 ^ (8 * n)

/-- Bits `lo` to `lo + n - 1` of the field at an offset. -/
def Image.bit (m : Image) (off lo n : Nat) : Nat := (m.bits >>> (8 * off + lo)) % 2 ^ n

/-- Are the `n` bytes from an offset on zero? -/
def Image.zero (m : Image) (off n : Nat) : Bool := m.num off n == 0

/-- Are bits `lo` to `lo + n - 1` of the field at an offset zero? -/
def Image.bitZero (m : Image) (off lo n : Nat) : Bool := m.bit off lo n == 0

/-- The `n` bytes from an offset on. -/
def Image.bytes (m : Image) (off n : Nat) : List Byte := (List.range n).map (fun i => BitVec.ofNat 8 (m.num (off + i) 1))

/-! ### The header (Tables 2.3 and 2.4) -/

/-- The section entry at an offset (Table 2.4). -/
def Image.section (m : Image) (o : Nat) : SecEnt :=
  { type := m.num o 2, flags := m.num (o + 2) 2, offset := m.num (o + 4) 4, length := m.num (o + 8) 4, count := m.num (o + 12) 4 }

/-- The header (Table 2.3). -/
def Image.hdr (m : Image) : ImageHdr :=
  { magic := BitVec.ofNat 32 (m.num 0x000 4), format := m.num 0x004 2, hdrSize := m.num 0x006 2, imageSize := m.num 0x008 4
    secVersion := m.num 0x00C 2, targetRev := m.num 0x00E 1, hostId := m.num 0x010 2, relVersion := BitVec.ofNat 32 (m.num 0x014 4)
    buildId := BitVec.ofNat 64 (m.num 0x018 8)
    reservedZero := m.zero 0x00F 1 && m.zero 0x012 2 && m.zero 0x101 0x7F && m.zero 0x1E0 0x20
    sections := (List.range 8).map (fun k => m.section (0x020 + 16 * k)), pubkey := m.bytes 0x0A0 0x61
    sigR := BitVec.ofNat 384 (beNat (m.bytes 0x180 48)), sigS := BitVec.ofNat 384 (beNat (m.bytes 0x1B0 48)) }

/-- The signed message: header bytes 0x000 to 0x17F, and bytes 0x1E0 to IMAGE_SIZE - 1 (R55). -/
def Image.message (m : Image) : List Byte := m.bytes 0 0x180 ++ m.bytes 0x1E0 (m.hdr.imageSize - 0x1E0)

/-- The SHA-384 digest of the signed message (R55). -/
def Image.digest (m : Image) : BitVec 384 := sha384 m.message

/-- The section of a type (R51). -/
def Image.sec (m : Image) (type : Nat) : SecEnt :=
  (m.hdr.sections.find? (fun e => e.type == type)).getD { type := type, flags := 0, offset := 0, length := 0, count := 0 }

/-! ### DOMAINS and POSMAP (Tables 4.1 and 2.6) -/

/-- The domain entry at an offset (Table 4.1). -/
def Image.domainAt (m : Image) (o : Nat) : DomainEnt :=
  { enabled := m.bit o 0 1 == 1, refuseLimit := m.num (o + 0x04) 2, objQ := m.num (o + 0x08) 4, objK := m.num (o + 0x0C) 4
    accQ := m.num (o + 0x10) 4, accK := m.num (o + 0x14) 4, wslotQ := m.num (o + 0x18) 2, wslotK := m.num (o + 0x1A) 2
    opsQ := m.num (o + 0x1C) 2, opsK := m.num (o + 0x1E) 2, seqRun := m.bit (o + 0x20) 0 6, weight := m.num (o + 0x22) 2
    rateQ := m.num (o + 0x24) 2, rateK := m.num (o + 0x26) 2, depthQ := m.num (o + 0x28) 2, depthK := m.num (o + 0x2A) 2
    objBase := m.bit (o + 0x30) 0 20, objSize := m.num (o + 0x34) 4 }

/-- Are the zero fields of a domain entry zero? -/
def Image.domainZero (m : Image) (o : Nat) : Bool :=
  m.bitZero o 1 31 && m.zero (o + 0x06) 2 && m.bitZero (o + 0x20) 6 2 && m.zero (o + 0x21) 1 && m.zero (o + 0x2C) 4 &&
    m.bitZero (o + 0x30) 20 12 && m.zero (o + 0x38) 8

/-- The POSMAP entry at an offset (Table 2.6). -/
def Image.posAt (m : Image) (o : Nat) : PosEnt :=
  { spare := m.bit o 21 1 == 1, enabled := m.bit o 20 1 == 1, schedPos := m.bit o 10 10, dom := m.bit o 0 10 }

/-! ### OBJECTS (R100, R102, R125) -/

/-- The member entry at an offset (Table 4.10). -/
def Image.memberAt (m : Image) (o : Nat) : Member := { relay := m.bit o 26 1 == 1, who := m.bit o 0 20 }

/-- Are the zero and held bits of a member entry zero? -/
def Image.memberZero (m : Image) (o : Nat) : Bool :=
  m.bitZero o 27 5 && m.bitZero o 20 6 && (m.bit o 26 1 == 1 || m.bitZero o 10 10)

/-- Are the held and zero fields of a record's header zero (Table 4.2)? -/
def Image.recordZero (m : Image) (o : Nat) : Bool :=
  m.zero o 4 && m.zero (o + 0x07) 1 && m.bitZero (o + 0x08) 10 6 && m.zero (o + 0x0A) 6

/-- The image-set fields of the record at an offset, when its type is one of Table 3.4 and its held and zero fields are zero
(Tables 4.3 to 4.9). -/
def Image.recordAt (m : Image) (o : Nat) : Option PresetBody :=
  let opt (ok : Bool) (b : PresetBody) : Option PresetBody := if ok && m.recordZero o then some b else none
  match m.bit (o + 0x04) 20 4 with
  | 1 => opt (m.zero (o + 0x10) 8 && m.bitZero (o + 0x18) 0 17 && m.bitZero (o + 0x18) 30 2 && m.zero (o + 0x1C) 4 &&
              m.bitZero (o + 0x20) 0 13 && m.bitZero (o + 0x20) 27 5 && m.zero (o + 0x28) 8 && m.bitZero (o + 0x30) 2 14 &&
              m.zero (o + 0x32) 14)
          (.barrier (m.bit (o + 0x18) 17 13) (m.bit (o + 0x20) 19 8) (m.bit (o + 0x20) 13 6) (m.num (o + 0x24) 4)
            (m.bit (o + 0x30) 0 1 == 1) (m.bit (o + 0x30) 1 1 == 1))
  | 2 => opt (m.zero (o + 0x14) 44) (.semaphore (m.num (o + 0x10) 4))
  | 3 => opt (m.zero (o + 0x10) 5 && m.bitZero (o + 0x15) 7 1 && m.zero (o + 0x16) 42)
          (.lock (if m.bit (o + 0x15) 6 1 = 1 then some (m.bit (o + 0x15) 0 6) else none))
  | 4 => opt (m.bitZero (o + 0x18) 0 17 && m.bitZero (o + 0x18) 30 2 && m.zero (o + 0x1C) 36)
          (.token (m.num (o + 0x14) 4) (m.num (o + 0x10) 4) (m.bit (o + 0x18) 17 13))
  | 5 => opt (m.bitZero (o + 0x10) 1 31 && m.zero (o + 0x14) 44) (.flag (m.bit (o + 0x10) 0 1 == 1))
  | 6 => opt (m.bitZero (o + 0x10) 1 31 && m.zero (o + 0x14) 4 && m.bitZero (o + 0x18) 0 17 && m.bitZero (o + 0x18) 30 2 &&
              m.zero (o + 0x1C) 4 && m.bitZero (o + 0x20) 0 12 && m.bitZero (o + 0x20) 19 13 && m.zero (o + 0x24) 28)
          (.ledger (m.bit (o + 0x10) 0 1 == 1) (m.bit (o + 0x18) 17 13) (m.bit (o + 0x20) 12 7))
  | 7 => opt (m.bitZero (o + 0x10) 20 12 && m.bitZero (o + 0x14) 2 6 && m.zero (o + 0x16) 42)
          (.relay (m.bit (o + 0x10) 0 20) (m.bit (o + 0x14) 0 2) (m.num (o + 0x15) 1))
  | _ => none

/-- The preset at an offset, its members taken from the section's member entries at `mo`, of which there are `mn` (R125); none
when a field holds what R100 or R125 reserves. -/
def Image.presetAt (m : Image) (mo mn o : Nat) : Option Preset :=
  let first := m.num (o + 0x4) 4
  let n := m.num (o + 0x8) 2
  if m.bitZero o 22 10 && m.zero (o + 0xA) 6 && m.bit (o + 0x14) 0 20 == m.bit o 0 20 && (n == 0 || decide (first + n ≤ mn)) then
    (m.recordAt (o + 0x10)).map (fun b =>
      { obj := m.bit o 0 20, pin := m.bit o 20 1 == 1, cold := m.bit o 21 1 == 1, owner := m.bit (o + 0x18) 0 10
        members := (List.range n).map (fun i => m.memberAt (mo + 4 * (first + i))), body := b })
  else none

/-! ### OPENINGS (Tables 7.1 and 7.2) -/

/-- The sequencer entry at an offset (Table 7.2). -/
def Image.seqAt (m : Image) (o : Nat) : SeqEnt :=
  { enabled := m.bit o 41 1 == 1, autostart := m.bit o 40 1 == 1, actPos := m.bit o 30 10, dom := m.bit o 20 10
    startPly := m.bit o 0 20, objBase := m.bit o 48 20, w0 := m.bit o 68 12, w1 := m.bit o 80 12, w2 := m.bit o 92 12
    w3 := m.bit o 104 12 }

/-- Are the zero fields of a sequencer entry zero? -/
def Image.seqZero (m : Image) (o : Nat) : Bool := m.bitZero o 42 6 && m.bitZero o 116 12

/-! ### TOPOLOGY (Tables 10.1 and 8.2, R302) -/

/-- The link table entry at an offset (Table 10.1). -/
def Image.linkAt (m : Image) (o : Nat) : LinkEnt :=
  { enabled := m.bit o 0 1 == 1, txPreset := m.bit (o + 1) 0 4, retryLimit := m.bit (o + 2) 0 4, quietAfter := m.num (o + 4) 2
    coldLease := m.num (o + 6) 2 }

/-- Are the zero fields of a link table entry zero? -/
def Image.linkZero (m : Image) (o : Nat) : Bool :=
  m.bitZero o 1 7 && m.bitZero (o + 1) 4 4 && m.bitZero (o + 2) 4 4 && m.zero (o + 3) 1 && m.zero (o + 8) 8

/-- The peer list entry at an offset (R302). -/
def Image.peerAt (m : Image) (o : Nat) : PeerEnt :=
  { chip := BitVec.ofNat 16 (m.num o 2), rto := m.num (o + 2) 2, valid := m.bit (o + 4) 0 1 == 1 }

/-- Are the zero fields of a peer list entry zero? -/
def Image.peerZero (m : Image) (o : Nat) : Bool := m.bitZero (o + 4) 1 7 && m.zero (o + 5) 11

/-- The group entry at an offset (Table 8.2). -/
def Image.groupAt (m : Image) (o : Nat) : GroupEnt :=
  let named (b : Bool) (n : Nat) : Option Nat := if b then some n else none
  { valid := m.bit o 0 1 == 1, top := m.bit o 1 2, arity := m.num (o + 1) 1, owner := m.bit (o + 2) 0 10
    seats := BitVec.ofNat 16 (m.num (o + 4) 2), clusters := BitVec.ofNat 16 (m.num (o + 6) 2)
    boards := BitVec.ofNat 256 (m.num (o + 8) 32), fallL1 := m.num (o + 0x28) 2, fallL2 := m.num (o + 0x2A) 2
    fallL3 := m.num (o + 0x2C) 2, arbL1 := named (m.bit (o + 0x2E) 4 1 == 1) (m.bit (o + 0x2E) 0 4)
    arbL3 := named (m.bit (o + 0x2F) 4 1 == 1) (m.bit (o + 0x2F) 0 4)
    arbL2 := named (m.bit (o + 0x30) 8 1 == 1) (m.bit (o + 0x30) 0 8) }

/-- Are the zero fields of a group entry zero (R227)? -/
def Image.groupZero (m : Image) (o : Nat) : Bool :=
  m.bitZero o 3 5 && m.bitZero (o + 2) 10 6 && m.bitZero (o + 0x2E) 5 3 && m.bitZero (o + 0x2F) 5 3 && m.bitZero (o + 0x30) 9 7 &&
    m.zero (o + 0x32) 14

/-! ### SEVERITY, POWER and REPAIRPTR (Tables 12.4, 11.12 and 13.3) -/

/-- The SEVERITY entry at an offset (Table 12.4); a unit of QUIET other than µs and ms is reserved (`sevZero`). -/
def Image.sevAt (m : Image) (o : Nat) : SevEnt :=
  { blk := m.bit o 0 6, auto := m.bit o 6 1 == 1, src := m.bit (o + 1) 0 5, sev := m.bit (o + 1) 5 3, rlimit := m.num (o + 2) 2
    grace := m.num (o + 4) 2, unitMs := m.bit (o + 6) 14 2 == 1, quiet := m.bit (o + 6) 0 14 }

/-- Are the zero fields of a SEVERITY entry zero, and the unit of its quiet period one that Table 12.4 gives? -/
def Image.sevZero (m : Image) (o : Nat) : Bool := m.bitZero o 7 1 && m.bitZero (o + 6) 15 1

/-- The POWER section at an offset (Table 11.12). -/
def Image.powerAt (m : Image) (o : Nat) : PowerEnt :=
  { deepestQ := m.bit o 0 2, deepestK := m.bit (o + 1) 0 2, pnomQ := m.bit (o + 2) 0 2, pnomK := m.bit (o + 3) 0 2
    guard := m.num (o + 4) 2, beAdj := m.num (o + 6) 2, beDeep := m.num (o + 8) 4, waitLimit := m.num (o + 0xC) 2
    qmask := (List.range 16).map (fun k =>
      (BitVec.ofNat 16 (m.num (o + 0x10 + 4 * k) 2), BitVec.ofNat 3 (m.bit (o + 0x12 + 4 * k) 1 3))) }

/-- Are the bytes and bits of a POWER section that Table 11.12 shows as zero zero? -/
def Image.powerZero (m : Image) (o : Nat) : Bool :=
  (List.range 4).all (fun i => m.bitZero (o + i) 2 6) && m.zero (o + 0xE) 2 && m.zero (o + 0x50) 0xB0 &&
    (List.range 16).all (fun k => m.bitZero (o + 0x12 + 4 * k) 0 1 && m.bitZero (o + 0x12 + 4 * k) 4 4 && m.zero (o + 0x13 + 4 * k) 1)

/-- The REPAIRPTR section at an offset (Table 13.3). -/
def Image.repairAt (m : Image) (o : Nat) : RepairEnt :=
  { region := m.num o 4, copy0 := m.num (o + 4) 4, copy1 := m.num (o + 8) 4, dispQ := m.num (o + 0x10) 8
    dispK := m.num (o + 0x18) 8 }

/-! ### The sections together (Table 2.5) -/

/-- The places of `n` entries of a size, from an offset on. -/
def places (o size n : Nat) : List Nat := (List.range n).map (fun i => o + size * i)

/-- Where the peer list, the group entries and the tree entries of TOPOLOGY lie: the link table has 16 entries and the peer
list its full 512 (log 10). -/
def topoPeers (o : Nat) : Nat := o + 256
def topoGroups (o : Nat) : Nat := topoPeers o + 8192
def topoTrees (o groups : Nat) : Nat := topoGroups o + 64 * groups

/-- The places of a section's parts: its offset, COUNT and, in OBJECTS and OPENINGS, the numbers in its head (Tables 2.5, 7.1,
R125). -/
structure SecPlaces where
  dom     : Nat
  pos     : Nat
  obj     : Nat
  presets : Nat
  members : Nat
  grants  : Nat
  opn     : Nat
  plies   : Nat
  paged   : Nat
  topo    : Nat
  groups  : Nat
  sev     : Nat
  sevs    : Nat
  power   : Nat
  repair  : Nat
  deriving DecidableEq, Repr

/-- The places in an image. -/
def Image.at_ (m : Image) : SecPlaces :=
  let o := (m.sec 3).offset
  let p := (m.sec 4).offset
  { dom := (m.sec 1).offset, pos := (m.sec 2).offset, obj := o, presets := (m.sec 3).count, members := m.num (o + 0x10) 4
    grants := m.num (o + 0x14) 4, opn := p, plies := (m.sec 4).count, paged := m.num (p + 8) 4, topo := (m.sec 5).offset
    groups := (m.sec 5).count, sev := (m.sec 6).offset, sevs := (m.sec 6).count, power := (m.sec 7).offset
    repair := (m.sec 8).offset }

/-- Where the presets, the member entries and the grant entries of OBJECTS lie (R125). -/
def SecPlaces.preset (a : SecPlaces) : Nat := a.obj + 64
def SecPlaces.member (a : SecPlaces) : Nat := a.preset + 80 * a.presets
def SecPlaces.grant (a : SecPlaces) : Nat := a.member + 4 * a.members

/-- Where the sequencer entries, the plies and the page check words of OPENINGS lie (R194). -/
def SecPlaces.seq (a : SecPlaces) : Nat := a.opn + 64
def SecPlaces.ply (a : SecPlaces) : Nat := a.seq + 512
def SecPlaces.check (a : SecPlaces) : Nat := a.ply + 16 * a.plies

/-- The sizes of the sections' content by type (Table 2.5); TOPOLOGY's tree entries take what is left of it. -/
def SecPlaces.sizes (a : SecPlaces) : List Nat :=
  [65536, 3072, 64 + 80 * a.presets + 4 * a.members + 8 * a.grants, 576 + 16 * a.plies + 4 * a.paged, 256 + 8192 + 64 * a.groups,
    8 * a.sevs, 256, 32]

/-- Does the content of each section fit its LENGTH (log 10), and do the counts not pass their tables' sizes (R53)? -/
def Image.sizesOk (m : Image) : Bool :=
  let a := m.at_
  decide (a.presets ≤ 65536) && decide (a.members ≤ 262144) && decide (a.grants ≤ 8192) && decide (a.plies ≤ 65536) &&
    decide (a.paged ≤ 15360) && decide (a.groups ≤ 256) && decide (a.sevs ≤ 37 * 31) &&
    ((List.range 8).zip a.sizes).all (fun x => decide (x.2 ≤ (m.sec (x.1 + 1)).length))

/-- The eight sections' content (Table 2.5). -/
def Image.body (m : Image) : ImageBody :=
  let a := m.at_
  { domains := (places a.dom 64 1024).map m.domainAt
    posmap := (places a.pos 4 768).map m.posAt
    presets := (places a.preset 80 a.presets).filterMap (m.presetAt a.member a.members)
    backQ := m.num a.obj 8
    backK := m.num (a.obj + 8) 8
    grants := (places a.grant 8 a.grants).map (fun o => (m.bit o 0 20, m.bit o 20 10))
    seqs := (places a.seq 16 32).map m.seqAt
    plies := (places a.ply 16 a.plies).map (fun o => BitVec.ofNat 128 (m.num o 16))
    plyBacking := m.num a.opn 8
    paged := a.paged
    pageCheck := (places a.check 4 a.paged).map (fun o => BitVec.ofNat 32 (m.num o 4))
    links := (places a.topo 16 16).map m.linkAt
    peers := (places (topoPeers a.topo) 16 512).map m.peerAt
    groups := (places (topoGroups a.topo) 64 a.groups).map m.groupAt
    trees := m.bytes (topoTrees a.topo a.groups) ((m.sec 5).length - (8448 + 64 * a.groups))
    sevs := (places a.sev 8 a.sevs).map m.sevAt
    power := m.powerAt a.power
    repair := m.repairAt a.repair }

/-- Is every field that the chapters reserve or show as zero zero (R53)? The link table entry of the chip's own seat is ignored
(R276), and a preset with such a field is none, so that the presets fall short of COUNT. -/
def Image.bodyZero (m : Image) (seat : Nat) : Bool :=
  let a := m.at_
  (places a.dom 64 1024).all m.domainZero && (places a.pos 4 768).all (fun o => m.bitZero o 22 10) &&
    m.zero (a.obj + 0x18) 40 && (places a.member 4 a.members).all m.memberZero &&
    (places a.grant 8 a.grants).all (fun o => m.bitZero o 30 2 && m.zero (o + 4) 4) && m.zero (a.opn + 0xC) 52 &&
    (places a.seq 16 32).all m.seqZero &&
    (List.range 16).all (fun k => k == seat || m.linkZero (a.topo + 16 * k)) &&
    (places (topoPeers a.topo) 16 512).all m.peerZero && (places (topoGroups a.topo) 64 a.groups).all m.groupZero &&
    (places a.sev 8 a.sevs).all m.sevZero && m.powerZero a.power && m.zero (a.repair + 0xC) 4

end Sys2Proof
end

