-- ==== Sys2Proof/Machine/Records.lean ====
section
/-! DEFINITION. The 32-byte records that the IML writes to the flash: boot records (Table 2.10) and repair records
(Table 13.4), and what a scan of their areas finds (R66, R359). A record is one number, byte `i` in bits `8 i` to `8 i + 7`
(R5). -/
namespace Sys2Proof

/-! ### CRC and erased positions -/

/-- The CRC-32C of bytes 0x00 to 0x1B. -/
def recordCrc (x : Nat) : Nat := (crc32c (leBytes 28 x)).toNat

/-- A record whose bytes 0x00 to 0x1B are a number. -/
def recordWord (x : Nat) : BitVec 256 := BitVec.ofNat 256 (x % 2 ^ 224 + 2 ^ 224 * recordCrc (x % 2 ^ 224))

/-- Does the CRC of a record hold? -/
def crcHolds (x : BitVec 256) : Bool := x.toNat / 2 ^ 224 == recordCrc (x.toNat % 2 ^ 224)

/-- The number in `n` bytes of a record. -/
def recordNum (x : BitVec 256) (off n : Nat) : Nat := x.toNat / 2 ^ (8 * off) % 2 ^ (8 * n)

/-- An erased position reads all 0xFF. -/
def erased (x : BitVec 256) : Bool := x == BitVec.allOnes 256

/-- A flag as a number. -/
def flagNat (b : Bool) : Nat := if b then 1 else 0

/-- The first erased position at or behind `i` of an area of `n` positions; positions that its list does not reach are
erased. -/
def freeFrom (n i : Nat) : List (BitVec 256) → Option Nat
  | [] => if i < n then some i else none
  | x :: t => if n ≤ i then none else if erased x then some i else freeFrom n (i + 1) t

/-! ### Boot records (R66) -/

/-- A boot record's 32 bytes (Table 2.10). -/
def BootRec.word (r : BootRec) : BitVec 256 :=
  recordWord (r.bootSeq % 2 ^ 32 +
    2 ^ 32 * (r.slot % 2 + 2 * (r.dirCopy % 2) + 4 * flagNat r.restarted + 2 ^ 4 * (r.failA % 16) + 2 ^ 8 * (r.failB % 16) +
      2 ^ 12 * (r.halt % 256) + 2 ^ 20 * (r.flashMode % 16)) +
    2 ^ 64 * (r.secVersion % 2 ^ 16) + 2 ^ 80 * (r.minVersion % 2 ^ 16) + 2 ^ 96 * r.relVersion.toNat + 2 ^ 128 * r.buildId.toNat +
    2 ^ 192 * (r.readyUs % 2 ^ 32))

/-- BOOT_SEQ of a valid boot record. -/
def bootSeqOf (x : BitVec 256) : Option Nat := if crcHolds x then some (recordNum x 0 4) else none

/-- The highest BOOT_SEQ among a sector's valid records, with the position of the record that holds it. -/
def highestBoot (i : Nat) : List (BitVec 256) → Option (Nat × Nat)
  | [] => none
  | x :: t => match bootSeqOf x, highestBoot (i + 1) t with
    | some n, some (m, j) => if n < m then some (m, j) else some (n, i)
    | some n, none => some (n, i)
    | none, y => y

/-- What a scan of the boot record area finds (R66): the next BOOT_SEQ, the sector of the valid record with the highest one,
and the position of the next record in it, 128 when it has none. Without a valid record the first sector is taken (log 59). -/
def scanBoots (b0 b1 : List (BitVec 256)) : Nat × Bool × Nat :=
  let next (b : List (BitVec 256)) (i : Nat) : Nat := (freeFrom 128 i (b.drop i)).getD 128
  match highestBoot 0 b0, highestBoot 0 b1 with
  | some (n, i), some (m, j) => if n < m then ((m + 1) % 2 ^ 32, true, next b1 (j + 1)) else ((n + 1) % 2 ^ 32, false, next b0 (i + 1))
  | some (n, i), none => ((n + 1) % 2 ^ 32, false, next b0 (i + 1))
  | none, some (m, j) => ((m + 1) % 2 ^ 32, true, next b1 (j + 1))
  | none, none => (0, false, next b0 0)

/-! ### Repair records (R359) -/

/-- The object field of a RETIRE record. -/
def objField (o : Option Nat) : Nat :=
  match o with
  | some n => n % 2 ^ 20 + 2 ^ 20
  | none => 0

/-- A repair record's 32 bytes (Table 13.4). -/
def RepRec.word (r : RepRec) : BitVec 256 :=
  recordWord (r.type % 256 + 2 ^ 8 * (r.bank % 64 + 128 * r.wing.num) +
    2 ^ 16 * (if r.type = 3 then 0 else r.row % 512 + 2 ^ 9 * (if r.type = 1 then r.spare % 8 else 0)) + 2 ^ 32 * (r.rseq % 2 ^ 32) +
    2 ^ 64 * (r.boot % 2 ^ 32) + 2 ^ 96 * (r.time % 2 ^ 64) + 2 ^ 160 * objField r.obj0 + 2 ^ 192 * objField r.obj1)

/-- The record at a position of the ledger, when it is valid: its CRC holds and its TYPE is listed (R359). -/
def repRecOf (x : BitVec 256) : Option RepRec :=
  let obj (off : Nat) : Option Nat := if recordNum x off 4 / 2 ^ 20 % 2 = 1 then some (recordNum x off 4 % 2 ^ 20) else none
  let ty := recordNum x 0 1
  if crcHolds x && decide (1 ≤ ty ∧ ty ≤ 3) then
    some { type := ty, wing := Machine.wingOfBit (recordNum x 1 1 / 128 == 1), bank := recordNum x 1 1 % 64, row := recordNum x 2 2 % 512
           spare := recordNum x 2 2 / 512 % 8, rseq := recordNum x 4 4, boot := recordNum x 8 4, time := recordNum x 0xC 8
           obj0 := obj 0x14, obj1 := obj 0x18 }
  else none

/-- The header of a ledger copy with a GEN. -/
def ledgerHeader (gen : Nat) : BitVec 256 := recordWord (0x7F + 2 ^ 32 * (gen % 2 ^ 32))

/-- The GEN of a valid header: TYPE 0x7F, zero outside GEN and the CRC, which holds (R359). -/
def headerGen (x : BitVec 256) : Option Nat := if x = ledgerHeader (recordNum x 4 4) then some (recordNum x 4 4) else none

/-- The position of the last valid record or header in a copy, and its valid records. -/
def lastValid (i : Nat) : List (BitVec 256) → Nat
  | [] => 0
  | x :: t => Machine.hi (if (repRecOf x).isSome then i else 0) (lastValid (i + 1) t)

/-- The ledger copy in use (R359): whether it is copy 1, its GEN and its positions. Two headers of one GEN put neither in
use. -/
def copyInUse (c0 c1 : List (BitVec 256)) : Option (Bool × Nat × List (BitVec 256)) :=
  match c0.head?.bind headerGen, c1.head?.bind headerGen with
  | some a, some b => if a < b then some (true, b, c1) else if b < a then some (false, a, c0) else none
  | some a, none => some (false, a, c0)
  | none, some b => some (true, b, c1)
  | none, none => none

end Sys2Proof
end

