-- ==== Sys2Proof/Machine/Links.lean ====
section
/-! DEFINITION. Shaut links: port states, training, quiet mode, fast mode, retry, credits and rerouting (R275 to R297). -/
namespace Sys2Proof

/-- A frame's virtual lane (Tables 10.9 and 10.11). -/
def Frame.vl (f : Frame) : Nat :=
  let t := f.ftype.toNat
  if t < 0x10 then 0 else if t < 0x18 then 1 else if t < 0x20 then 2 else 3

/-- Takeover, alive, time, suspect and resignation frames (R249 step 1), and the answers to a takeover. -/
def Frame.urgent (f : Frame) : Bool :=
  let t := f.ftype.toNat
  decide (2 ≤ t ∧ t ≤ 7)

/-- A frame's flow within its domain: its group, or the domain's remote operations (R249 step 3). -/
def Frame.flow (f : Frame) : Nat := if f.ftype = 0x20 then 256 else f.group.toNat

/-- The wing whose frame builder builds a frame: for a frame of a relay the relay's own (R39), for others the edge it leaves by.
-/
def Frame.builder (f : Frame) : Option Wing :=
  let t := f.ftype.toNat
  if t = 0x08 ∨ (0x10 ≤ t ∧ t < 0x20) then some (Machine.wingOf f.obj.toNat) else none

/-- A number of `n` bytes of a frame body, lowest first (R5). -/
def Frame.num (f : Frame) (off : Nat) : Nat → Nat
  | 0 => 0
  | n + 1 => (f.body.getD off 0).toNat + 256 * Frame.num f (off + 1) n

/-- A lane 3 frame's sequence number (R295). -/
def Frame.seq3 (f : Frame) : BitVec 16 := BitVec.ofNat 16 (f.num 0x2E 2)

end Sys2Proof

namespace Sys2Proof.Machine

/-! ### Frames -/

/-- A chip's seat (R275). -/
def seatOf (c : BitVec 16) : Nat := c.toNat % 16

/-- Are two chips on one board (R223)? -/
def sameBoard (a b : BitVec 16) : Bool := a.toNat / 16 == b.toNat / 16

/-- Are two chips in one cluster (R223)? -/
def sameCluster (a b : BitVec 16) : Bool := a.toNat / 4096 == b.toNat / 4096

/-- Replace bytes of a frame body. -/
def setBytes (body : List Byte) (off n v : Nat) : List Byte :=
  (List.range 48).map (fun i => if off ≤ i ∧ i < off + n then BitVec.ofNat 8 (v / 256 ^ (i - off)) else body.getD i 0)

/-- Number a lane 3 frame for its target, with this chip's BOOT_SEQ (R295, R296). -/
def State.number3 (s : State) (f : Frame) : Frame × State :=
  if f.vl ≠ 3 then (f, s)
  else
    let n := (s.chip f.dst).sent3 + 1
    ({ f with body := setBytes (setBytes f.body 0x28 4 s.iml.bootSeq) 0x2E 2 n.toNat },
     s.modChip f.dst (fun c => { c with sent3 := n }))

/-- A trace event and a count for a level frame sent (R402, R404). -/
def State.frameSent (s : State) (w : Wing) (f : Frame) : State :=
  let s1 := (s.event 3 (bCMB w) f.ftype.toNat f.obj.toNat f.gen.toNat).stir w
  let t := f.ftype.toNat
  if 0x10 ≤ t ∧ t < 0x20 then s1.perf 5 else s1

/-! ### Tunnel contexts, and the stamps of TIME frames (R247, R391) -/

/-- A peer context. -/
def State.ctx (s : State) (i : Nat) : TunCtx := tget TunCtx.closed s.tun.ctxs i

/-- Change a peer context. -/
def State.modCtx (s : State) (i : Nat) (f : TunCtx → TunCtx) : State :=
  { s with tun := { s.tun with ctxs := tmod TunCtx.closed s.tun.ctxs i f } }

/-- The context of a peer chip, in any state but CLOSED. -/
def State.ctxOf (s : State) (c : BitVec 16) : Option Nat :=
  (s.tun.ctxs.find? (fun x => x.2.peer == c && x.2.state != .closed)).map Prod.fst

/-- A request that was queued with stamp `old` leaves now: its T1 is the time at which it leaves. -/
def State.restamp (s : State) (c : BitVec 16) (old : Nat) : State :=
  let s1 : State := if s.tsync.t1 = some old ∧ s.tsync.master = some c then { s with tsync := { s.tsync with t1 := some s.now } } else s
  match s1.ctxOf c with
  | some i => if (s1.ctx i).probeT1 = some old then s1.modCtx i (fun x => { x with probeT1 := some s.now }) else s1
  | none => s1

/-- A frame leaves: a TIME frame of this chip takes its T1, or its T3 in an answer, at that moment (R247, R391);
one of another chip that passes through (R294) goes on as it is. -/
def State.stamp (s : State) (f : Frame) : Frame × State :=
  let off := if f.num 8 8 = 0 ∧ f.num 16 8 = 0 then 0 else 16
  if f.ftype ≠ 0x03 ∨ f.src ≠ s.iml.chip ∨ f.num off 8 = s.now % 2 ^ 64 then (f, s)
  else ({ f with body := setBytes f.body off 8 s.now }, if off = 0 then s.restamp f.dst (f.num 0 8) else s)

/-! ### Scheduling (R249) -/

/-- The first of a list of keys after `k`, wrapping; the keys are rising. -/
def nextKey (l : List Nat) (k : Nat) : Option Nat :=
  match l.find? (fun x => decide (k < x)) with
  | some x => some x
  | none => l.head?

/-- Insert a key into a rising list without repeats. -/
def insKey (l : List Nat) (k : Nat) : List Nat :=
  match l with
  | [] => [k]
  | x :: t => if k < x then k :: x :: t else if k = x then x :: t else x :: insKey t k

/-- The keys of a list, rising and without repeats. -/
def keysOf (l : List Nat) : List Nat := l.foldl insKey []

/-- A domain with nothing waiting keeps no deficit (R249): those of the frames that wait are kept. -/
def Sched.keep (c : Sched) (waiting : List Frame) : Sched :=
  { c with deficits := c.deficits.filter (fun x => waiting.any (fun f => f.dom.toNat == x.1)) }

/-- The next frame by R249 among those that may be sent, as its index in the list; `waiting` is everything that waits. The
order in which domains are visited is that of their numbers (log 35). -/
def pickFrame (weight : Nat → Nat) (c : Sched) (waiting cands : List Frame) : Option (Nat × Sched) :=
  match (idxsFrom Frame.urgent 0 cands).head? with
  | some i => some (i, c)
  | none =>
    let c0 := c.keep waiting
    let doms := keysOf (cands.map (fun f => f.dom.toNat))
    let c1 : Option Sched :=
      if doms.contains c0.lastDom && decide (64 ≤ tget 0 c0.deficits c0.lastDom) then some c0
      else (nextKey doms c0.lastDom).map (fun d =>
        { c0 with deficits := tmod 0 c0.deficits d (fun x => x + 64 * hi 1 (weight d)), lastDom := d })
    match c1 with
    | none => none
    | some c2 =>
      let d := c2.lastDom
      let flows := keysOf ((cands.filter (fun f => f.dom.toNat == d)).map Frame.flow)
      match nextKey flows (tget 0 c2.flows d) with
      | none => none
      | some fl =>
        ((idxsFrom (fun (f : Frame) => f.dom.toNat == d && f.flow == fl) 0 cands).head?).map (fun i =>
          (i, { c2 with deficits := tmod 0 c2.deficits d (fun x => x - 64), flows := tset 0 c2.flows d fl }))

/-! ### Ports -/

/-- Is a port enabled: its link table entry, and not the own-seat port (R275, R276)? -/
def State.portOn (s : State) (k : Nat) : Bool :=
  (s.img.links[k]?).any (fun e => e.enabled) && k != seatOf s.iml.chip

/-- A port's link table entry. -/
def State.link (s : State) (k : Nat) : LinkEnt :=
  (s.img.links[k]?).getD { enabled := false, txPreset := 0, retryLimit := 0, quietAfter := 0, coldLease := 0 }

/-- May the fast path of a port run: is its wing ACTIVE or IDLE? -/
def State.fastOk (s : State) (k : Nat) : Bool :=
  match (s.pwr (shpWing k)).state with
  | .active => true
  | .idle => true
  | _ => false

/-- Send a quiet frame (R279). -/
def State.sendQuiet (s : State) (k cls : Nat) : State :=
  (s.emit (.quiet k (encodeQuiet (BitVec.ofNat 4 (seatOf s.iml.chip)) (BitVec.ofNat 4 cls)))).modPort k (fun p =>
    { p with lastTx := s.now })

/-- The ACK that a port's blocks carry: the last LSEQ accepted in order (R290). -/
def Port.ack (p : Port) : BitVec 8 := p.expect - 1

/-- The EOF block of a frame that a port sends: credits return in IDLE and REFUSE blocks (R290, R292, log 5). -/
def Port.eof (p : Port) (lseq : BitVec 8) (f : Frame) : Eof :=
  { lseq := lseq, ack := p.ack, vl := BitVec.ofNat 2 f.vl, crVl := 0, crCnt := 0 }

/-- May a frame be sent on a port now (R291 to R293, R287)? The first 16 refused frames are the refuse list; while it is full, the
lanes of refused frames hold. -/
def Port.maySend (p : Port) (f : Frame) : Bool :=
  decide (0 < p.credits.getD f.vl 0) && decide (p.unacked.length < 32) &&
    !(decide (16 ≤ p.refusedQ.length) && p.refusedQ.any (fun x => x.2.vl == f.vl))

/-- Send waiting frames of a FAST port for as long as lanes, window and credits allow (R290 to R292), with fuel. While CMB is contained
only the TAKEOVER frames of its handover go (R340). -/
def State.pump (n : Nat) (s : State) (k : Nat) : State :=
  match n with
  | 0 => s
  | n + 1 =>
    let p := s.port k
    if p.state ≠ .fast ∨ p.quiescing ∨ !s.fastOk k then s
    else
      let cands := p.waitQ.filter (fun f => p.maySend f && (!s.contained (bCMB (shpWing k)) || f.ftype == 0x04))
      match pickFrame (fun d => (s.domain d).weight) p.sched p.waitQ cands with
      | none => s
      | some (i, c) =>
        match cands[i]? with
        | none => s
        | some g =>
          let (f, s0) := s.stamp g
          let s1 := s0.modPort k (fun p => { p with
            waitQ := p.waitQ.erase g, sched := c, unacked := p.unacked ++ [{ lseq := p.lseq, f := f }]
            ackAt := if p.unacked.isEmpty then s.now else p.ackAt, lseq := p.lseq + 1
            credits := updAt p.credits f.vl (fun x => x - 1), lastTx := s.now
            lastUse := if f.ftype = 0x02 then p.lastUse else s.now, peerQuiesce := false })
          State.pump n ((s1.emit (.frame k (p.eof p.lseq f) f)).frameSent (shpWing k) f) k

/-- Send what a port may send; a pass sends at most its window. -/
def State.portGo (s : State) (k : Nat) : State := s.pump 64 k

/-- Fast transmission starts (R286): the port is RESUMING, and IDLE blocks go out with the ACK of a port that enters FAST. -/
def State.startFast (s : State) (k : Nat) : State :=
  (s.modPort k (fun p => { p with state := .resuming, onWake := false })).emit (.run k (.idle 0xFF 0 0))

/-- Start fast transmission on a QUIET or COLD port that has a frame to send (R286, R283). The longer times of R281 hold on a link
that is COLD at either end's announcement (DESIGN CHOICE, log 82). -/
def State.resume (s : State) (k : Nat) : State :=
  let go (cold : Bool) (s : State) : State :=
    ((s.sendQuiet k 3).startFast k).modPort k (fun p => { p with
      await := some { cls := 3, resent := false, cold := cold, at_ := s.now + 150 }, coldWish := false, coldMine := false })
  match (s.port k).state with
  | .quiet => go false s
  | .cold => go true (s.coldHeard k)
  | _ => s

/-- Is another seat's link to seat `k` up by its most recent ALIVE frame, and our own link to that seat FAST or QUIET
(R294)? -/
def State.mayForward (s : State) (k r : Nat) : Bool :=
  r != k && r != seatOf s.iml.chip && (match (s.port r).state with
    | .fast => true
    | .quiet => true
    | _ => false) && (s.chip (s.boardChip r)).links.getLsbD k

/-- The intermediate seat for seat `k` (R294): the lowest that qualifies. -/
def State.intermediate (s : State) (k : Nat) : Option Nat := (List.range 16).find? (fun r => s.mayForward k r)

/-- Let the frames that wait at a port go: a FAST port sends them, and a QUIET or COLD one resumes (R286). -/
def State.portStart (s : State) (k : Nat) : State :=
  let p := s.port k
  match p.state with
  | .fast => s.portGo k
  | .quiet => if p.waitQ.isEmpty then s else s.resume k
  | .cold => if p.waitQ.isEmpty then s else s.resume k
  | _ => s

/-- Put a frame that its own edge built, or that has crossed the seam, into a port's queue and let it go; it wakes the port's
wing while the wing is neither ACTIVE nor IDLE. -/
def State.portPut (s : State) (k : Nat) (f : Frame) : State :=
  let s1 := s.modPort k (fun p => { p with waitQ := p.waitQ ++ [f], sched := p.sched.keep p.waitQ })
  if s.fastOk k then s1.portStart k else s1.wake (shpWing k) 3 0

/-- Must a unit from one wing wait at the seam for another: the wing is not ACTIVE, or the seam is contained (R32, Table 12.5)?
-/
def State.mustWait (s : State) (origin : Option Wing) (w : Wing) : Bool :=
  origin == some w.other && (!s.active w || s.contained bSEAM)

/-- A unit from one wing that need not wait crosses the seam into another at once. -/
def State.crossFrom (s : State) (origin : Option Wing) (w : Wing) : State := if origin = some w.other then s.crossing w else s

/-- Give a frame to a port: one that the other edge's frame builder built crosses the seam as one unit (R39). -/
def State.portQueue (s : State) (origin : Option Wing) (k : Nat) (f : Frame) : State :=
  if s.mustWait origin (shpWing k) then (s.toSeam (shpWing k) (.put (some k) f)).wake (shpWing k) 3 0
  else (s.crossFrom origin (shpWing k)).portPut k f

/-- A port whose wing has become ACTIVE (R286): fast transmission that waited for the wing starts, and waiting frames
go. -/
def State.portWake (s : State) (k : Nat) : State :=
  if (s.port k).onWake ∧ (s.port k).state = .quiet then s.startFast k else s.portStart k

/-- Frames that this chip sent through seat `r` for seat `k`, in its own or another chip's name, and that `r` has not acknowledged
(R294): those with FWD at the port of a seat that is not their target's. -/
def State.viaLeft (s : State) (k r : Nat) : Bool :=
  let p := s.port r
  let hit (f : Frame) : Bool := f.fwd && seatOf f.dst == k && r != k
  p.waitQ.any hit || p.unacked.any (fun x => hit x.f) || p.refusedQ.any (fun x => hit x.2)

/-- The seat through which frames for seat `k` go, when they do not go direct (SHP_LINK.REROUTED and VIA): the intermediate of a DOWN
link, or the one that has not acknowledged every frame sent through it (R294). -/
def State.viaNow (s : State) (k : Nat) : Option Nat :=
  let left := (s.port k).via.filter (s.viaLeft k)
  if (s.port k).state = .down then (s.intermediate k).or left else left

/-- Send a frame to a seat of the board, directly or through an intermediate (R294), from the wing whose frame builder built it
(R39). A TAKEOVER for a seat whose port is FENCED goes through an intermediate too, so that a handover completes when a wing is contained
(R340; DEDUCED, log 92). -/
def State.toSeat (s : State) (origin : Option Wing) (k : Nat) (f : Frame) : State :=
  let p := s.port k
  if p.state = PortState.down ∨ p.state = PortState.fenced ∧ f.ftype = 0x04 ∧ (s.intermediate k).isSome then
    match s.intermediate k with
    | some r => (s.modPort k (fun p => { p with via := some r })).portQueue origin r { f with fwd := true }
    | none => s.modPort k (fun p => { p with waitQ := p.waitQ ++ [f] })
  else match p.via.filter (s.viaLeft k) with
    | some r => s.portQueue origin r { f with fwd := true }
    | none => (s.modPort k (fun p => { p with via := none })).portQueue origin k f

/-- A frame that this chip forwards for another is discarded when its link is not up; the port it came by counts it (R294). -/
def State.dropForward (s : State) (f : Frame) : State :=
  s.modPort (seatOf f.src) (fun p => { p with qbad := sat 0xFFFF p.qbad })

/-- Is a frame at the port of seat `k` one that this chip forwards for another: FWD at the port of its target's own seat (R294)? -/
def foreign (k : Nat) (f : Frame) : Bool := f.fwd && seatOf f.dst == k

/-- The frames that wait at a DOWN port go to their seats through an intermediate, or wait when there is none; those that this chip
forwards for others are discarded (R294). -/
def State.reroute (s : State) (k : Nat) : State :=
  let p := s.port k
  if p.state ≠ .down then s
  else each (fun f s =>
    if foreign k f then s.dropForward f else s.toSeat (some (shpWing k)) (seatOf f.dst) { f with fwd := false }) p.waitQ
    (s.modPort k (fun p => { p with waitQ := [] }))

/-- A link goes DOWN (R277, R294): frames unacknowledged, refused and waiting are sent again through an intermediate. -/
def State.linkDown (s : State) (k why : Nat) : State :=
  let s1 := (s.offCold k).modPort k (fun p => { p with
    state := .down, why := why, downCnt := sat 0xFF p.downCnt, downAt := s.now
    waitQ := p.unacked.map (fun x => x.f) ++ p.refusedQ.map Prod.snd ++ p.waitQ, unacked := [], refusedQ := []
    await := none, quiescing := false, quiesced := false, peerQuiesce := false, coldWish := false, coldMine := false
    onWake := false, replays := 0, margin := none })
  ((s1.raise (bSHP k) 0).reroute k).work (.linkDown k)

/-- Enter FAST with replay state and credits reset (R285, R286). -/
def State.enterFast (s : State) (k : Nat) : State :=
  (s.modPort k (fun p => { p with
    state := .fast, trained := true, await := none, onWake := false, lseq := 0, expect := 0, nakSent := false
    credits := [8, 16, 16, 8], replays := 0
    waitQ := p.unacked.map (fun x => x.f) ++ p.refusedQ.map Prod.snd ++ p.waitQ, unacked := [], refusedQ := []
    quiescing := false, quiesced := false, peerQuiesce := false, lastUse := s.now, sched := p.sched.keep p.waitQ })).portGo k

/-! ### Training (R285) -/

/-- Begin a training attempt from DETECT. -/
def State.detect (s : State) (k attempt : Nat) : State :=
  (s.modPort k (fun p => { p with
    state := .training, phase := 0, phaseAt := s.now, attempt := attempt, aliveIn := 0, trainIn := 0 })).sendQuiet k 5

/-- The longest time of a training phase in ns (Table 10.6). -/
def phaseLimit (ph : Nat) : Nat :=
  match ph with
  | 0 => 20000
  | 1 => 50000
  | 2 => 2000000
  | 3 => 2000
  | _ => 10000

/-- The TRAIN blocks that a port sends in EQ and CHECK (Table 10.7). -/
def State.sendTrain (s : State) (k : Nat) : State := s.emit (.run k (.train s.iml.chip (s.iml.buildId.truncate 32)))

/-- A training phase completes (R285). DETECT needs two ALIVE frames, and LOCK sends the PRBS31 pattern; CHECK needs eight TRAIN blocks;
the ends of the others are the PHY's. -/
def State.phaseDone (s : State) (k : Nat) : State :=
  let p := s.port k
  if p.state ≠ .training then s
  else
    let next := s.modPort k (fun p => { p with phase := p.phase + 1, phaseAt := s.now })
    match p.phase with
    | 0 => if 2 ≤ p.aliveIn then next.emit (.prbs k) else s
    | 1 => next.sendTrain k
    | 2 => next
    | 3 => (next.modPort k (fun p => { p with trainIn := 0 })).sendTrain k
    | _ => if 8 ≤ p.trainIn then (s.emit (.run k (.idle 0xFF 0 0))).enterFast k else s

/-- A training attempt exceeds a phase time (R285): the next attempt of the round, or DOWN after the third. -/
def State.phaseTimeout (s : State) (k : Nat) : State :=
  let p := s.port k
  if p.state ≠ .training ∨ s.now < p.phaseAt + phaseLimit p.phase then s
  else if p.attempt < 2 then s.detect k (p.attempt + 1)
  else s.linkDown k 3

/-- A new training round begins 10 ms after the link went DOWN or a round failed, but not after a wiring or image fault
(R285). -/
def State.retrain (s : State) (k : Nat) : State :=
  let p := s.port k
  if p.state = PortState.down ∧ 3 ≤ p.why ∧ p.downAt + 10000000 ≤ s.now ∧ p.loop.isNone then s.detect k 0 else s

/-- A TRAIN block is received in CHECK (R285). -/
def State.trainBlock (s : State) (k : Nat) (chip : BitVec 16) (build : BitVec 32) : State :=
  let p := s.port k
  if p.state ≠ .training ∨ p.phase ≠ 4 then s
  else if !(sameBoard chip s.iml.chip && seatOf chip == k && build == s.iml.buildId.truncate 32) then
    (s.modPort k (fun p => { p with peerChip := chip })).linkDown k 2
  else s.modPort k (fun p => { p with peerChip := chip, trainIn := p.trainIn + 1 })

/-! ### Quiet mode (R278 to R284) -/

/-- The quiet-frame masks of a port (Table 11.12). -/
def State.qmask (s : State) (k : Nat) : BitVec 16 × BitVec 3 := (s.img.power.qmask[k]?).getD (0, 0)

/-- Is a port's quiet receiver heard: on in every state but OFF, and not discarding as in FENCED (Table 10.3)? -/
def Port.hears (p : Port) : Bool :=
  match p.state with
  | .off => false
  | .fenced => false
  | _ => p.loop.isNone

/-- A waking quiet frame passes the masks (R280): class bits 1 to 3 stand in the mask's bits 0 to 2. -/
def State.quietMatch (s : State) (k seat cls : Nat) : Bool :=
  (s.qmask k).1.getLsbD seat && (s.qmask k).2.getLsbD (cls - 1)

/-- A frame of any class but ACK takes a COLD link to QUIET (R283). -/
def State.leaveCold (s : State) (k : Nat) : State :=
  if (s.port k).state = .cold then (s.coldHeard k).modPort k (fun p => { p with state := .quiet, coldMine := false }) else s

/-- Is a port's quiet transmitter on (Table 10.3)? -/
def Port.quietTx (p : Port) : Bool :=
  match p.state with
  | .training => true
  | .quiet => true
  | .resuming => true
  | .down => true
  | _ => false

/-- Send a quiet ACK, when the port's quiet transmitter is on (Tables 10.3, 10.5). -/
def State.quietAckBack (s : State) (k : Nat) : State :=
  if (s.port k).quietTx then s.sendQuiet k 6 else s

/-- A waking frame WAKE_Q or WAKE_K is received (R280). -/
def State.quietWake (s : State) (k seat : Nat) (w : Wing) : State :=
  let cls := if w = .q then 1 else 2
  if !(s.port k).hears then s
  else if !s.quietMatch k seat cls then s.modPort k (fun p => { p with qdrop := sat 0xFFFF p.qdrop })
  else ((s.leaveCold k).quietAckBack k).wakeIfDown w 5 (16 * k + cls)

/-- Start fast transmission in answer to an ARRIVAL when the wing's fast path may run (R286). -/
def State.answerResume (s : State) (k : Nat) : State :=
  if s.fastOk k then s.startFast k
  else (s.sendQuiet k 6).modPort k (fun p => { p with onWake := true })

/-- A waking frame ARRIVAL is received (R280, R286). A RESUMING port's fast signal acknowledges it (R282). -/
def State.quietArrive (s : State) (k seat : Nat) : State :=
  if !(s.port k).hears then s
  else if !s.quietMatch k seat 3 then s.modPort k (fun p => { p with qdrop := sat 0xFFFF p.qdrop })
  else
    let s1 := s.wakeIfDown (shpWing k) 5 (16 * k + 3)
    match (s.port k).state with
    | .quiet => (s1.modPort k (fun p => { p with await := none, coldWish := false })).answerResume k
    | .cold => (s1.leaveCold k).answerResume k
    | .resuming => s1.modPort k (fun p => { p with await := none })
    | _ => s1.quietAckBack k

/-- A quiet ACK is received (R281, R283): a COLD announcement is then in force at both ends. -/
def State.quietAcked (s : State) (k : Nat) : State :=
  let p := s.port k
  if !p.hears then s
  else match p.await with
    | none => s
    | some a =>
      if a.cls = 7 then
        s.modPort k (fun p => { p with
          await := none, state := .cold, coldWish := false, coldMine := true
          leaseEnd := s.now + 1000000 * (s.link k).coldLease })
      else s.modPort k (fun p => { p with await := none })

/-- A quiet COLD frame is received (R283): it is acknowledged. A QUIET or COLD link is then COLD at this end, and the peer counts as heard
until its lease ends; one that trains, resumes or is DOWN stays so (DEDUCED, log 81). -/
def State.quietCold (s : State) (k : Nat) : State :=
  let p := s.port k
  if !p.hears ∨ p.state = .fast then s
  else if p.state = .quiet ∨ p.state = .cold then
    ((s.sendQuiet k 6).modChip (s.boardChip k) (fun c => { c with coldTill := s.now + 1000000 * (s.link k).coldLease })).modPort k
      (fun p => { p with state := .cold })
  else s.sendQuiet k 6

/-- No acknowledgement of a waking frame arrives in time (R281): the frame is sent once more, then the link goes DOWN. -/
def State.quietTimeout (s : State) (k : Nat) : State :=
  match (s.port k).await with
  | none => s
  | some a =>
    let unit := if a.cold then 5000 else 1000
    if a.cls = 7 then s
    else if a.at_ + 2 * unit ≤ s.now then s.linkDown k 4
    else if a.at_ + unit ≤ s.now ∧ !a.resent then
      (s.sendQuiet k a.cls).modPort k (fun p => { p with await := some { a with resent := true } })
    else s

/-- A COLD announcement is not acknowledged within 2 µs (R283). -/
def State.coldTimeout (s : State) (k : Nat) : State :=
  match (s.port k).await with
  | none => s
  | some a => if a.cls = 7 ∧ a.at_ + 2000 ≤ s.now then s.linkDown k 4 else s

/-- Announce a QUIET link cold (R283). -/
def State.sendCold (s : State) (k : Nat) : State :=
  (s.sendQuiet k 7).modPort k (fun p => { p with
    await := some { cls := 7, resent := false, cold := false, at_ := s.now + 150 }, coldWish := true })

/-- Enter QUIET after a quiesce (R287); frames that came meanwhile start the link again. -/
def State.enterQuiet (s : State) (k : Nat) : State :=
  let s1 := s.modPort k (fun p => { p with
    state := .quiet, quiescing := false, quiesced := false, peerQuiesce := false, await := none, margin := none })
  if !(s.port k).waitQ.isEmpty ∨ !(s.port k).refusedQ.isEmpty then s1.resume k
  else if (s.port k).coldWish then s1.sendCold k
  else s1

/-- A resuming port has block lock and a valid IDLE block (R286). -/
def State.resumeLock (s : State) (k : Nat) : State :=
  if (s.port k).state = .resuming ∧ s.fastOk k then s.enterFast k else s

/-! ### Fast mode (R288 to R293) -/

/-- The sent frames left after an ACK: it covers every frame up to the one it names (R290). -/
def ackDrop (l : List TxFrame) (ack : BitVec 8) : List TxFrame :=
  match (idxsFrom (fun (x : TxFrame) => x.lseq == ack) 0 l).head? with
  | some i => l.drop (i + 1)
  | none => l

/-- QUIESCE goes out once every frame sent is acknowledged, as a request or as an answer (R287). -/
def State.quiesceGo (s : State) (k : Nat) : State :=
  let p := s.port k
  if p.state ≠ .fast ∨ !p.unacked.isEmpty then s
  else if p.peerQuiesce ∧ p.waitQ.isEmpty ∧ p.refusedQ.isEmpty then (s.emit (.ctl k (.quiesce p.ack))).enterQuiet k
  else if p.quiescing ∧ !p.quiesced then
    (s.emit (.ctl k (.quiesce p.ack))).modPort k (fun p => { p with quiesced := true })
  else s

/-- Take an ACK (R290, R291). -/
def State.takeAck (s : State) (k : Nat) (ack : BitVec 8) : State :=
  let p := s.port k
  let l := ackDrop p.unacked ack
  if l.length = p.unacked.length then s
  else s.modPort k (fun p => { p with unacked := l, replays := 0, ackAt := s.now })

/-- Take a credit return (R292). -/
def State.takeCredit (s : State) (k : Nat) (vl n : Nat) : State :=
  s.modPort k (fun p => { p with
    credits := updAt p.credits vl (fun x => Nat.min (match vl with
      | 0 => 8
      | 1 => 16
      | 2 => 16
      | _ => 8) (x + n)) })

/-- Is the fast path of a port receiving: FAST, its wing's frame logic running, not in loopback? It runs on while the wing enters a
sleep, until the port is QUIET (R287, R317). -/
def State.receiving (s : State) (k : Nat) : Bool :=
  (s.port k).state == .fast && (s.fastOk k || (s.pwr (shpWing k)).state == .entering) && (s.port k).loop.isNone

/-- An IDLE block is received (R289, R290, R292). -/
def State.idleBlock (s : State) (k : Nat) (ack : BitVec 8) (vl n : Nat) : State :=
  if !s.receiving k then s else (((s.takeAck k ack).takeCredit k vl n).portGo k).quiesceGo k

/-- The counts of a margining point grow (R401): at ABORT_AT errors the offset returns to zero, and the point reports ABORTED. -/
def State.marginCount (s : State) (k headers crcs replays : Nat) : State :=
  match (s.port k).margin with
  | none => s
  | some m =>
    let n : MarginPt := { m with headers := m.headers + headers, crcs := m.crcs + crcs, replays := m.replays + replays }
    s.modPort k (fun p =>
      if p.abortAt ≤ n.headers + n.crcs + n.replays then
        { p with margin := none, marginRes := some (n.headers, n.crcs, n.replays, true) }
      else { p with margin := some n })

/-- Replay the frames from index `i` of those sent (R291). -/
def State.replay (s : State) (k i : Nat) : State :=
  let p := s.port k
  let l := p.unacked.drop i
  if l.isEmpty then s
  else if (s.link k).retryLimit ≤ p.replays then s.linkDown k 5
  else
    let s1 := s.modPort k (fun p => { p with
      replays := p.replays + 1, retryCnt := satAdd 0xFFFF p.retryCnt l.length, ackAt := s.now, lastTx := s.now })
    ((each (fun x s => s.emit (.frame k (p.eof x.lseq x.f) x.f)) l s1).raise (bSHP k) 1).marginCount k 0 0 l.length

/-- A NAK is received (R291). -/
def State.nakBlock (s : State) (k : Nat) (lseq ack : BitVec 8) : State :=
  if !s.receiving k then s
  else
    let s1 := s.takeAck k ack
    match (idxsFrom (fun (x : TxFrame) => x.lseq == lseq) 0 (s1.port k).unacked).head? with
    | some i => s1.replay k i
    | none => s1.quiesceGo k

/-- ACK has not advanced for 500 ns while frames are outstanding (R291). -/
def State.replayTimeout (s : State) (k : Nat) : State :=
  let p := s.port k
  if !s.receiving k ∨ p.unacked.isEmpty ∨ s.now < p.ackAt + 500 then s else s.replay k 0

/-- A REFUSE is received (R293): the frame counts as accepted and moves to the refuse list for 1 µs. -/
def State.refuseBlock (s : State) (k : Nat) (lseq ack : BitVec 8) (vl n : Nat) : State :=
  if !s.receiving k then s
  else
    let hit := (s.port k).unacked.find? (fun x => x.lseq == lseq)
    let s0 := s.takeAck k ack
    let s1 := match hit with
      | some x => s0.modPort k (fun p => { p with
          unacked := p.unacked.filter (fun y => y.lseq != lseq), refusedQ := p.refusedQ ++ [(s.now + 1000, x.f)] })
      | none => s0
    ((s1.takeCredit k vl n).portGo k).quiesceGo k

/-- A refused frame is sent again as a new frame (R293). A frame that waited for a place in the full list takes the one that frees, and
its 1 µs begins. -/
def State.refuseResend (s : State) (k : Nat) : State :=
  match (s.port k).refusedQ with
  | [] => s
  | (t, f) :: rest =>
    if s.now < t then s
    else (s.modPort k (fun p => { p with refusedQ := updAt rest 15 (fun x => (s.now + 1000, x.2)) })).portPut k f

/-- A FAST link idle for QUIET_AFTER, or whose wing adjourns, begins to quiesce (R287). -/
def State.quiesceStart (s : State) (k : Nat) : State :=
  let p := s.port k
  let qa := (s.link k).quietAfter
  let due := (qa != 0 && decide (p.lastUse + 1000 * qa ≤ s.now)) || (s.pwr (shpWing k)).state == .entering
  if p.state ≠ .fast ∨ p.quiescing ∨ !due ∨ !p.waitQ.isEmpty ∨ !p.refusedQ.isEmpty then s
  else (s.modPort k (fun p => { p with quiescing := true })).quiesceGo k

/-- A QUIESCE block is received (R287): the answer to one's own request, or a request, which a frame to send refuses. -/
def State.quiesceBlock (s : State) (k : Nat) (ack : BitVec 8) : State :=
  if !s.receiving k then s
  else
    let s1 := s.takeAck k ack
    let p := s1.port k
    if p.quiescing ∧ p.quiesced then s1.enterQuiet k
    else if !p.waitQ.isEmpty ∨ !p.refusedQ.isEmpty then
      (s1.modPort k (fun p => { p with quiescing := false, quiesced := false })).portGo k
    else (s1.modPort k (fun p => { p with quiescing := false, peerQuiesce := true })).quiesceGo k

/-- A fast-mode frame fails its CRC, or carries an unexpected LSEQ (R290). -/
def State.badFrame (s : State) (k : Nat) : State :=
  let p := s.port k
  if !s.receiving k ∨ p.nakSent then s
  else (s.emit (.ctl k (.nak p.expect p.ack))).modPort k (fun p => { p with nakSent := true })

/-- Accept a frame at link level (R290): none when its LSEQ is not the one expected. A frame cancels a quiesce request of
this end (R287). -/
def State.acceptFrame (s : State) (k : Nat) (e : Eof) (f : Frame) : Option State :=
  if !s.receiving k then none
  else
    let p := s.port k
    if e.lseq ≠ p.expect then none
    else
      let s1 := s.modPort k (fun p => { p with
        expect := p.expect + 1, nakSent := false, lastUse := if f.ftype = 0x02 then p.lastUse else s.now
        quiescing := false, quiesced := false, peerQuiesce := false })
      some ((s1.takeAck k e.ack).takeCredit k e.crVl.toNat e.crCnt.toNat)

/-- Return a frame's credit as it leaves its buffer, or refuse the frame (R292, R293). -/
def State.finishFrame (s : State) (k : Nat) (e : Eof) (f : Frame) (taken : Bool) : State :=
  let a := (s.port k).ack
  let vl : BitVec 2 := BitVec.ofNat 2 f.vl
  (if taken then s.emit (.ctl k (.idle a vl 1)) else s.emit (.ctl k (.refuse e.lseq a vl 1))).portGo k

/-- A frame for another chip at an intermediate seat (R294): forwarded once, else discarded. -/
def State.forward (s : State) (k : Nat) (f : Frame) : State :=
  let dest := seatOf f.dst
  let up := match (s.port dest).state with
    | .fast => true
    | .quiet => true
    | _ => false
  if f.fwd && f.src != s.iml.chip && sameBoard f.dst s.iml.chip && up then s.portQueue (some (shpWing k)) dest f
  else s.modPort k (fun p => { p with qbad := sat 0xFFFF p.qbad })

end Sys2Proof.Machine
end

