-- ==== Sys2Proof/Machine/Tunnel.lean ====
section
/-! DEFINITION. The tunnel port: peer contexts, transport, retransmission and paths (R301 to R305, R370, R371). -/
namespace Sys2Proof.Machine

/-- The base retransmit time of a context in µs (R304, R305): doubled on EDGE. -/
def TunCtx.base (c : TunCtx) : Nat := if c.edge then 2 * c.rto else c.rto

/-- The retransmit pool's entries in use (R303). -/
def State.poolUsed (s : State) : Nat := s.tun.ctxs.foldl (fun n x => n + x.2.unacked.length) 0

/-- The reorder pool's entries in use (R303). -/
def State.reorderUsed (s : State) : Nat := s.tun.ctxs.foldl (fun n x => n + x.2.reorder.length) 0

/-- Does the tunnel port run: kingside ACTIVE, TUN not contained? -/
def State.tunRuns (s : State) : Bool := s.active .k && !s.contained bTUN

/-- The frames that contexts may send now: OPEN, a window of 256 (R303). -/
def State.tunCands (s : State) : List (Nat × Frame) :=
  s.tun.ctxs.foldl (fun l x =>
    if x.2.state == .open && decide (x.2.unacked.length < 256) then
      match x.2.waitQ with
      | f :: _ => l ++ [(x.1, f)]
      | [] => l
    else l) []

/-- All frames that wait at the tunnel port. -/
def State.tunWaiting (s : State) : List Frame := s.tun.ctxs.foldl (fun l x => l ++ x.2.waitQ) []

/-- The map of what a context holds beyond its next expected SEQ (R301). -/
def TunCtx.map (c : TunCtx) : BitVec 256 :=
  c.reorder.foldl (fun m x => m ||| BitVec.twoPow 256 (x.1 - c.rcvNxt - 1).toNat) 0

/-- The head of a packet of a context: its path, and its current ACK and SACK (R301, R303). -/
def TunCtx.head (c : TunCtx) (edge : Bool) (seq : BitVec 16) : PktHead :=
  { edge := edge, dst := c.peer, seq := seq, ack := c.rcvNxt, sack := c.map.truncate 16 }

/-- Send one DATA packet of a context (R303): the current ACK rides with it. -/
def State.sendData (s : State) (i : Nat) (g : Frame) : State :=
  let c := s.ctx i
  let edge := c.edge && !c.trialArm
  let (f, s0) := s.stamp g
  let s1 := s0.modCtx i (fun c => { c with
    waitQ := c.waitQ.erase g, unacked := c.unacked ++ [{ seq := c.sndNxt, at_ := s.now, f := f }], sndNxt := c.sndNxt + 1
    ackOwed := none
    trial := if c.edge && c.trialArm then some c.sndNxt else c.trial, trialArm := false
    lastUse := s.now, lastTx := s.now })
  (s1.emit (.data (c.head edge c.sndNxt) f)).frameSent .k f

/-- Send waiting frames for as long as windows and the shared pool of 1,024 allow, in the order of R249, with fuel. -/
def State.tunPump : Nat → State → State
  | 0, s => s
  | n + 1, s =>
    if !s.tunRuns ∨ 1024 ≤ s.poolUsed then s
    else
      let cands := s.tunCands
      match pickFrame (fun d => (s.domain d).weight) s.tun.sched s.tunWaiting (cands.map Prod.snd) with
      | none => s
      | some (j, c) => match cands[j]? with
        | none => s
        | some (i, f) =>
          let s0 : State := { s with tun := { s.tun with sched := c } }
          State.tunPump n (s0.sendData i f)

/-- Send what the tunnel port may send. -/
def State.tunGo (s : State) : State := s.tunPump 1100

/-- Send OPEN on a context (R302), once the tunnel port runs (Table 12.5). -/
def State.sendOpen (s : State) (i : Nat) : State :=
  let s1 := s.modCtx i (fun c => { c with
    state := .opening, sentAt := s.now, busyAt := none, lastUse := s.now, openDue := !s.tunRuns })
  if s.tunRuns then s1.emit (.open ((s.ctx i).head (s.ctx i).edge 0) (BitVec.ofNat 32 s.iml.bootSeq) s.iml.buildId) else s1

/-- May an on-need context, a DEAD one too, be closed for another (R370)? -/
def TunCtx.closable (c : TunCtx) (now : Nat) : Bool :=
  c.state != .closed && !c.join && c.unacked.isEmpty && c.waitQ.isEmpty && c.reorder.isEmpty && c.ackOwed.isNone &&
    decide (c.lastUse + 50000 ≤ now)

/-- The on-need context that has been idle longest, when one may be closed (R370). -/
def State.oldestIdle (s : State) : Option Nat :=
  let l := s.tun.ctxs.filter (fun x => x.2.closable s.now)
  (l.foldl (fun (m : Option (Nat × Nat)) x => match m with
    | none => some (x.1, x.2.lastUse)
    | some (i, t) => if x.2.lastUse < t then some (x.1, x.2.lastUse) else some (i, t)) none).map Prod.fst

/-- The first CLOSED context at or after `i`, wrapping, of `n` left to try. -/
def findCtx (t : Table TunCtx) : Nat → Nat → Option Nat
  | 0, _ => none
  | n + 1, i => if (tget TunCtx.closed t (i % 512)).state = .closed then some (i % 512) else findCtx t n (i + 1)

/-- A context for a new peer: a CLOSED one, FREE VALUE which (log 4), or for an on-need context one that R370 closes. -/
def State.newCtx (s : State) (c : BitVec 16) (rto : Nat) (join : Bool) : Option (Nat × State) :=
  let fresh : TunCtx := { TunCtx.closed with peer := c, rto := if rto = 0 then 5 else rto,
                                             cur := if rto = 0 then 5 else rto, join := join, lastUse := s.now }
  match findCtx s.tun.ctxs 512 (Config.freePick s.free % 512) with
  | some i => some (i, ({ s with free := s.free + 1 }).modCtx i (fun _ => fresh))
  | none => if join then none else (s.oldestIdle).map (fun i => (i, s.modCtx i (fun _ => fresh)))

/-- The base retransmit time of the peer list for a chip (R302). -/
def State.peerRto (s : State) (c : BitVec 16) : Nat :=
  match s.img.peers.find? (fun e => e.valid && e.chip == c) with
  | some e => e.rto
  | none => 0

/-- Number lane 3 frames of a context anew from 1 (R296). -/
def State.renumber (s : State) (i : Nat) : State :=
  let peer := (s.ctx i).peer
  let s1 := s.modChip peer (fun c => { c with sent3 := 0, exec3 := none })
  let (q, s2) := (s.ctx i).waitQ.foldl (fun (x : List Frame × State) f =>
    let (f', s') := x.2.number3 f
    (x.1 ++ [f'], s')) ([], s1)
  s2.modCtx i (fun c => { c with waitQ := q })

/-- Both directions of a context start at SEQ 0 (R302, R370): frames still unacknowledged are sent again, or are lost when
the peer has restarted. -/
def State.startCtx (s : State) (i : Nat) (keep : Bool) (boot : BitVec 32) : State :=
  let c := s.ctx i
  let lost := if keep then 0 else c.unacked.length
  let s1 := s.modCtx i (fun c => { c with
    state := .open, bootSeq := some boot, sndNxt := 0, rcvNxt := 0
    waitQ := (if keep then c.unacked.map TunTx.f else []) ++ c.waitQ, unacked := [], sacked := [], reorder := []
    ackOwed := none, busyAt := none, backoff := 0, cur := c.base, trial := none, lastUse := s.now })
  let s2 : State := { s1 with tun := { s1.tun with lost := satAdd 0x7FF s1.tun.lost lost } }
  (s2.renumber i).tunGo

/-- Put a frame behind those that wait at a context (R249). -/
def State.ctxPut (s : State) (i : Nat) (f : Frame) : State :=
  let s1 : State := { s with tun := { s.tun with sched := s.tun.sched.keep s.tunWaiting } }
  s1.modCtx i (fun c => { c with waitQ := c.waitQ ++ [f] })

/-- Queue a frame at kingside for a chip on another board; false when no context can be had for it (R253). -/
def State.tunnelPut (s : State) (f : Frame) : Bool × State :=
  let put (i : Nat) (s : State) : State := s.ctxPut i f
  let awake (s : State) : State := s.wakeIfDown .k 3 0
  match s.ctxOf f.dst with
  | some i =>
    let s1 := awake (put i s)
    (true, if (s.ctx i).state = .dead then s1.sendOpen i else s1.tunGo)
  | none =>
    match s.newCtx f.dst (s.peerRto f.dst) false with
    | none => (false, s)
    | some (i, s1) => (true, (awake (put i s1)).sendOpen i)

/-- Give a frame to the tunnel port (R253): one that the queenside frame builder built crosses the seam (R39). -/
def State.toTunnel (s : State) (origin : Option Wing) (f : Frame) : Bool × State :=
  if s.mustWait origin .k then (true, (s.toSeam .k (.put none f)).wake .k 3 0) else (s.crossFrom origin .k).tunnelPut f

/-! ### Packets received -/

/-- Send OPEN_ACK by the path of the OPEN that it answers (R302, R371). -/
def State.sendOpenAck (s : State) (p : Packet) (busy : Bool) : State :=
  s.emit (.openAck { edge := p.edge, dst := p.src, seq := 0, ack := 0, sack := 0 } (BitVec.ofNat 32 s.iml.bootSeq) s.iml.buildId
    busy)

/-- An OPEN is received (R302, R370, R371). -/
def State.rxOpen (s : State) (p : Packet) : State :=
  if p.buildId ≠ s.iml.buildId then s
  else match s.ctxOf p.src with
    | none =>
      match s.newCtx p.src (s.peerRto p.src) false with
      | none => s.sendOpenAck p true
      | some (i, s1) => (s1.sendOpenAck p false).startCtx i true p.bootSeq
    | some i =>
      let c := s.ctx i
      match c.state with
      | .opening =>
        if p.src.toNat < s.iml.chip.toNat then
          (s.sendOpenAck p false).startCtx i (c.bootSeq.all (fun b => b == p.bootSeq)) p.bootSeq
        else s
      | _ => (s.sendOpenAck p false).startCtx i (c.bootSeq.all (fun b => b == p.bootSeq)) p.bootSeq

/-- An OPEN_ACK is received (R302, R371). -/
def State.rxOpenAck (s : State) (p : Packet) : State :=
  match s.ctxOf p.src with
  | none => s
  | some i =>
    let c := s.ctx i
    if c.state ≠ .opening then s
    else if p.busy then s.modCtx i (fun c => { c with busyAt := some s.now })
    else s.startCtx i (c.bootSeq.all (fun b => b == p.bootSeq)) p.bootSeq

/-- A sequence number lies before another, modulo 2^16. -/
def seqBefore (a b : BitVec 16) : Bool := decide (32768 ≤ (a - b).toNat)

/-- Take an ACK and what a SACK or map of `n` bits reports received (R303, R304, R305): within its span, and for the next frame
expected, which the peer does not have, it replaces what was reported before. -/
def State.takeTunAck (s : State) (i : Nat) (ack : BitVec 16) (n : Nat) (got : List (BitVec 16)) : State :=
  let c := s.ctx i
  let left := c.unacked.filter (fun x => !seqBefore x.seq ack)
  let spans (q : BitVec 16) : Bool := decide ((q - ack).toNat ≤ n)
  let adv := left.length < c.unacked.length
  let home := c.trial.any (fun t => seqBefore t ack)
  s.modCtx i (fun c => { c with
    unacked := left
    sacked := (c.sacked.filter (fun q => !spans q) ++ got).eraseDups.filter (fun q => left.any (fun x => x.seq == q))
    edge := if home then false else c.edge, trial := if home then none else c.trial
    probes := if home then [] else c.probes, probeT1 := if home then none else c.probeT1
    backoff := if adv then 0 else c.backoff
    cur := if adv then (if home then c.rto else c.base) else c.cur
    lastUse := s.now })

/-- The sequence numbers that a 16-bit SACK reports (Table 10.12). -/
def sackList (ack sack : BitVec 16) : List (BitVec 16) :=
  (idxsFrom (fun (b : Bool) => b) 0 ((List.range 16).map (fun i => sack.getLsbD i))).map (fun i =>
    ack + 1 + BitVec.ofNat 16 i)

/-- The sequence numbers that an ACK packet's map reports (R301). -/
def mapList (ack : BitVec 16) (m : BitVec 256) : List (BitVec 16) :=
  (idxsFrom (fun (b : Bool) => b) 0 ((List.range 256).map (fun i => m.getLsbD i))).map (fun i =>
    ack + 1 + BitVec.ofNat 16 i)

/-- Send an ACK packet (R303). -/
def State.sendAck (s : State) (i : Nat) : State :=
  let c := s.ctx i
  (s.modCtx i (fun c => { c with ackOwed := none, lastUse := s.now })).emit (.ack (c.head c.edge 0) c.map)

/-- An ACK packet is received (R303). -/
def State.rxAck (s : State) (p : Packet) : State :=
  match s.ctxOf p.src with
  | none => s
  | some i => if (s.ctx i).state ≠ .open then s else (s.takeTunAck i p.ack 256 (mapList p.ack p.map)).tunGo

/-- Deliver frames of a context in SEQ order for as long as the next expected one is held, with fuel; `take` hands a frame
on and says whether it was taken (R303). One that is refused leaves the reorder pool and is reported received no longer, so that
its sender sends it again (R232). -/
def deliverSeq (take : State → Frame → Bool × State) (i : Nat) : Nat → State → State
  | 0, s => s
  | n + 1, s =>
    let c := s.ctx i
    match c.reorder.find? (fun x => x.1 == c.rcvNxt) with
    | none => s
    | some (q, f) =>
      let (ok, s1) := take s f
      if !ok then s1.modCtx i (fun c => { c with reorder := c.reorder.filter (fun x => x.1 != q) })
      else deliverSeq take i n (s1.modCtx i (fun c => { c with
        rcvNxt := c.rcvNxt + 1, reorder := c.reorder.filter (fun x => x.1 != q) }))

/-- A DATA packet is received (R303, R370). -/
def State.rxData (take : State → Frame → Bool × State) (s : State) (p : Packet) : State :=
  match s.ctxOf p.src with
  | none => match s.newCtx p.src (s.peerRto p.src) false with
    | none => s
    | some (i, s1) => s1.sendOpen i
  | some i =>
    if (s.ctx i).state ≠ .open then s
    else
      let s1 := s.takeTunAck i p.ack 16 (sackList p.ack p.sack)
      let c := s1.ctx i
      let owe (s : State) : State := s.modCtx i (fun c => { c with
        ackOwed := some (c.ackOwed.getD (s.now + 1000)) })
      if p.seq = c.rcvNxt then
        let (ok, s2) := take s1 p.frame
        if !ok then s2.tunGo
        else
          let s3 := s2.modCtx i (fun c => { c with rcvNxt := c.rcvNxt + 1 })
          (owe (deliverSeq take i 256 s3)).tunGo
      else if seqBefore p.seq c.rcvNxt then (s1.sendAck i).tunGo
      else if c.reorder.any (fun x => x.1 == p.seq) then (s1.sendAck i).tunGo
      else if 256 ≤ s1.reorderUsed ∨ 256 < (p.seq - c.rcvNxt).toNat then (s1.sendAck i).tunGo
      else ((s1.modCtx i (fun c => { c with reorder := c.reorder ++ [(p.seq, p.frame)] })).sendAck i).tunGo

/-! ### Timers and paths -/

/-- The ACK that 1 µs has left owed is sent (R303). -/
def State.ackDelay (s : State) (i : Nat) : State :=
  match (s.ctx i).ackOwed with
  | none => s
  | some t => if s.now < t ∨ !s.tunRuns then s else s.sendAck i

/-- Send frames of a context again, oldest first (R304): a trial by RING, the others by the context's path. Where the next DATA packet is
to be the trial, the first of them is it (R305). The current ACK rides with them (R303). -/
def State.sendAgain (s : State) (i : Nat) (l : List TunTx) : State :=
  let c := s.ctx i
  let trial := if c.edge && c.trialArm then (l.head?.map TunTx.seq).or c.trial else c.trial
  let s1 := each (fun (x : TunTx) s => s.emit (.data (c.head (c.edge && trial != some x.seq) x.seq) x.f)) l s
  let s2 : State := { s1 with tun := { s1.tun with retx := satAdd 0xFFFF s1.tun.retx l.length } }
  s2.modCtx i (fun c => { c with
    unacked := c.unacked.map (fun x => if l.contains x then { x with at_ := s.now } else x), lastUse := s.now, lastTx := s.now
    trial := trial, trialArm := c.trialArm && l.isEmpty, ackOwed := if l.isEmpty then c.ackOwed else none })

/-- Send again every frame that neither ACK nor SACK covers (R304). -/
def State.resend (s : State) (i : Nat) : State :=
  let c := s.ctx i
  s.sendAgain i (c.unacked.filter (fun x => !c.sacked.contains x.seq))

/-- A context moves to EDGE (R305): every unacknowledged frame is sent again at once. -/
def State.toEdge (s : State) (i : Nat) : State :=
  let c := s.ctx i
  let s1 := s.modCtx i (fun c => { c with
    edge := true, backoff := 0, cur := 2 * c.rto, edgeAt := s.now, trial := none, trialArm := false, probes := []
    probeT1 := none })
  let s2 : State := { s1 with tun := { s1.tun with fallback := sat 0x3FF s1.tun.fallback } }
  let s3 := s2.raise bTUN 1
  if c.state = .open then s3.sendAgain i c.unacked else s3.sendOpen i

/-- A context becomes DEAD (R305); frames that wait open it again, by RING with its base time RTO (DESIGN CHOICE, log 83). -/
def State.ctxDead (s : State) (i : Nat) : State :=
  let n := (s.ctx i).unacked.length
  let s1 := s.modCtx i (fun c => { c with
    state := .dead, unacked := [], sacked := [], reorder := [], backoff := 0, edge := false, cur := c.rto, ackOwed := none
    trial := none, trialArm := false, probes := [], probeT1 := none })
  let s2 : State := { s1 with tun := { s1.tun with lost := satAdd 0x7FF s1.tun.lost n } }
  let s3 := s2.raise bTUN 2
  if (s3.ctx i).waitQ.isEmpty then s3 else s3.sendOpen i

/-- A retransmission counts and doubles the current time, up to 8 × RTO (R304). -/
def TunCtx.more (c : TunCtx) : TunCtx := { c with backoff := c.backoff + 1, cur := Nat.min (2 * c.cur) (8 * c.rto) }

/-- After 8 retransmissions a context moves to EDGE, or on EDGE is DEAD (R305). -/
def State.giveUp (s : State) (i : Nat) : State := if (s.ctx i).edge then s.ctxDead i else s.toEdge i

/-- The retransmit time of a context's oldest frame, or of its OPEN, passes (R304, R305). The time-out of a trial by RING counts for
nothing but the trial. -/
def State.retxTimeout (s : State) (i : Nat) : State :=
  let c := s.ctx i
  let due (x : TunTx) : Bool := decide (x.at_ + 1000 * c.cur ≤ s.now)
  if !s.tunRuns then s
  else match c.state with
    | .open =>
      let tried := (c.unacked.filter (fun x => c.trial == some x.seq)).filter due
      let s1 := if tried.isEmpty then s
        else (s.modCtx i (fun c => { c with trial := none, edgeAt := s.now })).sendAgain i tried
      match (c.unacked.head?).filter (fun x => due x && !tried.contains x) with
      | none => s1
      | some _ => if 8 ≤ c.backoff then s1.giveUp i else (s1.resend i).modCtx i TunCtx.more
    | .opening =>
      if c.busyAt.isSome ∨ s.now < c.sentAt + 1000 * c.cur then s
      else if 8 ≤ c.backoff then s.giveUp i
      else (s.sendOpen i).modCtx i TunCtx.more
    | _ => s

/-- The ring reports the path to a peer failed (R305); while the tunnel port does not run the report is kept. A DEAD context is opened
again on its next need. -/
def State.ringFail (s : State) (c : BitVec 16) : State :=
  match s.ctxOf c with
  | none => s
  | some i =>
    if (s.ctx i).edge ∨ (s.ctx i).state = .dead then s
    else if s.tunRuns then s.toEdge i
    else s.modCtx i (fun c => { c with failed := true })

/-- The tunnel port runs again: a path whose failure the ring has reported meanwhile moves to EDGE (R305), and OPENs that are due go out.
-/
def State.tunResume (s : State) : State :=
  if !s.tunRuns then s
  else each (fun i s =>
    let s1 := if (s.ctx i).failed then (s.modCtx i (fun c => { c with failed := false })).toEdge i else s
    if (s1.ctx i).openDue then s1.sendOpen i else s1) (s.tun.ctxs.map Prod.fst) s

/-- After 10 ms on EDGE the next DATA packet goes by RING (R305). -/
def State.edgeRetry (s : State) (i : Nat) : State :=
  let c := s.ctx i
  if c.edge ∧ c.trial.isNone ∧ c.state = .open ∧ c.edgeAt + 10000000 ≤ s.now then
    s.modCtx i (fun c => { c with trialArm := true }) else s

/-- 8 × RTO after a busy answer, OPEN is sent again (R371). -/
def State.busyRetry (s : State) (i : Nat) : State :=
  let c := s.ctx i
  match c.busyAt with
  | none => s
  | some t => if c.state = .opening ∧ t + 8000 * c.rto ≤ s.now ∧ s.tunRuns then s.sendOpen i else s

/-! ### Sending to a chip -/

/-- Send a frame to another chip from the wing whose frame builder built it: over Shaut on the same board, else over its tunnel
context (R39, R253); lane 3 frames are numbered. False when no context can be had. -/
def State.sendFrom (s : State) (origin : Option Wing) (f : Frame) : Bool × State :=
  let (f1, s1) := s.number3 f
  if sameBoard f.dst s.iml.chip then (true, s1.toSeat origin (seatOf f.dst) f1)
  else
    let (ok, s2) := s1.toTunnel origin f1
    if ok then (true, s2) else (false, s)

/-- Send a frame from the wing that builds it. -/
def State.sendFrame (s : State) (f : Frame) : Bool × State := s.sendFrom f.builder f

/-- A frame that has crossed the seam goes to its port, or to the tunnel port (R32, R39). -/
def State.putFrame (s : State) (port : Option Nat) (f : Frame) : State :=
  match port with
  | none => (s.tunnelPut f).2
  | some k =>
    if (s.port k).state ≠ .down then s.portPut k f
    else if foreign k f then s.dropForward f
    else s.toSeat (some (shpWing k)) (seatOf f.dst) { f with fwd := false }

end Sys2Proof.Machine
end

