-- ==== Sys2Proof/Machine/Arbiters.lean ====
section
/-! DEFINITION. Who stands where in a group: participation, liveness, arbiters and standbys (R223 to R226, R236, R240), and the
master of the timebase (R247). -/
namespace Sys2Proof

/-- A group that does not exist. -/
def GroupEnt.none : GroupEnt :=
  { valid := false, top := 0, arity := 0, owner := 0, seats := 0, clusters := 0, boards := 0, fallL1 := 0, fallL2 := 0,
    fallL3 := 0, arbL1 := .none, arbL2 := .none, arbL3 := .none }

/-- Does a chip participate in a group (R226)? -/
def GroupEnt.has (e : GroupEnt) (c : BitVec 16) : Bool :=
  e.valid && e.seats.getLsbD (c.toNat % 16) && (decide (e.top < 2) || e.boards.getLsbD (c.toNat / 16 % 256)) &&
    (decide (e.top < 3) || e.clusters.getLsbD (c.toNat / 4096))

/-- The level deadline of a level in µs (Table 8.2). -/
def GroupEnt.fall (e : GroupEnt) (level : Nat) : Nat :=
  match level with
  | 1 => e.fallL1
  | 2 => e.fallL2
  | _ => e.fallL3

end Sys2Proof

namespace Sys2Proof.Machine

/-- A chip's board, numbered over the whole system: chip ID bits [15:4]. -/
def boardOf (c : BitVec 16) : Nat := c.toNat / 16

/-- A chip's cluster: chip ID bits [15:12]. -/
def clusterOf (c : BitVec 16) : Nat := c.toNat / 4096

/-- This chip's ID. -/
def State.me (s : State) : BitVec 16 := s.iml.chip

/-- A group's entry. -/
def State.grp (s : State) (g : Nat) : GroupEnt := (s.img.groups[g]?).getD GroupEnt.none

/-! ### Who is in a group -/

/-- Does a chip participate in this chip's instance of a group and is it not resigned from it (R226, R245)? -/
def State.mem (s : State) (g : Nat) (c : BitVec 16) : Bool :=
  let e := s.grp g
  e.has c && !(s.group g).resigned.contains c && (decide (2 ≤ e.top) || sameBoard c s.me) &&
    (decide (3 ≤ e.top) || sameCluster c s.me)

/-- Is a chip live in a group (R240)? A named arbiter that was passed over at join counts as silent (R228). -/
def State.live (s : State) (g : Nat) (c : BitVec 16) : Bool :=
  s.mem g c && (c == s.me || (!(s.chip c).silent && !(s.group g).passed.contains c))

/-- The chips of a board, in ascending seat order. -/
def boardChips (b : Nat) : List (BitVec 16) := (List.range 16).map (fun k => BitVec.ofNat 16 (16 * b + k))

/-- The participants of a board. -/
def State.boardMem (s : State) (g b : Nat) : List (BitVec 16) := (boardChips b).filter (s.mem g)

/-- The live participants of a board. -/
def State.boardLive (s : State) (g b : Nat) : List (BitVec 16) := (boardChips b).filter (s.live g)

/-- This chip's board. -/
def State.board (s : State) : Nat := boardOf s.me

/-- The boards that are nodes of a cluster (R236). -/
def State.nodeBoards (s : State) (g cl : Nat) : List Nat :=
  if (s.grp g).top < 2 then []
  else ((List.range 256).map (fun b => 256 * cl + b)).filter (fun b => !(s.boardLive g b).isEmpty)

/-- The clusters that are nodes of L3 (R238). -/
def State.nodeClusters (s : State) (g : Nat) : List Nat :=
  if (s.grp g).top < 3 then [] else (List.range 16).filter (fun cl => !(s.nodeBoards g cl).isEmpty)

/-! ### Arbiters and standbys (Table 8.6) -/

/-- The L1 arbiter that Table 8.6 gives a board. -/
def State.pickL1 (s : State) (g b : Nat) : Option (BitVec 16) :=
  let l := s.boardLive g b
  ((s.grp g).arbL1.bind (fun k => l.find? (fun c => seatOf c == k))).orElse (fun _ => l.head?)

/-- A board's L1 arbiter and node chip: the one in office on this board; on another, the one that a takeover named, or
the choice of Table 8.6. -/
def State.arb1 (s : State) (g b : Nat) : Option (BitVec 16) :=
  if b = s.board ∧ ((s.group g).arbs.getD 0 none).isSome then (s.group g).arbs.getD 0 none
  else match tget none (s.group g).heads b with
    | some c => if s.live g c then some c else s.pickL1 g b
    | none => s.pickL1 g b

/-- A board's L1 standby. -/
def State.sby1 (s : State) (g b : Nat) : Option (BitVec 16) :=
  (s.boardLive g b).find? (fun c => some c != s.arb1 g b)

/-- The L2 arbiter that Table 8.6 gives a cluster. -/
def State.pickL2 (s : State) (g cl : Nat) : Option (BitVec 16) :=
  let l := s.nodeBoards g cl
  (((s.grp g).arbL2.bind (fun b => l.find? (fun x => x % 256 == b))).orElse (fun _ => l.head?)).bind (s.arb1 g)

/-- A cluster's L2 arbiter. -/
def State.arb2 (s : State) (g cl : Nat) : Option (BitVec 16) :=
  if cl = clusterOf s.me ∧ ((s.group g).arbs.getD 1 none).isSome then (s.group g).arbs.getD 1 none
  else match tget none (s.group g).heads (65536 + cl) with
    | some c => if s.live g c then some c else s.pickL2 g cl
    | none => s.pickL2 g cl

/-- A cluster's L2 standby. -/
def State.sby2 (s : State) (g cl : Nat) : Option (BitVec 16) :=
  match s.arb2 g cl with
  | none => none
  | some a =>
    match (s.boardLive g (boardOf a)).find? (fun c => c != a) with
    | some c => some c
    | none => ((s.nodeBoards g cl).find? (fun b => b != boardOf a)).bind (s.arb1 g)

/-- The L3 arbiter that Table 8.6 gives the federation. -/
def State.pickL3 (s : State) (g : Nat) : Option (BitVec 16) :=
  let l := s.nodeClusters g
  (((s.grp g).arbL3.bind (fun cl => l.find? (fun x => x == cl))).orElse (fun _ => l.head?)).bind (s.arb2 g)

/-- The arbiter of a level from this chip's seat: of its board, its cluster or the federation. -/
def State.arb (s : State) (g level : Nat) : Option (BitVec 16) :=
  match level with
  | 1 => s.arb1 g s.board
  | 2 => s.arb2 g (clusterOf s.me)
  | _ => match (s.group g).arbs.getD 2 none with
    | some c => some c
    | none => s.pickL3 g

/-- The standby that Table 8.6 gives a level. -/
def State.pickSby (s : State) (g level : Nat) : Option (BitVec 16) :=
  match level with
  | 1 => s.sby1 g s.board
  | 2 => s.sby2 g (clusterOf s.me)
  | _ => match s.arb g 3 with
    | some a => s.sby2 g (clusterOf a)
    | none => none

/-- The standby of a level: the one that a takeover named while it is live and not the arbiter, else that of Table 8.6. -/
def State.sby (s : State) (g level : Nat) : Option (BitVec 16) :=
  match (s.group g).sbys.getD (level - 1) none with
  | some c => if s.live g c && some c != s.arb g level then some c else s.pickSby g level
  | none => s.pickSby g level

/-- Is this chip a group's arbiter at a level? -/
def State.isArb (s : State) (g level : Nat) : Bool :=
  (s.grp g).has s.me && decide (level ≤ (s.grp g).top) && s.arb g level == some s.me

/-- Is this chip its board's node chip: the L1 arbiter, in a group with L2 (R236)? -/
def State.isNode (s : State) (g : Nat) : Bool := decide (2 ≤ (s.grp g).top) && s.isArb g 1

/-- The groups that this chip has joined. -/
def State.joined (s : State) : List Nat :=
  (List.range s.img.groups.length).filter (fun g => (s.grp g).has s.me && (match (s.group g).state with
    | .absent => false
    | .refused => false
    | _ => true))

/-! ### The master (R247) -/

/-- This chip's master, and the period of its exchanges in ns; none for the arbiter at group 0's top level. -/
def State.timeMaster (s : State) : Option (BitVec 16 × Nat) :=
  let top := (s.grp 0).top
  let from_ (level period : Nat) : Option (BitVec 16 × Nat) :=
    match s.arb 0 level with
    | some a => if a = s.me then none else some (a, period)
    | none => none
  if !(s.joined.contains 0) then none
  else if !s.isArb 0 1 then from_ 1 16000
  else if top = 1 then none
  else if !s.isArb 0 2 then from_ 2 256000
  else if top = 2 then none
  else from_ 3 1024000

end Sys2Proof.Machine
end

