-- ==== Sys2Proof/Machine/Paging.lean ====
section
/-! DEFINITION. Residency and paging: misses, page-ins, evictions and write-backs (R116 to R121, R378). -/
namespace Sys2Proof

/-- The words that a read corrects (R350). -/
def RowFind.words : RowFind → Nat
  | .clean => 0
  | .corrected k => k
  | .uncorrectable k _ => k

/-- The words that SEC-DED cannot correct (R352). -/
def RowFind.lostAt : RowFind → BitVec 16
  | .uncorrectable _ l => l
  | _ => 0

/-- Does a read meet a word that SEC-DED cannot correct (R352)? -/
def RowFind.lost (x : RowFind) : Bool := x.lostAt != 0

/-- What a row with `k` words to correct and some lost ones shows. -/
def RowFind.make (k : Nat) (l : BitVec 16) : RowFind :=
  if l = 0 then (if k = 0 then .clean else .corrected (min 16 k)) else .uncorrectable (min 15 k) l

/-- Errors that come to a row beside those it has. -/
def RowFind.plus (x y : RowFind) : RowFind := .make (x.words + y.words) (x.lostAt ||| y.lostAt)

/-- A row some of whose words have been written (R352). -/
def RowFind.heal (x : RowFind) (m : BitVec 16) : RowFind := .make x.words (x.lostAt &&& ~~~m)

end Sys2Proof

namespace Sys2Proof.Machine

/-! ### Rows (R349, R352, R353) -/

/-- What an object takes from its wing's pools: list entries and accumulators (Table 4.11). -/
def Body.needs : Body → Nat × Nat
  | .barrier b => (b.mcount, if b.pwords = 0 then 0 else 2)
  | .token t => (t.gcount, 0)
  | .ledger l => (l.ccount, l.window)
  | _ => (0, 0)

/-- The list base and accumulator base of a body. -/
def Body.bases : Body → Nat × Nat
  | .barrier b => (b.mbase, b.accBase)
  | .token t => (t.gbase, 0)
  | .ledger l => (l.cbase, l.accBase)
  | _ => (0, 0)

/-- The list of a body. -/
def Body.entries : Body → List Ent
  | .barrier b => b.members
  | .token t => t.givers
  | .ledger l => l.consumers
  | _ => []

/-- The key of an array row: 512 × bank + row within a wing (Table 13.1; log 14). -/
def rowKey (w : Wing) (n : Nat) : Nat := 65536 * w.num + n

/-- What reading a row finds (R350 to R352). -/
def State.rowFind (s : State) (w : Wing) (n : Nat) : RowFind := tget .clean s.upsets (rowKey w n)

/-- The bank and the row of a record slot of a file (Table 13.1). -/
def recordRow (f slot : Nat) : Nat × Nat := (8 * (f % 4) + slot / 1024, slot % 1024 / 2)

/-- The row that a wing's remap has locked (R353): the first one queued, when REP is not contained. -/
def State.lockedRow (s : State) (w : Wing) : Option (Nat × Nat) := if s.contained bREP then none else (s.wing w).remapQ.head?

/-- Does an accumulator's half lie in a row of banks 32 to 47 (Table 13.1)? -/
def accInRow (a b r : Nat) : Bool := decide (32 ≤ b) && decide (b < 48) && a == 256 * (b - 32) + r / 2

/-- Does a unit on a resident object need a row (R353, Table 13.1): its record's, or one of its list, its accumulators or its staging
blocks (log 26)? -/
def State.needsRow (s : State) (obj slot : Nat) (o : Option Obj) (b r : Nat) : Bool :=
  let (m, a) := (o.map (fun o => o.body.bases)).getD (0, 0)
  let (n, k) := (o.map (fun o => o.body.needs)).getD (0, 0)
  (b, r) == recordRow (fileOf obj) slot ||
    (decide (32 ≤ b) && decide (b < 48) && decide (a ≤ 256 * (b - 32) + r / 2) && decide (256 * (b - 32) + r / 2 < a + k)) ||
    (decide (48 ≤ b) && decide (b < 56) && decide (m < 16384 * (b - 48) + 32 * r + 32) && decide (16384 * (b - 48) + 32 * r < m + n)) ||
    s.stages.any (fun x => x.1 / 1024 == obj && x.2.any (fun g => accInRow g.acc b r))

/-- Does a unit on a resident object meet a locked row (R353)? -/
def State.rowBusy (s : State) (obj : Nat) (x : Resident) : Bool :=
  (s.lockedRow (wingOf obj)).any (fun r => s.needsRow obj x.slot x.obj r.1 r.2)

/-- The rows with bit errors that a unit on a resident object reads, and what each read finds. -/
def State.badRows (s : State) (obj : Nat) (x : Resident) : List (Nat × RowFind) :=
  (s.upsets.filter (fun y => y.1 / 65536 == (wingOf obj).num && s.needsRow obj x.slot x.obj (y.1 % 65536 / 512) (y.1 % 512))).map
    (fun y => (y.1 % 65536, y.2))

/-- Corrected words are counted (REP_SCRUB, R362). -/
def State.countWords (s : State) (w : Wing) (x : RowFind) : State :=
  s.modWing w (fun y => { y with ceCnt := satAdd 0xFFFF y.ceCnt x.words })

/-- A unit of a file reads its rows with ECC check (R20, R351, R352): corrected words count, an uncorrectable word sets ECC_UE, and the
row watch takes the rows at the end of the step. -/
def State.readRows (s : State) (obj : Nat) (x : Resident) : State :=
  let w := wingOf obj
  each (fun y s =>
    let s1 := s.countWords w y.2
    (if y.2.lost then s1.raise (bFIL (fileOf obj)) 5 else s1).work (.rowFound w y.1 y.2)) (s.badRows obj x) s

/-- The words of a row that a unit on an object has written: the 8 of its slot when its record has changed, and the whole row when it
belongs to a list or an accumulator that has. -/
def State.written (s t : State) (obj : Nat) (x : Resident) (n : Nat) : BitVec 16 :=
  let b := n / 512
  let a := 4096 * (wingOf obj).num + 256 * (b - 32) + n % 512 / 2
  if b < 32 then (if t.obj obj = x.obj then 0 else if x.slot % 2 = 0 then 0x00FF else 0xFF00)
  else if b < 48 then (if tget 0 s.accs a = tget 0 t.accs a then 0 else 0xFFFF)
  else if (t.obj obj).map (fun o => o.body.entries) = x.obj.map (fun o => o.body.entries) then 0 else 0xFFFF

/-- What the unit of an object has written is whole again (R352). -/
def State.rewrite (s t : State) (obj : Nat) (x : Resident) : State :=
  match s.badRows obj x with
  | [] => t
  | l => { t with upsets := each (fun y u =>
      tset .clean u (rowKey (wingOf obj) y.1) ((tget .clean u (rowKey (wingOf obj) y.1)).heal (s.written t obj x y.1))) l t.upsets }

/-- The resident records of a file. -/
def State.fileRecs (s : State) (f : Nat) : Table (Option Resident) := s.recs.filter (fun x => fileOf x.1 == f)

/-- Is a record slot of a file in use? -/
def slotUsed (l : Table (Option Resident)) (i : Nat) : Bool := l.any (fun x => x.2.any (fun r => r.slot == i))

/-- Has a record slot left its file's pool: its row is retired or its bank degraded (Tables 13.1, 13.2)? -/
def State.slotLost (s : State) (f i : Nat) : Bool :=
  let b := s.bank (wingOfFile f) (8 * (f % 4) + i / 1024)
  b.degraded || b.retired.contains (i % 1024 / 2)

/-- The first record slot at or after `i`, wrapping, that is free and in the pool, of `n` left to try. -/
def findSlot (l : Table (Option Resident)) (lost : Nat → Bool) : Nat → Nat → Option Nat
  | 0, _ => none
  | n + 1, i => if slotUsed l (i % 8192) || lost (i % 8192) then findSlot l lost n (i + 1) else some (i % 8192)

/-- The record slot that an installation takes: FREE VALUE among the free slots of the file (log 4). -/
def State.pickSlot (s : State) (f : Nat) : Option Nat :=
  findSlot (s.fileRecs f) (s.slotLost f) 8192 (Config.freePick s.free % 8192)

/-- The record slots that have left a file's pool. -/
def State.lostSlots (s : State) (f : Nat) : Nat :=
  (List.range 8).foldl (fun n i =>
    let b := s.bank (wingOfFile f) (8 * (f % 4) + i)
    n + (if b.degraded then 1024 else 2 * b.retired.length)) 0

/-- The free record slots of a file. -/
def State.freeSlots (s : State) (f : Nat) : Nat :=
  8192 - s.lostSlots f - ((s.fileRecs f).filter (fun x => x.2.any (fun r => !s.slotLost f r.slot))).length

/-! ### Records in the backing region (R100, R120) -/

/-- The place of an object's record in the backing region of its wing (R120). -/
def State.recordAddr (s : State) (obj : Nat) : Nat :=
  byWing (wingOf obj) s.img.backQ s.img.backK + obj % 4 * 2 ^ 23 + obj / 8 % 2 ^ 17 * 64

/-- A list's place in its field: base in bits [16:0], full count in [29:17] (Tables 4.3, 4.6, 4.8). -/
def listField (base count : Nat) : Nat := base % 2 ^ 17 + 2 ^ 17 * (count % 2 ^ 13)

/-- Bytes 0x10 to 0x3F of a record as a number, byte 0x10 first (Tables 4.3 to 4.9). -/
def Body.fields : Body → Nat
  | .barrier b =>
    b.gen.toNat + 2 ^ 32 * (b.arrived % 2 ^ 13) + 2 ^ 48 * (b.advQ.length % 2 ^ 13) + 2 ^ 64 * listField b.mbase b.mcount +
      2 ^ 96 * (b.members.length % 2 ^ 13) + 2 ^ 112 * ((b.members.filter (fun e => e.res)).length % 2 ^ 13) +
      2 ^ 128 * ((if b.pwords = 0 then 0 else b.accBase % 2 ^ 12 + 2 ^ 12) + 2 ^ 13 * (b.pwords % 2 ^ 6) + 2 ^ 19 * (b.combine % 2 ^ 8)) +
      2 ^ 160 * (b.fallAfter % 2 ^ 32) + 2 ^ 192 * (b.deadline % 2 ^ 64) +
      2 ^ 256 * ((if b.abortOnFall then 1 else 0) + (if b.holdEligible then 2 else 0)) +
      2 ^ 288 * (match b.parent with
        | some r => r % 2 ^ 20 + 2 ^ 20
        | none => 0)
  | .sem n => n % 2 ^ 32
  | .lock l =>
    l.holder.toNat + 2 ^ 26 * (if l.held then 1 else 0) + 2 ^ 27 * (if l.orphaned then 1 else 0) + 2 ^ 32 * (l.prio % 8) +
      2 ^ 35 * (l.eff % 8) + (match l.global with
        | some g => 2 ^ 40 * (g % 64 + 64)
        | none => 0)
  | .token t =>
    t.credits % 2 ^ 32 + 2 ^ 32 * (t.capacity % 2 ^ 32) + 2 ^ 64 * listField t.gbase t.gcount + 2 ^ 96 * (t.givers.length % 2 ^ 13) +
      2 ^ 112 * (t.nextGiver % 2 ^ 13)
  | .flag set n => (if set then 1 else 0) + 2 ^ 32 * n.toNat
  | .ledger l =>
    (if l.eager then 1 else 0) + (if l.faulted then 2 else 0) + 2 ^ 32 * l.lepoch.toNat + 2 ^ 64 * listField l.cbase l.ccount +
      2 ^ 96 * (l.consumers.length % 2 ^ 13) + 2 ^ 128 * (l.accBase % 2 ^ 12 + 2 ^ 12 * (l.window % 2 ^ 7))
  | .relay r =>
    r.child % 2 ^ 20 + 2 ^ 32 * (r.level % 4) + 2 ^ 40 * (r.group % 256) + 2 ^ 64 * r.pgen.toNat + 2 ^ 96 * (if r.inFlight then 1 else 0)

/-- A record's 64 bytes as a number (Tables 4.2 to 4.9), with EPOCH as it is written now; those of a closed record are zero (R108). Which entry of the operation table a
waiting operation has is a FREE VALUE (log 4). -/
def State.record (s : State) (obj : Nat) (o : Option Obj) : BitVec 512 :=
  let head (ty st own : Nat) : Nat := s.iml.bootSeq % 2 ^ 32 + 2 ^ 32 * (obj % 2 ^ 20 + 2 ^ 20 * ty) + 2 ^ 56 * st + 2 ^ 64 * (own % 2 ^ 10)
  match o with
  | none => 0
  | some o =>
    let wait := if (s.waiters obj).isEmpty then 0 else Config.freePick s.free % 4096 + 2 ^ 12
    let slots := (s.slots.filter (fun x => x.2.any (fun r => r.obj == some obj))).length
    BitVec.ofNat 512 (head o.body.typeCode
        (s.stateCode obj o.body % 16 + (if o.pinned then 16 else 0) + (if o.cold then 32 else 0) + (if o.slow then 64 else 0)) o.owner +
      2 ^ 96 * (wait + 2 ^ 13 * (slots % 2 ^ 13)) + 2 ^ 128 * o.body.fields)

/-- Write a record to its place in the backing region (R119, R120). -/
def State.writeOut (s : State) (obj : Nat) (o : Option Obj) : State :=
  ({ s with free := s.free + 1 } : State).emit (.pageWrite (s.recordAddr obj) (s.record obj o))

/-- Start the write-back of a record (R119). -/
def State.evict (s : State) (obj : Nat) : State :=
  let mark (r : Resident) : Resident := { r with evicting := true, touched := true }
  let s1 := s.writeOut obj ((s.resident obj).bind (fun r => r.obj))
  { s1 with recs := tmod none s1.recs obj (fun r => r.map mark) }

/-- A record leaves its slot, as the backing region now holds it. -/
def State.putBack (s : State) (obj : Nat) (o : Option Obj) : State :=
  let s1 : State := { s with
    recs := tset none s.recs obj none, backing := tset none s.backing obj (some { epoch := s.iml.bootSeq, num := obj, obj := o }) }
  s1.modFile (fileOf obj) (fun x => { x with wbCnt := sat 0xFF x.wbCnt })

/-! ### Eviction (R119) -/

/-- The records of a file that stand in slots which have left the pool, and whose write-back is not under way. -/
def State.stranded (s : State) (f : Nat) : List Nat :=
  ((s.fileRecs f).filter (fun x => x.2.any (fun r => !r.evicting && s.slotLost f r.slot))).map Prod.fst

/-- Is a slot of any position bound to an object, completed and not collected included (log 22)? -/
def State.boundTo (s : State) (obj : Nat) : Bool :=
  s.slots.any (fun x => x.2.any (fun r => r.obj == some obj))

/-- Does an object have a deadline (Table 4.3)? -/
def Obj.deadline (o : Obj) : Bool :=
  match o.body with
  | .barrier b => b.deadline != 0
  | _ => false

/-- Does a command in the pipe queue, or one that waits for it, name a record (R119), or does an event wait for it (R118)? -/
def State.wanted (s : State) (obj : Nat) : Bool :=
  s.held.any (fun h => h.op.onObject && h.w.obj.toNat == obj) || s.onHold.any (fun x => x.1 == .record obj)

/-- The victim class of a resident record (R119): 0 to 3 in the order of choice; none for a record that is never a
victim. -/
def State.victimClass (s : State) (obj : Nat) (r : Resident) : Option Nat :=
  if r.evicting || s.wanted obj then none
  else match r.obj with
    | none => some 2
    | some o =>
      if o.pinned then none
      else
        let idle := !s.boundTo obj && !o.deadline
        some (if o.cold then (if idle then 0 else 1) else (if idle then 2 else 3))

/-- The evictable records of a file that are in its best class (R119), but for the record `keep` that an access has just
reached. -/
def State.victims (s : State) (f : Nat) (keep : Option Nat) : List Nat :=
  let l := ((s.fileRecs f).filter (fun x => keep != some x.1)).filterMap (fun x =>
    x.2.bind (fun r => (s.victimClass x.1 r).map (fun c => (c, x.1))))
  let best := l.foldl (fun m x => if x.1 < m then x.1 else m) 4
  (l.filter (fun x => x.1 == best)).map Prod.snd

/-- Start the eviction of one record when fewer than 32 slots are free or being freed (R119). The sweep's choice within a
class is a FREE VALUE (log 4). Records in slots that left the pool are written back first (Table 13.2). -/
def State.sweepBut (s : State) (f : Nat) (keep : Option Nat) : State :=
  let going := ((s.fileRecs f).filter (fun x => x.2.any (fun r => r.evicting))).length
  let s1 := each (fun o s => s.evict o) (s.stranded f) s
  if 32 ≤ s1.freeSlots f + going then s1
  else
    let l := s1.victims f keep
    match l[Config.freePick s1.free % (hi 1 l.length)]? with
    | none => s1
    | some obj => ({ s1 with free := s1.free + 1 } : State).evict obj

/-- The sweep with no record just reached. -/
def State.sweep (s : State) (f : Nat) : State := s.sweepBut f none

/-- Start or join a page-in (R116): none when the file's queue of 16 in flight and 64 waiting is full. -/
def State.miss (s : State) (obj : Nat) : Option State :=
  let f := fileOf obj
  if (s.file f).pageins.contains obj then some s
  else if 80 ≤ (s.file f).pageins.length then none
  else
    let s1 := s.modFile f (fun x => { x with pageins := x.pageins ++ [obj] })
    some (if (s.file f).pageins.length < 16 then s1.emit (.pageRead (s.recordAddr obj)) else s1)

/-- A page-in ends: the first of those queued goes to the mesh, and what waits for room in the queue goes on (R116). -/
def State.endPageIn (s : State) (obj : Nat) : State :=
  let f := fileOf obj
  let l := (s.file f).pageins
  let s1 := (s.modFile f (fun x => { x with pageins := x.pageins.filter (fun y => y != obj) })).unpark (.room f)
  match l[16]? with
  | some o => if (l.take 16).contains obj then s1.emit (.pageRead (s.recordAddr o)) else s1
  | none => s1

/-- A miss counts even when it starts nothing (R116, R126). -/
def State.countMiss (s : State) (obj : Nat) : State :=
  s.modFile (fileOf obj) (fun x => { x with missCnt := sat 0xFFFF x.missCnt })

/-- Put a paged record into a free slot (R117): as it was written in this start-up, or as a closed record with PAGE_STALE when
its EPOCH or its stored number is another. What waits for it goes on. -/
def State.installPage (s : State) (obj : Nat) : State :=
  let f := fileOf obj
  match s.pickSlot f with
  | none => s
  | some slot =>
    let (o, stale) := match tget none s.backing obj with
      | some b => if b.epoch = s.iml.bootSeq ∧ b.num = obj then (b.obj, false) else (none, true)
      | none => (none, true)
    let slow := s.rep.slowObjs.contains obj
    let mark (o : Obj) : Obj := { o with cold := o.cold || slow, slow := slow, pinned := o.pinned && !slow }
    let s1 : State := { s with
      free := s.free + 1
      todo := if s.wanted obj then s.todo ++ [.paged obj] else s.todo
      recs := tset none s.recs obj (some { slot := slot, obj := o.map mark, touched := true, evicting := false }) }
    let s2 := (s1.endPageIn obj).perf 6
    (if stale then s2.raise (bFIL f) 4 else s2).sweepBut f (some obj)

/-- A command reaches a record: an eviction under way is cancelled, and the sweep moves on (R119). -/
def State.keepResident (s : State) (obj : Nat) : State :=
  match s.resident obj with
  | some r =>
    if r.evicting then
      let s1 : State := { s with recs := tset none s.recs obj (some { r with evicting := false }) }
      s1.sweepBut (fileOf obj) (some obj)
    else s
  | none => s

/-- Work that needs a record that is absent waits for its page-in, which it starts or joins, or for room in the page-in queue (R116,
R118). It counts as one miss. -/
def State.await (s : State) (obj : Nat) (x : Work) : State :=
  let s1 := if s.onHold.any (fun y => y.2 == x) then s else s.countMiss obj
  match s1.miss obj with
  | some s2 => s2.park (.record obj) x
  | none => s1.park (.room (fileOf obj)) x

/-- A command that needs a record besides that of its own object meets a miss while it is absent (R116). -/
def State.needRecord (s : State) (obj : Nat) : Option (Res × State) :=
  if (s.resident obj).isSome then none
  else
    let s1 := s.countMiss obj
    some (match s1.miss obj with
      | some s2 => (.defer 5, s2)
      | none => (.defer 1, s1))

/-- A unit of the block itself on an object: an event, a release or a level frame. It waits for the object's record (R118), for a row
that a remap has locked (R353) and while the file is contained (R338); it cancels the record's eviction (R119) and reads its rows with
ECC check (R20). `again` is the unit as it goes on when it has waited. -/
def State.unit (s : State) (obj : Nat) (again : Work) (f : State → State) : State :=
  match s.resident obj with
  | none => s.await obj again
  | some x =>
    if s.rowBusy obj x then s.park (.row (wingOf obj)) again
    else
      let s1 := ((s.stir (wingOf obj)).keepResident obj).readRows obj x
      if s1.fileContained obj then s1.park (.file (fileOf obj)) again else s1.rewrite (f s1) obj x

/-- An evicted record's write-back completes and its slot is freed (R119). One that fails cancels the eviction and sets
ECC_UE (R378). -/
def State.writeBackDone (s : State) (obj : Nat) (err : Bool) : State :=
  let f := fileOf obj
  match s.resident obj with
  | none => s
  | some r =>
    if !r.evicting || !s.active (wingOf obj) then s
    else if err then
      let s1 : State := { s with recs := tset none s.recs obj (some { r with evicting := false }) }
      s1.raise (bFIL f) 5
    else (s.putBack obj r.obj).sweep f

end Sys2Proof.Machine
end

