-- ==== Sys2Proof/Machine/Barriers.lean ====
section
/-! DEFINITION. Barriers: arrivals, completion, release, waits, payloads, results, resignation and flag fall
(Barriers and in-barrier reductions). -/
namespace Sys2Proof.Machine

/-! ### Members and arrivals -/

/-- The object at a number, wherever its record lies. -/
def State.objAt (s : State) (o : Nat) : Option Obj :=
  match s.resident o with
  | some r => r.obj
  | none => (tget none s.backing o).bind Backing.obj

/-- The barrier at a number, wherever its record lies. -/
def State.barrierAt (s : State) (o : Nat) : Option Barrier :=
  match s.objAt o with
  | some { body := .barrier b, .. } => some b
  | _ => none

/-- The relay at a number, wherever its record lies. -/
def State.relayAt (s : State) (o : Nat) : Option Relay :=
  match s.objAt o with
  | some { body := .relay r, .. } => some r
  | _ => none

/-- The list index of an agent member (R127). -/
def agentIdx : List Ent → Nat → Option Nat
  | [], _ => none
  | e :: t, p => if !e.relay && e.who == p then some 0 else (agentIdx t p).map (· + 1)

/-- The list index of an entry of a kind and WHO. -/
def entIdx : List Ent → Bool → Nat → Option Nat
  | [], _, _ => none
  | e :: t, r, p => if e.relay == r && e.who == p then some 0 else (entIdx t r p).map (· + 1)

/-- The staging block key of an object and position. -/
def stageKey (obj pos : Nat) : Nat := 1024 * obj + pos

/-- A member's staging block (R139). -/
def State.stage (s : State) (obj pos : Nat) : Option Staging := tget none s.stages (stageKey obj pos)

/-- Zero and return a staging block: its accumulator, accumulator bytes and operation (R139, R157). -/
def State.dropStage (s : State) (obj pos : Nat) : State :=
  match s.stage obj pos with
  | none => s
  | some g =>
    let w := wingOf obj
    let s1 := { s with stages := tset none s.stages (stageKey obj pos) none }
    (((s1.freeAccs w g.acc 1).dropOp w g.dom).modUse w g.dom (fun u => { u with acc := u.acc - 256 }))

/-- Are all words below PWORDS written (R140)? -/
def Staging.full (g : Staging) (pwords : Nat) : Bool :=
  (List.range pwords).all (fun i => g.written.getLsbD i)

/-- Has the file's combine queue room for a staged arrival: fewer than 32 entries and no promoted payload waiting
(R136, R140)? -/
def State.combineRoom (s : State) (obj : Nat) : Bool :=
  let f := s.file (fileOf obj)
  decide (f.combineQ.length < 32) && f.promoted.isEmpty

/-- Move promoted payloads into the combine queue while it has room (R136). -/
def FileSt.fill : Nat → FileSt → FileSt
  | 0, f => f
  | n + 1, f =>
    match f.promoted with
    | [] => f
    | x :: t => if f.combineQ.length < 32 then FileSt.fill n { f with combineQ := f.combineQ ++ [x], promoted := t } else f

/-- Send a member's staged payload to the combiner (R132, R136). -/
def State.sendOperand (s : State) (obj pos : Nat) (promote : Bool) : State :=
  match s.stage obj pos with
  | none => s
  | some g =>
    let x : Operand := { obj := obj, acc := some g.acc, dom := g.dom, data := g.data }
    let s1 := { s with stages := tset none s.stages (stageKey obj pos) none }
    if promote && !s.combineRoom obj then
      s1.modFile (fileOf obj) (fun f => { f with promoted := f.promoted ++ [x] })
    else s1.modFile (fileOf obj) (fun f => { f with combineQ := f.combineQ ++ [x] })

/-- A group's result as a relay member's operand (R234). -/
def State.sendRelayOperand (s : State) (obj : Nat) (x : BitVec 2048) : State :=
  s.modFile (fileOf obj) (fun f => FileSt.fill 1 { f with
    promoted := f.promoted ++ [{ obj := obj, acc := none, dom := 0, data := x }] })

/-- Count an arrival of member `i` for the current generation, with its deadline (R132, R150). -/
def State.countArrival (s : State) (obj i : Nat) : State :=
  match s.barrier obj with
  | none => s
  | some b =>
    let dl := if b.arrived = 0 ∧ b.fallAfter ≠ 0 ∧ b.deadline = 0 then s.now + b.fallAfter else b.deadline
    let who := (b.members.getD i { arr := false, adv := false, res := false, relay := false, who := 0 }).who
    (s.setBody obj (.barrier { b with members := updAt b.members i (fun e => { e with arr := true }),
                                      arrived := b.arrived + 1, deadline := dl })).event 1 (bFIL (fileOf obj)) who obj
      b.gen.toNat

/-- Hold an advance arrival of member `i` (R132). -/
def State.holdAdvance (s : State) (obj i : Nat) (staged : Bool) : State :=
  s.modBarrier obj (fun b => { b with members := updAt b.members i (fun e => { e with adv := true }),
                                      advQ := b.advQ ++ [(i, staged)] })

/-! ### Release and completion -/

/-- Payloads of a barrier that its combiner has still to take: the generation is COMBINING until none is left (R135). -/
def State.unfolded (s : State) (obj : Nat) : Bool :=
  let f := s.file (fileOf obj)
  f.combineQ.any (fun x => x.obj == obj) || f.promoted.any (fun x => x.obj == obj)

/-- Promote the advance arrivals in the order in which they were held (R136 step 4); a relay that carries an operand brings
its CHILD's result (R234). -/
def State.promote (s : State) (obj : Nat) (q : List (Nat × Bool)) : State :=
  each (fun x s =>
    match s.barrier obj with
    | none => s
    | some b =>
      let who := (b.members.getD x.1 { arr := false, adv := false, res := false, relay := false, who := 0 })
      let s1 := s.countArrival obj x.1
      if !x.2 then s1
      else if who.relay then
        match (s1.relayAt who.who).bind (fun r => (s1.barrierAt r.child).map (fun b => s1.resultOf r.child b)) with
        | some y => s1.sendRelayOperand obj y
        | none => s1
      else s1.sendOperand obj who.who true) q s

/-- Release the current generation (R136). -/
def State.releaseBarrier (s : State) (obj : Nat) : State :=
  match s.barrier obj with
  | none => s
  | some b =>
    let w := wingOf obj
    -- 1: the result accumulator takes the final result, and the working one is cleared
    let s1 := if b.pwords = 0 then s
              else (s.setAcc w (b.accBase + 1) (s.acc w b.accBase)).setAcc w b.accBase 0
    -- 2: GEN advances
    let b1 : Barrier := { b with
      gen := b.gen + 1, arrived := 0, advQ := [], deadline := 0, fallen := false, combining := false, holding := false,
      parentWait := false, folded := 0, note := false, relNote := b.note,
      members := b.members.map (fun e => { e with arr := false, adv := false }) }
    let s2 := s1.setBody obj (.barrier b1)
    -- 3: every slot bound for the released generation
    let v := s2.releaseValue obj b1 b.gen b.note
    let ws := s2.waiters obj
    let out := ws.filter (fun x => x.kind == .gen b.gen)
    let s3 := (s2.setWaiters obj (ws.filter (fun x => !(x.kind == .gen b.gen)))).completeAll w
      (out.map (fun x => (x.pos, x.slot, Status.released, v)))
    -- 4, 5: advance arrivals, and with them the deadline
    let s4 := s3.promote obj b.advQ
    -- 6: relays listed here whose arrival was refused present it again (R234)
    let hand := (b.members.filter (fun e => e.relay)).map (fun e => Work.relayArrive e.who)
    let s5 := { s4 with todo := s4.todo ++ hand ++ [Work.complete obj] }
    (s5.event 2 (bFIL (fileOf obj)) 0 obj b.gen.toNat).perf 4

/-- Change what holds a completing barrier back, and release it when nothing does any more (R135). -/
def State.leave (s : State) (obj : Nat) (f : Barrier → Barrier) : State :=
  match s.barrier obj with
  | none => s
  | some b =>
    if !b.completing then s
    else
      let s1 := s.setBody obj (.barrier (f b))
      if (f b).completing then s1 else s1.releaseBarrier obj

/-- Grant, inside a completing hold-eligible barrier, every pending request that may be granted in it (R269, R270). -/
def State.grantInside (s : State) (obj owner : Nat) : State × Bool :=
  let hit := s.holds.recs.filter (fun h => h.granted.isNone && (h.dom == 0 || h.dom == owner))
  if hit.isEmpty then (s, false)
  else
    let s1 := { s with holds := { s.holds with
      recs := s.holds.recs.map (fun h =>
        if h.granted.isNone && (h.dom == 0 || h.dom == owner) then
          { h with granted := some (s.now + 1000 * h.us), barriers := obj :: h.barriers } else h)
      barCnt := satAdd 0x7FFF s.holds.barCnt hit.length } }
    (each (fun h s => match h.who with
      | .pos p => s.complete (posWing p) p h.slot .granted (BitVec.ofNat 51 h.us)
      | .seq _ => s) hit s1, true)

/-- Was a hold granted inside a barrier that completed in this cycle in another pipe of the wing, or in the other wing no more than
8 cycles of the slower wing ago (R270 step 3)? Commands at one time in two pipes are of one cycle (log 52). -/
def State.grantedBeside (s : State) (obj : Nat) (h : HoldRec) : Bool :=
  match h.granted, h.barriers.getLast? with
  | some t, some o =>
    let ago := s.now - (t - 1000 * h.us)
    let w := wingOf obj
    if wingOf o = w then ago == 0 && (fileOf o != fileOf obj || pipeOf o != pipeOf obj)
    else decide (ago * 24 ≤ 40 * hi (plDivider (s.pwr .q).plvl) (plDivider (s.pwr .k).plvl))
  | _, _ => false

/-- A completing hold-eligible barrier waits too for the holds granted beside it that may be granted inside it (R269, R270). -/
def State.shareHolds (s : State) (obj owner : Nat) : State × Bool :=
  let mine (h : HoldRec) : Bool := (h.dom == 0 || h.dom == owner) && s.grantedBeside obj h
  if !s.holds.recs.any mine then (s, false)
  else ({ s with holds := { s.holds with
    recs := s.holds.recs.map (fun h => if mine h then { h with barriers := obj :: h.barriers } else h) } }, true)

/-- The holds that a completing hold-eligible barrier takes into its generation (R270). -/
def State.takeHolds (s : State) (obj owner : Nat) : State × Bool :=
  let (s1, shared) := s.shareHolds obj owner
  let (s2, granted) := s1.grantInside obj owner
  (s2, shared || granted)

/-- Complete the generation when every live member has arrived for it (R128, R135): it enters the completing states, and
its deadline is cleared. A generation of no arrivals completes only when the last live member is resigned (R158), which
`resigned` says. -/
def State.checkComplete (s : State) (obj : Nat) (resigned : Bool) : State :=
  match s.obj obj, s.barrier obj with
  | some o, some b =>
    if b.binding || b.completing || !b.missing.isEmpty || (b.arrived == 0 && !resigned) then s
    else
      let (s1, held) := if b.holdEligible then s.takeHolds obj o.owner else (s, false)
      let s2 := s1.modBarrier obj (fun b => { b with
        combining := b.pwords != 0, holding := held, parentWait := false, deadline := 0, fallen := false })
      if b.pwords != 0 then s2
      else match b.parent with
        | some _ => (s2.modBarrier obj (fun b => { b with parentWait := true })).work (.parent obj)
        | none => if held then s2 else s2.releaseBarrier obj
  | _, _ => s

/-- Did the release of generation `g` take place in this pass (R134)? -/
def State.releasedNow (s : State) (obj : Nat) (g : BitVec 32) : Option (BitVec 51) :=
  match s.barrier obj with
  | some b => if b.gen = g then none else some (s.releaseValue obj b g b.relNote)
  | none => none

/-! ### Commands -/

/-- Bind the caller's slot on an object and answer PENDING (R84, Table 3.5). -/
def State.bindWait (s : State) (c : Ctx) (kind : WaitKind) (prio : Nat) (v : BitVec 51) : Res × State :=
  let obj := c.obj
  let s1 := s.bindSlot c.pos c.w.slot.toNat (some obj) (.wing (wingOf obj)) (wingOf obj) c.dom v none
  (.ans .pending v,
   s1.setWaiters obj (enqueue (s1.waiters obj) { pos := c.pos, slot := c.w.slot.toNat, prio := prio, kind := kind }))

/-- PENDING's VALUE for a command on an object: the object bound (Table 3.5). -/
def Ctx.pendingValue (c : Ctx) : BitVec 51 := BitVec.ofNat 51 c.obj

/-- The generation distance of Table 5.1. -/
def genDist (arg : BitVec 16) (gen : BitVec 32) : Nat := (arg - gen.truncate 16).toNat

/-- Why a staged arrival, of the current generation or in advance, is not accepted (R136, R140): it refuses, or it waits for room in
the combine queue. -/
def State.stagedCheck (s : State) (obj : Nat) (b : Barrier) (pos : Nat) : Option Res :=
  if b.pwords = 0 then some (s.rs obj)
  else match s.stage obj pos with
    | none => some (s.rs obj)
    | some g =>
      if g.claimed || !g.full b.pwords then some (s.rs obj)
      else if !s.combineRoom obj then some (.defer 1)
      else none

/-- ARRIVE and ARRIVE_WAIT (R132, R134, R152, Table 5.3). -/
def arriveBody (c : Ctx) (s : State) : Res × State :=
  let obj := c.obj
  match s.barrier obj with
  | none => (s.rs obj, s)
  | some b =>
    if b.binding then (s.rs obj, s)
    else match agentIdx b.members c.pos with
      | none => (s.rs obj, s)
      | some i =>
        match b.members[i]? with
        | none => (s.rs obj, s)
        | some e =>
          if e.res then (.ans .resigned (BitVec.ofNat 51 (b.gen.toNat % 65536)), s)
          else
            let d := genDist c.w.gen16 b.gen
            let wait := c.op == .arriveWait
            if d = 0 ∧ !e.arr then
              match (if c.w.staged then s.stagedCheck obj b c.pos else none) with
              | some r => (r, s)
              | none =>
                let s1 := s.countArrival obj i
                let s2 := if c.w.staged then s1.sendOperand obj c.pos false else s1
                let s3 := s2.checkComplete obj false
                match s3.releasedNow obj b.gen with
                | some v => (.ans .released v, s3)
                | none =>
                  let n := (s1.barrier obj).elim 0 Barrier.arrived
                  let open_ := (s3.barrier obj).elim false (fun x => !x.completing)
                  if !wait then (.ans .ok (arrivalValue b.gen n false), s3)
                  else if b.fallen && b.abortOnFall && open_ then
                    (.ans .flagFall (BitVec.ofNat 51 (b.gen.toNat % 65536)), s3)
                  else s3.bindWait c (.gen b.gen) 0 c.pendingValue
            else if d = 1 ∧ e.arr ∧ !e.adv then
              match (if c.w.staged then s.stagedCheck obj b c.pos else none) with
              | some r => (r, s)
              | none =>
                let s1 := s.holdAdvance obj i c.w.staged
                let mark (g : Staging) : Staging := { g with claimed := true }
                let s2 := if c.w.staged then
                    { s1 with stages := tmod none s1.stages (stageKey obj c.pos) (fun g => g.map mark) }
                  else s1
                if wait then s2.bindWait c (.gen (b.gen + 1)) 0 c.pendingValue
                else (.ans .ok (arrivalValue (b.gen + 1) (b.advQ.length + 1) true), s2)
            else (s.rs obj, s)

/-- WAIT on a barrier (Table 5.1, Table 5.3). -/
def waitBarrier (c : Ctx) (b : Barrier) (s : State) : Res × State :=
  let obj := c.obj
  if b.binding then (s.rs obj, s)
  else if (agentIdx b.members c.pos).any (fun i => (b.members[i]?).any Ent.res) then
    (.ans .resigned (BitVec.ofNat 51 (b.gen.toNat % 65536)), s)
  else
    let d := genDist c.w.gen16 b.gen
    if d = 0xFFFF then
      if b.gen = 0 then (s.rs obj, s) else (.ans .released (s.releaseValue obj b (b.gen - 1) b.relNote), s)
    else if b.vacant && !b.completing then (s.rs obj, s)
    else if d = 0 then
      if b.fallen && b.abortOnFall then (.ans .flagFall (BitVec.ofNat 51 (b.gen.toNat % 65536)), s)
      else s.bindWait c (.gen b.gen) 0 c.pendingValue
    else if d = 1 then s.bindWait c (.gen (b.gen + 1)) 0 c.pendingValue
    else (s.rs obj, s)

/-- PAYLOAD_WRITE (R138, R139); the room in the operation table is its last check. -/
def payloadBody (c : Ctx) (s : State) : Res × State :=
  let obj := c.obj
  let i := c.w.arg.toNat % 32
  match s.barrier obj with
  | none => (s.rs obj, s)
  | some b =>
    let live := (agentIdx b.members c.pos).any (fun i => (b.members[i]?).any Ent.live)
    if b.binding || b.pwords == 0 || decide (b.pwords ≤ i) || !live then (s.rs obj, s)
    else
      let w := wingOf obj
      let put (g : Staging) (s : State) : State :=
        let g1 := { g with written := g.written ||| BitVec.twoPow 32 i, data := accSetDword g.data i c.w.data }
        { s with stages := tset none s.stages (stageKey obj c.pos) (some g1) }
      match s.stage obj c.pos with
      | some g => if g.claimed then (s.rs obj, s) else if !s.opFree w then (.defer 1, s) else (okv 0, put g s)
      | none =>
        if !s.opsOk w c.dom then (quota 3, s)
        else if !s.accOk w c.dom 1 then (quota 4, s)
        else match s.allocAccs w 1 with
          | none => (quota 8, s)
          | some (a, s1) =>
            if !s.opFree w then (.defer 1, s)
            else
              let s2 := (s1.takeOp w c.dom).modUse w c.dom (fun u => { u with acc := u.acc + 256 })
              (okv 0, put { acc := a, dom := c.dom, written := 0, data := 0, claimed := false } s2)

/-- The bytes of a result by its operation (Table 5.8); words past them read as zero (R142). -/
def resultBytes (combine pwords : Nat) : Nat := if combine / 16 = 8 then 20 else 8 * pwords

/-- RESULT_READ (R142). -/
def resultBody (c : Ctx) (s : State) : Res × State :=
  let obj := c.obj
  match s.barrier obj with
  | none => (s.rs obj, s)
  | some b =>
    let i := c.w.arg.toNat % 64
    if b.gen = 0 ∨ b.pwords = 0 ∨ c.w.data.extractLsb' 0 16 ≠ (b.gen - 1).truncate 16 then (s.rs obj, s)
    else if resultBytes b.combine b.pwords ≤ 4 * i then (okv 0, s)
    else (okv (accWord (s.resultOf obj b) i).toNat, s)

/-- RESIGN on a barrier (R156, R157). -/
def resignBarrier (c : Ctx) (b : Barrier) (s : State) : Res × State :=
  let obj := c.obj
  let x := entryOf c.w.ent0
  if b.binding || b.vacant then (s.rs obj, s)
  else match entIdx b.members x.relay x.who with
    | none => (s.rs obj, s)
    | some i =>
      match b.members[i]? with
      | none => (s.rs obj, s)
      | some e =>
        if e.res || e.adv then (s.rs obj, s)
        else
          let s1 := s.modBarrier obj (fun b => { b with members := updAt b.members i (fun e => { e with res := true }),
                                                        note := true })
          let s2 := if x.relay then s1 else s1.dropStage obj x.who
          let ws := s2.waiters obj
          let mine := ws.filter (fun y => !x.relay && y.pos == x.who)
          let s3 := (s2.setWaiters obj (ws.filter (fun y => x.relay || y.pos != x.who))).completeAll (wingOf obj)
            (mine.map (fun y => (y.pos, y.slot, Status.resigned, BitVec.ofNat 51 (b.gen.toNat % 65536))))
          let s4 := s3.checkComplete obj true
          match s4.releasedNow obj b.gen with
          | some v => (.ans .released v, s4)
          | none => (okv 0, s4)

/-! ### Flag fall -/

/-- A straggler report: the live members not arrived, and the first 8 of them (R153). -/
def stragglerOf (obj : Nat) (b : Barrier) : Straggler :=
  { obj := obj, gen := b.gen, missing := b.missing.length, arrived := b.arrived,
    named := (b.missing.take 8).map (fun e => { relay := e.relay, who := e.who }) }

/-- The scheduler positions that a report is announced to (R154). -/
def State.stragglerTo (s : State) (b : Barrier) (r : Straggler) : List Nat :=
  let agents := (r.named.filter (fun m => !m.relay)).map (fun m => (s.posEnt m.who).schedPos)
  match agents with
  | [] => match b.members.find? (fun e => !e.relay) with
    | some e => [(s.posEnt e.who).schedPos]
    | none => []
  | _ => agents.eraseDups

/-- Write a straggler report into the file's ring and announce it (R153, R154). -/
def State.straggle (s : State) (obj : Nat) (b : Barrier) : State :=
  let f := fileOf obj
  let i := (s.file f).ringNext
  let r := stragglerOf obj b
  let s1 := (s.modFile f (fun x => { x with ring := tset none x.ring i (some r), ringNext := (i + 1) % 16 })).raise
    (bFIL f) 0
  each (fun p s => s.notify p (.straggler obj r.missing i b.gen)) (s.stragglerTo b r) s1

/-- The waiters of one generation of a barrier complete with FLAG_FALL (R152, R239). -/
def State.fallWaiters (s : State) (obj : Nat) (g : BitVec 32) : State :=
  let ws := s.waiters obj
  let out := ws.filter (fun x => x.kind == .gen g)
  (s.setWaiters obj (ws.filter (fun x => !(x.kind == .gen g)))).completeAll (wingOf obj)
    (out.map (fun x => (x.pos, x.slot, Status.flagFall, BitVec.ofNat 51 (g.toNat % 65536))))

/-- A flag fall whose deadline has passed with the generation incomplete (R151, R152). A contained file holds the event
(R338), and a wing that is not ACTIVE is woken by it (R319). -/
def State.flagFallAt (s0 : State) (obj : Nat) : State :=
  match s0.barrierAt obj with
  | none => s0
  | some b =>
    if b.deadline = 0 ∨ s0.now < b.deadline ∨ b.completing ∨ b.fallen ∨ s0.fileContained obj then s0
    else if !s0.active (wingOf obj) then s0.wake (wingOf obj) 7 1
    else s0.unit obj (.fall obj) (fun s =>
      let s1 := (s.modBarrier obj (fun b => { b with fallen := true })).straggle obj b
      if b.abortOnFall then s1.fallWaiters obj b.gen else s1)

end Sys2Proof.Machine
end

