-- ==== Sys2Proof/Machine/Combine.lean ====
section
/-! DEFINITION. The combiner (R141 to R149) and level combining (Table 8.4): element formats, arithmetic, folding, the
finishing pass. -/
namespace Sys2Proof.Machine

/-! ### Formats (Tables 5.5 and 5.6) -/

/-- Bytes per element of a format (Table 5.5). -/
def fmtBytes (f : Nat) : Nat :=
  match f with
  | 3 => 4
  | 4 => 2
  | 5 => 2
  | 6 => 1
  | 7 => 1
  | _ => 8

/-- Exponent and mantissa widths of a floating-point format. -/
def fmtShape (f : Nat) : Nat × Nat :=
  match f with
  | 3 => (8, 23)
  | 4 => (8, 7)
  | 5 => (5, 10)
  | 6 => (4, 3)
  | 7 => (5, 2)
  | _ => (8, 23)

/-- Is a format floating-point? -/
def isFloat (f : Nat) : Bool := decide (3 ≤ f ∧ f ≤ 7)

/-- The encoding of +∞ of exponent width `e` and mantissa width `m`. -/
def infBits (e m : Nat) : Nat := (2 ^ e - 1) * 2 ^ m

/-- The positive quiet NaN (R144). -/
def qnan (e m : Nat) : Nat := infBits e m + 2 ^ (m - 1)

/-- The magnitude bits of an encoding. -/
def magBits (e m x : Nat) : Nat := x % 2 ^ (e + m)

/-- The sign bit of an encoding. -/
def signBit (e m x : Nat) : Bool := x / 2 ^ (e + m) % 2 == 1

/-- Is an IEEE encoding a NaN (Table 5.6)? -/
def isNaN (e m x : Nat) : Bool := decide (infBits e m < magBits e m x)

/-- Is an IEEE encoding an infinity (Table 5.6)? -/
def isInf (e m x : Nat) : Bool := magBits e m x == infBits e m

/-- The magnitude of a finite encoding, counted in the format's smallest subnormal. -/
def magnitude (e m x : Nat) : Nat :=
  let b := magBits e m x
  let ex := b / 2 ^ m
  if ex = 0 then b else (2 ^ m + b % 2 ^ m) * 2 ^ (ex - 1)

/-- The exact value of a finite encoding, counted in the format's smallest subnormal. -/
def exact (e m x : Nat) : Int := if signBit e m x then -(magnitude e m x : Int) else magnitude e m x

/-- Round a magnitude to nearest, ties to even; ∞ on overflow (R144). -/
def roundMag (e m n : Nat) : Nat :=
  if n < 2 ^ (m + 1) then n
  else
    let k := n.log2 - m
    let q := n / 2 ^ k
    let r := n % 2 ^ k
    let up := decide (2 ^ k < 2 * r) || (2 * r == 2 ^ k && q % 2 == 1)
    let b := k * 2 ^ m + q + (if up then 1 else 0)
    if infBits e m ≤ b then infBits e m else b

/-- Addition (R144). -/
def fadd (e m a b : Nat) : Nat :=
  if isNaN e m a || isNaN e m b then qnan e m
  else if isInf e m a && isInf e m b then (if signBit e m a == signBit e m b then a else qnan e m)
  else if isInf e m a then a
  else if isInf e m b then b
  else
    let v := exact e m a + exact e m b
    if v = 0 then (if signBit e m a && signBit e m b then 2 ^ (e + m) else 0)
    else roundMag e m v.natAbs + (if v < 0 then 2 ^ (e + m) else 0)

/-- A key that orders the encodings that are not NaN, with −0 below +0 (R144, R148). -/
def orderKey (e m x : Nat) : Int := if signBit e m x then -(magBits e m x : Int) - 1 else magBits e m x

/-! ### Elements -/

/-- The elements of an operand: `n` of `bytes` bytes each, from the lowest. -/
def elems (bytes : Nat) : Nat → Nat → List Nat
  | 0, _ => []
  | n + 1, x => x % 2 ^ (8 * bytes) :: elems bytes n (x / 2 ^ (8 * bytes))

/-- Put elements together, the first lowest. -/
def pack (bytes : Nat) : List Nat → Nat
  | [] => 0
  | x :: t => x % 2 ^ (8 * bytes) + 2 ^ (8 * bytes) * pack bytes t

/-- Combine two lists element by element. -/
def zipElems (f : Nat → Nat → Nat) : List Nat → List Nat → List Nat
  | a :: s, b :: t => f a b :: zipElems f s t
  | _, _ => []

/-- A pair is index and FP32 value (Table 5.5): is the first greater than the second (R148)? -/
def pairGt (a b : Nat) : Bool :=
  let ia := a % 2 ^ 32
  let ib := b % 2 ^ 32
  let va := a / 2 ^ 32
  let vb := b / 2 ^ 32
  match isNaN 8 23 va, isNaN 8 23 vb with
  | true, true => decide (ia < ib)
  | true, false => true
  | false, true => false
  | false, false =>
    let ka := orderKey 8 23 va
    let kb := orderKey 8 23 vb
    decide (kb < ka) || (ka == kb && decide (ia < ib))

/-- A pair with its value's NaN as R148 writes it. -/
def canonPair (p : Nat) : Nat := if isNaN 8 23 (p / 2 ^ 32) then p % 2 ^ 32 + 2 ^ 32 * 0x7FC00000 else p

/-- Put a pair into a descending list behind every pair that it is not greater than (R148 rule 4). -/
def insertPair (l : List Nat) (p : Nat) : List Nat :=
  match l with
  | [] => [p]
  | q :: t => if pairGt p q then p :: q :: t else q :: insertPair t p

/-- The absolute value of an element (R144): INT64 results are read as UINT64. -/
def absElem (f x : Nat) : Nat :=
  if isFloat f then (let (e, m) := fmtShape f; if isNaN e m x then qnan e m else magBits e m x)
  else if f = 1 && decide (2 ^ 63 ≤ x) then 2 ^ 64 - x
  else x

/-- An element as the working accumulator first holds it: absolute for AMAX, and NaN in its one form (R144). -/
def prepElem (op f x : Nat) : Nat :=
  if op = 4 then absElem f x
  else if isFloat f && op ≤ 3 then (let (e, m) := fmtShape f; if isNaN e m x then qnan e m else x)
  else if op = 10 then canonPair x
  else x

/-- The order key of an element for MIN, MAX and AMAX. -/
def elemKey (op f x : Nat) : Int :=
  if isFloat f then (let (e, m) := fmtShape f; orderKey e m x)
  else if f = 1 && op != 4 && decide (2 ^ 63 ≤ x) then (x : Int) - 2 ^ 64
  else x

/-- Combine the accumulated element with a prepared one (R144, R148, Table 5.4). -/
def combineElem (op f a b : Nat) : Nat :=
  let (e, m) := fmtShape f
  match op with
  | 1 => if isFloat f then fadd e m a b else (a + b) % 2 ^ 64
  | 2 => if isFloat f && (isNaN e m a || isNaN e m b) then qnan e m
         else if elemKey op f b < elemKey op f a then b else a
  | 3 => if isFloat f && (isNaN e m a || isNaN e m b) then qnan e m
         else if elemKey op f a < elemKey op f b then b else a
  | 4 => if isFloat f && (isNaN e m a || isNaN e m b) then qnan e m
         else if elemKey op f a < elemKey op f b then b else a
  | 5 => Nat.land a b
  | 6 => Nat.lor a b
  | 7 => Nat.xor a b
  | 9 => if a < b then b else a
  | 10 => if pairGt b a then b else a
  | _ => a

/-- Classify one element (Table 5.6): NaN, +∞, −∞ as 1, 2, 3; 0 when it is finite. -/
def classify (f x : Nat) : Nat :=
  if f = 6 then (if x % 128 = 127 then 1 else 0)
  else
    let (e, m) := fmtShape f
    if isNaN e m x then 1 else if isInf e m x then (if signBit e m x then 3 else 2) else 0

/-- Add an operand's classes to the counts of Table 5.7. -/
def countElems (f : Nat) : List Nat → List Nat → List Nat
  | [], c => c
  | x :: t, c =>
    let k := classify f x
    let bump (i : Nat) (c : List Nat) : List Nat := updAt c i (· + 1)
    countElems f t (bump 4 (if k = 0 then c else bump 0 (bump k c)))

/-- The element size that an operation works in: EXPMAX takes bytes, and TOPK and MAXLOC pairs. -/
def opBytes (code : Nat) : Nat := if code / 16 = 9 then 1 else fmtBytes (code % 16)

/-- The elements of an operand of PWORDS words. -/
def operandElems (code pwords : Nat) (x : BitVec 2048) : List Nat :=
  elems (opBytes code) (8 * pwords / opBytes code) x.toNat

/-- Fold one operand into the working accumulator (R141, R144 to R148). The first operand of a generation stands as it
is, in the forms of R144 (log 31). -/
def foldOperand (code pwords : Nat) (first : Bool) (acc x : BitVec 2048) : BitVec 2048 :=
  let op := code / 16
  let f := code % 16
  let xs := operandElems code pwords x
  if op = 8 then
    BitVec.ofNat 2048 (pack 4 (countElems f xs (if first then [0, 0, 0, 0, 0] else elems 4 5 acc.toNat)))
  else if op = 11 then
    let base := if first then [] else elems 8 pwords acc.toNat
    BitVec.ofNat 2048 (pack 8 (((xs.map canonPair).foldl insertPair base).take pwords))
  else
    let ys := xs.map (prepElem op f)
    if first then BitVec.ofNat 2048 (pack (opBytes code) ys)
    else BitVec.ofNat 2048 (pack (opBytes code) (zipElems (combineElem op f) (operandElems code pwords acc) ys))

/-- One element of the empty result (Table 5.4). -/
def emptyElem (op f : Nat) : Nat :=
  let (e, m) := fmtShape f
  match op with
  | 2 => if isFloat f then infBits e m else if f = 1 then 2 ^ 63 - 1 else 2 ^ 64 - 1
  | 3 => if isFloat f then 2 ^ (e + m) + infBits e m else if f = 1 then 2 ^ 63 else 0
  | 5 => 2 ^ 64 - 1
  | 10 => 0xFF800000FFFFFFFF
  | 11 => 0xFF800000FFFFFFFF
  | _ => 0

/-- The empty result (Table 5.4, R141). -/
def emptyResult (code pwords : Nat) : BitVec 2048 :=
  if code / 16 = 8 then 0
  else BitVec.ofNat 2048 (pack (opBytes code)
    (List.replicate (8 * pwords / opBytes code) (emptyElem (code / 16) (code % 16))))

/-- The E8M0 scale code of a greatest amax code (R146). -/
def scaleCode (f x : Nat) : Nat := if x = 0xFF then 0xFF else x - (if f = 6 then 8 else 15)

/-- The finishing pass (R141, R146, R149). -/
def finishResult (code pwords folded : Nat) (acc : BitVec 2048) : BitVec 2048 :=
  if folded = 0 then emptyResult code pwords
  else if code / 16 = 9 then
    BitVec.ofNat 2048 (pack 1 ((elems 1 (8 * pwords) acc.toNat).map (scaleCode (code % 16))))
  else acc

/-! ### Level combining (Table 8.4) -/

/-- The level payload size S of a CHILD, in bytes. -/
def levelSize (code pwords : Nat) : Nat :=
  if code = 0 ∨ pwords = 0 then 0 else if code / 16 = 8 then 24 else 8 * pwords

/-- Combine two contributions at a level. -/
def levelCombine (code pwords : Nat) (a b : BitVec 2048) : BitVec 2048 :=
  let op := code / 16
  if code = 0 ∨ pwords = 0 then 0
  else if op = 8 then
    BitVec.ofNat 2048 (pack 4 (zipElems (fun x y => Nat.min 0xFFFFFFFF (x + y)) (elems 4 5 a.toNat) (elems 4 5 b.toNat)))
  else foldOperand code pwords false a b

/-! ### The combiner's steps -/

/-- The size of the operand's staging block's charge is returned, with its operation and accumulator (R140). -/
def State.returnOperand (s : State) (x : Operand) : State :=
  match x.acc with
  | none => s
  | some a =>
    let w := wingOf x.obj
    ((s.freeAccs w a 1).dropOp w x.dom).modUse w x.dom (fun u => { u with acc := u.acc - 256 })

/-- The combiner folds the operand at the front of a file's combine queue into its barrier's accumulator. -/
def State.foldFront (s : State) (f : Nat) (x : Operand) (t : List Operand) : State :=
  let w := wingOfFile f
  let s1 := s.modFile f (fun y => FileSt.fill 1 { y with combineQ := t })
  match s1.barrier x.obj with
  | none => s1.returnOperand x
  | some b =>
    let acc := foldOperand b.combine b.pwords (b.folded == 0) (s1.acc w b.accBase) x.data
    ((s1.setAcc w b.accBase acc).modBarrier x.obj (fun b => { b with folded := b.folded + 1 })).returnOperand x

/-- Does a wing's remap lock the row of an operand's staging block (R353)? -/
def State.operandLocked (s : State) (w : Wing) (x : Operand) : Bool :=
  (s.lockedRow w).any (fun r => x.acc.any (fun a => accInRow a r.1 r.2))

/-- Fold the oldest operand of a file's combine queue (R141). The combiner works while its wing is ACTIVE and CMB is not
contained (Table 12.5). -/
def State.foldNext (s : State) (f : Nat) : State :=
  let w := wingOfFile f
  if !s.active w || s.contained (bCMB w) then s
  else match (s.file f).combineQ with
    | [] => s
    | x :: t =>
      if s.operandLocked w x then s.park (.row w) (.fold f) else s.unit x.obj (.fold f) (fun s => s.foldFront f x t)

/-- The finishing pass of a complete generation whose operands are all folded (R135, R141): the final result is formed,
and the barrier leaves COMBINING. -/
def State.finishCombine (s0 : State) (obj : Nat) : State :=
  let w := wingOf obj
  match s0.barrierAt obj with
  | none => s0
  | some b =>
    if !b.combining || s0.unfolded obj || !s0.active w || s0.contained (bCMB w) then s0
    else s0.unit obj (.combine obj) (fun s =>
      let s1 := s.setAcc w b.accBase (finishResult b.combine b.pwords b.folded (s.acc w b.accBase))
      match b.parent with
      | some _ => (s1.modBarrier obj (fun b => { b with combining := false, parentWait := true })).work (.parent obj)
      | none => s1.leave obj (fun b => { b with combining := false }))

end Sys2Proof.Machine
end

