-- ==== Sys2Proof/Machine/Ledgers.lean ====
section
/-! DEFINITION. Chunk ledgers: the window, posting, checking, waiting, poisoning and the taint set (R255 to R267). -/
namespace Sys2Proof.Machine

/-- The chunks that a window tracks: C = 4w − 1 (R256). -/
def Ledger.span (l : Ledger) : Nat := 4 * l.window - 1

/-- Where a chunk index stands (R257). -/
inductive ChunkAt where
  | inWindow
  | ahead
  | retired
  deriving DecidableEq, Repr

/-- Where a chunk index stands in a ledger (R257). -/
def Ledger.locate (l : Ledger) (c : BitVec 24) : ChunkAt :=
  let d := (c - l.low).toNat
  if d < l.span then .inWindow else if d < 2 ^ 23 then .ahead else .retired

/-- The record of a chunk in the window; none for EMPTY. -/
def Ledger.chunk (l : Ledger) (c : BitVec 24) : Option Chunk := tget none l.chunks c.toNat

/-- A chunk's state code (Table 9.2, R257). -/
def Ledger.chunkCode (l : Ledger) (c : BitVec 24) : Nat :=
  match l.locate c with
  | .ahead => 0
  | .retired => 2
  | .inWindow => match l.chunk c with
    | none => 0
    | some k => match k.st with
      | .provisional => 1
      | .committed => 2
      | .poisoned => 3

/-- The list index of a live consumer (R259). -/
def Ledger.consumer (l : Ledger) (p : Nat) : Option Nat :=
  (idxsFrom (fun (e : Ent) => e.live && !e.relay && e.who == p) 0 l.consumers).head?

/-- The ledger at a number, when it is open and resident. -/
def State.ledger (s : State) (obj : Nat) : Option Ledger :=
  match s.obj obj with
  | some o => match o.body with
    | .ledger l => some l
    | _ => none
  | none => none

/-- Enter consumers into a chunk's taint set (R262). -/
def Chunk.taintBy (k : Chunk) : List Nat → Chunk
  | [] => k
  | i :: t => (if i < 64 then { k with taint := k.taint ||| BitVec.twoPow 64 i } else { k with taintAll := true }).taintBy t

/-- Advance LOW past every chunk that has committed, freeing their records (R257). -/
def Ledger.retire : Nat → Ledger → Ledger
  | 0, l => l
  | n + 1, l =>
    match l.chunk l.low with
    | some k => if k.st = .committed then Ledger.retire n { l with
        chunks := tset none l.chunks l.low.toNat none, low := l.low + 1,
        lepoch := if l.low + 1 = 0 then l.lepoch + 1 else l.lepoch } else l
    | none => l

/-- Complete every waiter of a ledger that satisfies a predicate (R258 to R265). -/
def State.finishWaiters (s : State) (obj : Nat) (p : Waiter → Bool) (st : Status) (v : BitVec 51) : State :=
  let ws := s.waiters obj
  (s.setWaiters obj (ws.filter (fun x => !p x))).completeAll (wingOf obj)
    ((ws.filter p).map (fun x => (x.pos, x.slot, st, v)))

/-- Does a waiter wait for a chunk? -/
def Waiter.forChunk (x : Waiter) (c : BitVec 24) : Bool :=
  match x.kind with
  | .chunk c' _ => c' == c
  | _ => false

/-- Is a waiter an EAGER one? -/
def Waiter.isEager (x : Waiter) : Bool :=
  match x.kind with
  | .chunk _ e => e
  | _ => false

/-- LEDGER_POST (R258, Table 9.3). -/
def ledgerPostBody (c : Ctx) (s : State) : Res × State :=
  let obj := c.obj
  let i := c.w.chunk
  match s.ledger obj with
  | none => (s.rs obj, s)
  | some l =>
    if l.faulted || l.binding || l.locate i != .inWindow then (s.rs obj, s)
    else
      let go (replays : Nat) : Res × State :=
        -- the EAGER waits that the post meets enter the taint set (R262)
        let met := (s.waiters obj).filter (fun x => x.forChunk i && x.isEager)
        let k : Chunk := ({ st := .provisional, crc := c.w.crc, producer := c.pos, replays := replays, taint := 0,
                            taintAll := false } : Chunk).taintBy (met.filterMap (fun x => l.consumer x.pos))
        let s1 := s.setBody obj (.ledger { l with chunks := tset none l.chunks i.toNat (some k) })
        (okv 1, s1.finishWaiters obj (fun x => x.forChunk i && x.isEager) .ok 1)
      match l.chunk i with
      | none => go 0
      | some k => if k.st = .poisoned then go k.replays else (s.rs obj, s)

/-- A ledger faults (R265). -/
def State.faultLedger (s : State) (obj : Nat) (l : Ledger) (c : BitVec 24) : State :=
  let f := fileOf obj
  let l1 : Ledger := { l with
    faulted := true, chunks := l.chunks.filter (fun x => x.2.any (fun k => k.st == .committed))
    consumers := l.consumers.map (fun e => { e with arr := false }) }
  let s1 := s.setBody obj (.ledger l1)
  let s2 := s1.finishWaiters obj (fun _ => true) .refusedState (s1.refusedValue obj)
  (s2.modFile f (fun x => { x with faultCnt := sat 0xF x.faultCnt, ldgLast := some (true, 3, obj, c.toNat) })).raise
    (bFIL f) 2

/-- Is the consumer at an index named by a chunk's taint set, and live (R263)? -/
def Chunk.names (k : Chunk) (i : Nat) (e : Ent) : Bool := e.live && (if i < 64 then k.taint.getLsbD i else k.taintAll)

/-- Mark the entries that a chunk's taint set names as owed, from list index `i`. -/
def oweFrom (k : Chunk) : Nat → List Ent → List Ent
  | _, [] => []
  | i, e :: t => (if k.names i e then { e with arr := true } else e) :: oweFrom k (i + 1) t

/-- A mismatching check poisons a chunk (R263). -/
def State.poison (s : State) (obj : Nat) (l : Ledger) (c : BitVec 24) (k : Chunk) : State :=
  let f := fileOf obj
  let first := if l.consumers.any (fun e => e.arr) then l.owedFirst else c
  let owed := oweFrom k 0 l.consumers
  let isOwed (p : Nat) : Bool := owed.any (fun e => e.arr && !e.relay && e.who == p)
  let ws := s.waiters obj
  let told (x : Waiter) : Bool := isOwed x.pos
  let cleared := owed.map (fun e => if ws.any (fun x => !e.relay && x.pos == e.who && told x) then { e with arr := false } else e)
  let k1 : Chunk := { k with st := .poisoned, crc := 0, replays := k.replays + 1, taint := 0, taintAll := false }
  let l1 : Ledger := { l with chunks := tset none l.chunks c.toNat (some k1), consumers := cleared, owedFirst := first }
  let s1 := (s.setBody obj (.ledger l1)).finishWaiters obj told .tainted (BitVec.ofNat 51 first.toNat)
  let s2 := s1.finishWaiters obj (fun x => x.forChunk c && x.pos == k.producer) .poisoned (BitVec.ofNat 51 c.toNat)
  (s2.modFile f (fun x => { x with poisonCnt := sat 0xFFFF x.poisonCnt
                                   ldgLast := some (false, k.replays + 1, obj, c.toNat) })).raise (bFIL f) 1

/-- LEDGER_CHECK (R259, Table 9.3). -/
def ledgerCheckBody (c : Ctx) (s : State) : Res × State :=
  let obj := c.obj
  let i := c.w.chunk
  let f := fileOf obj
  match s.ledger obj with
  | none => (s.rs obj, s)
  | some l =>
    if l.faulted || l.binding || (l.consumer c.pos).isNone then (s.rs obj, s)
    else match l.locate i with
      | .ahead => (s.rs obj, s)
      | .retired => (okv 2, s)
      | .inWindow => match l.chunk i with
        | none => (s.rs obj, s)
        | some k =>
          match k.st with
          | .poisoned => (.ans .poisoned 3, s)
          | .committed =>
            if k.crc = c.w.crc then (okv 2, s)
            else (.ans .poisoned 2, (s.modFile f (fun x => { x with lateCnt := sat 0xFF x.lateCnt })).raise (bFIL f) 3)
          | .provisional =>
            if k.crc = c.w.crc then
              let l1 : Ledger := { l with chunks := tset none l.chunks i.toNat (some { k with st := .committed }) }
              let s1 := s.setBody obj (.ledger (Ledger.retire 256 l1))
              (okv 2, s1.finishWaiters obj (fun x => x.forChunk i) .ok 2)
            else if k.replays = 3 then
              let s1 := s.faultLedger obj l i
              (s1.rs obj, s1)
            else (.ans .poisoned 3, s.poison obj l i k)

/-- The TAINTED answer to an owed consumer (R264). -/
def State.tellOwed (s : State) (obj : Nat) (l : Ledger) (i : Nat) : Res × State :=
  (.ans .tainted (BitVec.ofNat 51 l.owedFirst.toNat),
   s.setBody obj (.ledger { l with consumers := updAt l.consumers i (fun e => { e with arr := false }) }))

/-- Enter the caller into a chunk's taint set (R262). -/
def State.taint (s : State) (obj : Nat) (l : Ledger) (c : BitVec 24) (i : Nat) : State :=
  s.setBody obj (.ledger { l with chunks := tmod none l.chunks c.toNat (fun k => k.map (fun k => k.taintBy [i])) })

/-- WAIT on a ledger (R260, R262, R264, Table 9.3). -/
def waitLedger (c : Ctx) (l : Ledger) (s : State) : Res × State :=
  let obj := c.obj
  let i := c.w.chunk
  let me := l.consumer c.pos
  if l.faulted || l.binding || (c.w.eager && (!l.eager || me.isNone)) then (s.rs obj, s)
  else match me.bind (fun j => (l.consumers[j]?).bind (fun e => if e.arr then some j else none)) with
    | some j => s.tellOwed obj l j
    | none =>
      let code := l.chunkCode i
      if code = 2 then (okv 2, s)
      else if code = 1 && c.w.eager then (okv 1, s.taint obj l i (me.getD 0))
      else s.bindWait c (.chunk i c.w.eager) 0 c.pendingValue

/-- LEDGER_READ (R260, R262, R264, Table 9.3). A read with EAGER that enters the caller in the taint set already shows it in bit 4
(DESIGN CHOICE, log 79). -/
def ledgerReadBody (c : Ctx) (s : State) : Res × State :=
  let obj := c.obj
  let i := c.w.chunk
  match s.ledger obj with
  | none => (s.rs obj, s)
  | some l =>
    let me := l.consumer c.pos
    if l.faulted || l.binding || (c.w.eager && (!l.eager || me.isNone)) then (s.rs obj, s)
    else match me.bind (fun j => (l.consumers[j]?).bind (fun e => if e.arr then some j else none)) with
      | some j => s.tellOwed obj l j
      | none =>
        let code := l.chunkCode i
        let k := if l.locate i = .inWindow then l.chunk i else none
        let enters := code == 1 && c.w.eager
        let k1 := if enters then k.map (fun k => k.taintBy [me.getD 0]) else k
        let mine := k1.any (fun k => me.any (fun j => (l.consumers[j]?).any (fun e => k.names j e)))
        let all := k1.any (fun k => k.taintAll)
        (okv (code + (if mine then 16 else 0) + (if all then 32 else 0)),
         if enters then s.taint obj l i (me.getD 0) else s)

/-- RESIGN on a ledger (R266). -/
def resignLedger (c : Ctx) (l : Ledger) (s : State) : Res × State :=
  let obj := c.obj
  let x := entryOf c.w.ent0
  if l.faulted || l.binding then (s.rs obj, s)
  else match (idxsFrom (fun (e : Ent) => e.live && e.relay == x.relay && e.who == x.who) 0 l.consumers).head? with
    | none => (s.rs obj, s)
    | some i =>
      (okv 0, s.setBody obj (.ledger { l with consumers := updAt l.consumers i (fun e => { e with res := true, arr := false }) }))

end Sys2Proof.Machine
end

