-- ==== Sys2Proof/Machine/Locks.lean ====
section
/-! DEFINITION. Locks, semaphores, tokens and flags, with the chip's side of global locks. -/
namespace Sys2Proof.Machine

/-! ### Locks (R160 to R167) -/

/-- The lock at a number, wherever its record lies: what a stalemate walk knows of a lock by its directory entry. -/
def State.lockAt (s : State) (obj : Nat) : Option Lock :=
  let o := match s.resident obj with
    | some r => r.obj
    | none => (tget none s.backing obj).bind Backing.obj
  match o with
  | some x => match x.body with
    | .lock l => some l
    | _ => none
  | none => none

/-- The position on this chip that an identity names, if it does (R8). -/
def State.localPos (s : State) (ident : BitVec 26) : Option Nat :=
  if ident.extractLsb' 10 16 = s.iml.chip then some (ident.extractLsb' 0 10).toNat else none

/-- The highest priority among waiters. -/
def topPrio (l : List Waiter) : Nat := l.foldl (fun m x => hi m x.prio) 0

/-- The position of the highest-priority waiter; 0x3FF for none (Table 6.5). -/
def topPos (l : List Waiter) : Nat :=
  match l with
  | [] => 0x3FF
  | x :: _ => x.pos

/-- Send a promotion notice of kind HOLDER and record it in FIL_PROMO (R167). -/
def State.promotion (s : State) (obj : Nat) (holder : BitVec 26) (eff waiter : Nat) : State :=
  let s1 := s.modFile (fileOf obj) (fun f => { f with promo := some (eff, holder, obj) })
  match s.localPos holder with
  | some p => s1.notifyBoth p (.holder obj eff p waiter)
  | none => s1

/-- Make a position the holder of a local lock (R160), with the effective priority of R166 and its notice (R167). -/
def State.grantLock (s : State) (obj : Nat) (l : Lock) (p prio : Nat) : State :=
  let ws := s.waiters obj
  let eff := hi prio (topPrio ws)
  let s1 := s.setBody obj (.lock { l with holder := s.identity p, held := true, orphaned := false, prio := prio,
                                          eff := eff })
  -- a bound LOCK_ACQUIRE shows the identity of the holder (Table 3.5)
  let s2 := each (fun x s => match s.slot x.pos x.slot with
    | some r => s.setSlot x.pos x.slot (some { r with value := BitVec.ofNat 51 (s.identity p).toNat })
    | none => s) ws (s1.dirSet p obj (some .held))
  if prio < eff then s2.promotion obj (s.identity p) eff (topPos ws) else s2

/-- Pass a local lock to a waiter, whose slot becomes READY with the status (R163, R164, R171). -/
def State.passLock (s : State) (obj : Nat) (l : Lock) (x : Waiter) (st : Status) : State :=
  ((s.setWaiters obj (dequeue (s.waiters obj) x.pos x.slot)).grantLock obj l x.pos x.prio).complete (wingOf obj) x.pos
    x.slot st (BitVec.ofNat 51 (s.identity x.pos).toNat)

/-- Recompute a lock's effective priority when a waiter leaves (R166). That of a global lock is its arbiter's to give (R174). -/
def State.relaxLock (s : State) (obj : Nat) : State :=
  s.modObj obj (fun o => match o.body with
    | .lock l =>
      let here := l.held && l.global.isNone
      { o with body := .lock { l with eff := if here then hi l.prio (topPrio (s.waiters obj)) else l.eff } }
    | _ => o)

/-- The holder of a lock as a directory copy shows it (R169). -/
def State.dirHolder (s : State) (w : Wing) (obj : Nat) : Option Nat :=
  ((List.range 768).find? (fun p => (s.dir w p).any (fun x => x.1 == obj && x.2 == .held)))

/-- The walk of R169 from holder `h`, with `n` links left: the position of the holder that closes the chain on `r`. -/
def State.walk (s : State) (w : Wing) (r : Nat) : Nat → Nat → Option Nat
  | 0, _ => none
  | n + 1, h =>
    match (s.dir w h).find? (fun x => x.2 == .pending) with
    | none => none
    | some (l, _) =>
      if (s.lockAt l).any (fun x => x.global.isSome) then none
      else match s.dirHolder w l with
        | none => none
        | some h' => if h' = r then some h else s.walk w r n h'

/-- Does a request of position `r` for a lock held by `holder` close a chain (R169)? The closing holder's position. -/
def State.stalemate (s : State) (obj r : Nat) (holder : BitVec 26) : Option Nat :=
  match s.localPos holder with
  | none => none
  | some h => s.walk (wingOf obj) r 3 h

/-- Does a position have a LOCK_ACQUIRE pending (R161)? -/
def State.acquiring (s : State) (obj p : Nat) : Bool := (s.dir (wingOf obj) p).any (fun x => x.2 == .pending)

/-- May a position hold or queue for one more lock (R161)? -/
def State.mayLock (s : State) (obj p : Nat) : Bool := decide ((s.dir (wingOf obj) p).length < 16)

/-! ### Global locks at the requesting chip (R175) -/

/-- The chip of group 0's L2 arbiter (R173). -/
def State.glockHome (s : State) : Option (BitVec 16) := ((s.group 0).arbs.getD 1 none)

/-- A frame body from (offset, byte) pairs. -/
def bodyOf (l : List (Nat × Byte)) : List Byte :=
  (List.range 48).map (fun i => match l.find? (fun x => x.1 == i) with
    | some x => x.2
    | none => 0)

/-- The bytes of a number from an offset, lowest first (R5). -/
def bytesAt (off n v : Nat) : List (Nat × Byte) :=
  (List.range n).map (fun i => (off + i, BitVec.ofNat 8 (v / 256 ^ i)))

/-- A GLOCK frame (Table 10.11). OBJ names the global lock and bit 7 of the PRIO byte marks a LOCK_TRY (log 33). -/
def glockFrame (src dst : BitVec 16) (kind lock : Nat) (ident : BitVec 26) (prio : Nat) (try_ : Bool) (st : Nat) : Frame :=
  { ftype := 0x21, term := 0, src := src, dst := dst, dom := 0, level := 0, frag := 0, obj := BitVec.ofNat 20 lock,
    group := 0, fcount := 0, fwd := false, gen := 0
    body := bodyOf ((0, BitVec.ofNat 8 kind) :: (8, BitVec.ofNat 8 (prio + (if try_ then 128 else 0))) ::
      (9, BitVec.ofNat 8 st) :: bytesAt 4 4 ident.toNat) }

/-- Send a GLOCK frame to the arbiter, when the group has one. The frame builder of the lock's wing builds it (R39). -/
def State.toGlockHome (s : State) (obj kind lock : Nat) (ident : BitVec 26) (prio : Nat) (try_ : Bool) : State :=
  match s.glockHome with
  | some a => s.work (.sendBy (some (wingOf obj)) (glockFrame s.iml.chip a kind lock ident prio try_ 0))
  | none => s

/-- The VALUE of PENDING for a global-bound lock (R175). -/
def State.glockPending (s : State) (l : Lock) : BitVec 51 :=
  if l.held then BitVec.ofNat 51 l.holder.toNat
  else BitVec.ofNat 51 ((s.glockHome.getD 0).toNat * 1024 + 0x3FF)

/-- LOCK_ACQUIRE and LOCK_TRY on a global-bound lock (R175). The limit of R161 refuses a LOCK_ACQUIRE at once; a LOCK_TRY neither
grants nor queues while another holds the lock, so its limit is looked at when a grant comes back. -/
def State.glockRequest (s : State) (c : Ctx) (l : Lock) (g : Nat) : Res × State :=
  let obj := c.obj
  let wait := c.op == .lockAcquire
  let prio := if wait then c.w.prio.toNat else 0
  if c.req.onSlot && !wait then (.ans .refusedState (BitVec.ofNat 51 (3 * 2 ^ 36 + 5 * 2 ^ 32)), s)
  else if l.held && l.holder == s.identity c.pos || s.acquiring obj c.pos || wait && !s.mayLock obj c.pos then (s.rs obj, s)
  else
    let req (e : Option EntryId) (s : State) : State :=
      let s1 : State := { s with
        glockReqs := s.glockReqs ++
          [{ mute := false, tag := c.w.tag, lock := g, obj := obj, pos := c.pos, prio := prio, try_ := e }] }
      s1.toGlockHome obj 0 g (s.identity c.pos) prio e.isSome
    if wait then
      let (r, s1) := s.bindWait c (.lock false) prio (s.glockPending l)
      (r, (req none s1).dirSet c.pos obj (some .pending))
    else match c.req with
      | .win e => (.later, req (some e) s)
      | _ => (s.rs obj, s)

/-- Withdraw a position's request for a global lock (Table 6.2). -/
def State.withdrawGlock (s : State) (obj p : Nat) : State :=
  match s.glockReqs.find? (fun x => x.obj == obj && x.pos == p && x.try_.isNone) with
  | none => s
  | some x =>
    let s1 : State := { s with glockReqs := s.glockReqs.filter (fun y => y != x) }
    s1.toGlockHome obj 4 x.lock (s.identity p) 0 false

/-! ### Lock commands -/

/-- LOCK_ACQUIRE and LOCK_TRY (R160 to R162, R165, R169, R175). -/
def acquireBody (c : Ctx) (s : State) : Res × State :=
  let obj := c.obj
  let me := s.identity c.pos
  let mev := BitVec.ofNat 51 me.toNat
  let wait := c.op == .lockAcquire
  let prio := if wait then c.w.prio.toNat else 0
  match s.obj obj with
  | some { body := .lock l, .. } =>
    match l.global with
    | some g => s.glockRequest c l g
    | none =>
      if (l.held && l.holder == me) || s.acquiring obj c.pos then (s.rs obj, s)
      else if !l.held then
        if !s.mayLock obj c.pos then (s.rs obj, s)
        else (.ans (if l.orphaned then .grantedOrphan else .granted) mev, s.grantLock obj l c.pos prio)
      else if !wait then (.ans .busy (BitVec.ofNat 51 l.holder.toNat), s)
      else match s.stalemate obj c.pos l.holder with
        | some h => (.ans .stalemate (BitVec.ofNat 51 (s.identity h).toNat), s)
        | none =>
          if !s.mayLock obj c.pos then (s.rs obj, s)
          else
            let (r, s1) := s.bindWait c (.lock true) prio (BitVec.ofNat 51 l.holder.toNat)
            let s2 := s1.dirSet c.pos obj (some .pending)
            let s3 := if l.eff < prio then
                (s2.setBody obj (.lock { l with eff := prio })).promotion obj l.holder prio (topPos (s2.waiters obj))
              else s2
            (r, s3)
  | _ => (s.rs obj, s)

/-- LOCK_RELEASE (R163, R175). -/
def releaseBody (c : Ctx) (s : State) : Res × State :=
  let obj := c.obj
  let me := s.identity c.pos
  match s.obj obj with
  | some { body := .lock l, .. } =>
    if !(l.held && l.holder == me) then (s.rs obj, s)
    else
      let s1 := s.dirSet c.pos obj none
      match l.global with
      | some g => (okv 0, (s1.setBody obj (.lock { l with held := false })).toGlockHome obj 1 g me 0 false)
      | none =>
        match s.waiters obj with
        | [] => (okv 0, s1.setBody obj (.lock { l with held := false }))
        | x :: _ => (okv ((s.identity x.pos).toNat + 2 ^ 26), s1.passLock obj l x .granted)
  | _ => (s.rs obj, s)

/-- LOCK_HANDOFF (R164). -/
def handoffBody (c : Ctx) (s : State) : Res × State :=
  let obj := c.obj
  match s.obj obj with
  | some { body := .lock l, .. } =>
    if !(l.held && l.holder == s.identity c.pos) || l.global.isSome then (s.rs obj, s)
    else
      let dest : BitVec 26 := c.w.data.extractLsb' 0 26
      match (s.waiters obj).find? (fun x => s.identity x.pos == dest) with
      | none => (s.rs obj, s)
      | some x => (okv dest.toNat, (s.dirSet c.pos obj none).passLock obj l x .granted)
  | _ => (s.rs obj, s)

/-- The second walk of a request that queued (R170). Both directory copies show every update by then, but for the removal by
another second walk within the last 8 cycles: so two requests that close a cycle between the wings both complete with STALEMATE. -/
def State.secondWalk (s : State) (obj p : Nat) : State :=
  let w := wingOf obj
  if !s.active w || s.fileContained obj then s
  else match (s.waiters obj).find? (fun x => x.pos == p && x.kind == .lock true) with
    | none => s
    | some x => s.unit obj (.walk obj p) (fun s =>
      let s1 := s.dirCrossWalk
      let s2 := s1.setWaiters obj ((s1.waiters obj).map (fun y => if y == x then { y with kind := .lock false } else y))
      match s2.obj obj with
      | some { body := .lock l, .. } =>
        if !l.held then s2
        else match s2.stalemate obj p l.holder with
          | none => s2
          | some h =>
            (((s2.setWaiters obj (dequeue (s2.waiters obj) p x.slot)).dirSetBy true p obj none).relaxLock obj).complete w p x.slot
              .stalemate (BitVec.ofNat 51 (s.identity h).toNat)
      | _ => s2)

/-- Orphan one lock that position `p` holds (R171, R176). The arbiter keeps a global lock's ORPHANED bit (log 34). -/
def State.orphanLock (s0 : State) (obj p : Nat) : State := s0.unit obj (.orphan obj p) (fun s =>
  let dest := (s.posEnt p).schedPos
  match s.obj obj with
  | some { body := .lock l, .. } =>
    if !(l.held && l.holder == s.identity p) then s
    else
      let s1 := s.dirSet p obj none
      match l.global with
      | some g =>
        ((s1.setBody obj (.lock { l with held := false })).toGlockHome obj 3 g (s.identity p) 0 false).notify dest
          (.orphan obj p false)
      | none =>
        match s.waiters obj with
        | [] => (s1.setBody obj (.lock { l with held := false, orphaned := true })).notify dest (.orphan obj p false)
        | x :: _ => (s1.passLock obj l x .grantedOrphan).notify dest (.orphan obj p true)
  | _ => s)

/-! ### Semaphores (R177 to R179) -/

/-- Serve takers in order while the count covers the first of them (R177, R180): those served with what each leaves, the
takers left, and the count left. -/
def serve : List Waiter → Nat → List (Waiter × Nat) × List Waiter × Nat
  | [], n => ([], [], n)
  | x :: t, n =>
    match x.kind with
    | .amount a =>
      if a ≤ n then
        let (out, rest, m) := serve t (n - a)
        ((x, n - a) :: out, rest, m)
      else ([], x :: t, n)
    | _ => ([], x :: t, n)

/-- Serve an object's takers from a count; the count left. -/
def State.serveTakers (s : State) (obj n : Nat) : Nat × State :=
  let (out, rest, m) := serve (s.waiters obj) n
  (m, (s.setWaiters obj rest).completeAll (wingOf obj)
        (out.map (fun x => (x.1.pos, x.1.slot, Status.ok, BitVec.ofNat 51 x.2))))

/-- Is a taker of equal or higher priority waiting (R178)? -/
def State.takerAhead (s : State) (obj prio : Nat) : Bool := (s.waiters obj).any (fun x => decide (prio ≤ x.prio))

/-- SEM_POST (R177). -/
def semPostBody (c : Ctx) (s : State) : Res × State :=
  let obj := c.obj
  match s.obj obj with
  | some { body := .sem n, .. } =>
    if 2 ^ 31 ≤ n + c.w.amount then (s.rs obj, s)
    else
      let (m, s1) := s.serveTakers obj (n + c.w.amount)
      (okv m, s1.setBody obj (.sem m))
  | _ => (s.rs obj, s)

/-- SEM_TAKE (R178). -/
def semTakeBody (c : Ctx) (s : State) : Res × State :=
  let obj := c.obj
  match s.obj obj with
  | some { body := .sem n, .. } =>
    if c.w.amount ≤ n && !s.takerAhead obj c.w.prio.toNat then
      (okv (n - c.w.amount), s.setBody obj (.sem (n - c.w.amount)))
    else s.bindWait c (.amount c.w.amount) c.w.prio.toNat c.pendingValue
  | _ => (s.rs obj, s)

/-- SEM_TRY (R179). -/
def semTryBody (c : Ctx) (s : State) : Res × State :=
  let obj := c.obj
  match s.obj obj with
  | some { body := .sem n, .. } =>
    if c.w.amount ≤ n && (s.waiters obj).isEmpty then (okv (n - c.w.amount), s.setBody obj (.sem (n - c.w.amount)))
    else (.ans .busy (BitVec.ofNat 51 n), s)
  | _ => (s.rs obj, s)

/-! ### Tokens (R180 to R184) -/

/-- The first live entry at or after an index, wrapping once; none when no entry is live (R181). -/
def nextLive (l : List Ent) (i : Nat) : Option Nat :=
  match (idxsFrom Ent.live 0 l).find? (fun j => decide (i ≤ j)) with
  | some j => some j
  | none => (idxsFrom Ent.live 0 l).head?

/-- The entry at NEXT_GIVER, when a live entry exists (R181, R183). -/
def Token.expected (t : Token) : Option Ent := (nextLive t.givers t.nextGiver).bind (fun i => t.givers[i]?)

/-- Send a promotion notice of kind GIVER for the first taker (R183). -/
def State.giverNotice (s : State) (obj : Nat) (t : Token) : State :=
  match t.expected, s.waiters obj with
  | some e, x :: _ =>
    let lack := match x.kind with
      | .amount a => a - t.credits
      | _ => 0
    s.notifyBoth e.who (.giver obj x.prio e.who lack)
  | _, _ => s

/-- TOKEN_GIVE (R180, R181, R183). -/
def tokenGiveBody (c : Ctx) (s : State) : Res × State :=
  let obj := c.obj
  match s.obj obj with
  | some { body := .token t, .. } =>
    let mine := idxsFrom (fun (e : Ent) => e.live && !e.relay && e.who == c.pos) 0 t.givers
    if t.binding || decide (t.capacity < t.credits + c.w.amount) || (t.gcount != 0 && mine.isEmpty) then (s.rs obj, s)
    else
      let (m, s1) := s.serveTakers obj (t.credits + c.w.amount)
      let here := (nextLive t.givers t.nextGiver).any (fun i => mine.contains i)
      let next := if here then (nextLive t.givers ((nextLive t.givers t.nextGiver).getD 0 + 1)).getD 0 else t.nextGiver
      let t1 : Token := { t with credits := m, nextGiver := next }
      let s2 := s1.setBody obj (.token t1)
      (okv m, if next != t.nextGiver then s2.giverNotice obj t1 else s2)
  | _ => (s.rs obj, s)

/-- TOKEN_TAKE (R182, R183). -/
def tokenTakeBody (c : Ctx) (s : State) : Res × State :=
  let obj := c.obj
  match s.obj obj with
  | some { body := .token t, .. } =>
    if t.binding || decide (t.capacity < c.w.amount) then (s.rs obj, s)
    else
      let ahead := s.takerAhead obj c.w.prio.toNat
      if c.w.amount ≤ t.credits && !ahead then
        (okv (t.credits - c.w.amount), s.setBody obj (.token { t with credits := t.credits - c.w.amount }))
      else
        let (r, s1) := s.bindWait c (.amount c.w.amount) c.w.prio.toNat c.pendingValue
        (r, if ahead then s1 else s1.giverNotice obj t)
  | _ => (s.rs obj, s)

/-- TOKEN_TRY (R182). -/
def tokenTryBody (c : Ctx) (s : State) : Res × State :=
  let obj := c.obj
  match s.obj obj with
  | some { body := .token t, .. } =>
    if t.binding || decide (t.capacity < c.w.amount) then (s.rs obj, s)
    else if c.w.amount ≤ t.credits && (s.waiters obj).isEmpty then
      (okv (t.credits - c.w.amount), s.setBody obj (.token { t with credits := t.credits - c.w.amount }))
    else (.ans .busy (BitVec.ofNat 51 t.credits), s)
  | _ => (s.rs obj, s)

/-- RESIGN on a token (R184, R183). -/
def resignToken (c : Ctx) (t : Token) (s : State) : Res × State :=
  let obj := c.obj
  let x := entryOf c.w.ent0
  if t.binding then (s.rs obj, s)
  else match (idxsFrom (fun (e : Ent) => e.live && e.relay == x.relay && e.who == x.who) 0 t.givers).head? with
    | none => (s.rs obj, s)
    | some i =>
      let givers := updAt t.givers i (fun e => { e with res := true })
      let next := if i = t.nextGiver then (nextLive givers i).getD 0 else t.nextGiver
      let t1 : Token := { t with givers := givers, nextGiver := next }
      let s1 := s.setBody obj (.token t1)
      (okv 0, if next != t.nextGiver then s1.giverNotice obj t1 else s1)

/-! ### Flags (R186, R187) -/

/-- FLAG_SET (R186). -/
def flagSetBody (c : Ctx) (s : State) : Res × State :=
  let obj := c.obj
  match s.obj obj with
  | some { body := .flag set n, .. } =>
    let s1 := s.setBody obj (.flag true (n + 1))
    if set then (okv 0, s1)
    else
      let ws := s.waiters obj
      (okv ws.length, (s1.setWaiters obj []).completeAll (wingOf obj)
        (ws.map (fun x => (x.pos, x.slot, Status.ok, BitVec.ofNat 51 (n + 1).toNat))))
  | _ => (s.rs obj, s)

/-- FLAG_CLEAR (R186). -/
def flagClearBody (c : Ctx) (s : State) : Res × State :=
  let obj := c.obj
  match s.obj obj with
  | some { body := .flag _ n, .. } => (okv 0, s.setBody obj (.flag false n))
  | _ => (s.rs obj, s)

/-! ### A waiter leaves (R85, R87, R166, R178) -/

/-- A first taker has left: the takers behind it are served in the same pass (R178). -/
def State.serveAfter (s : State) (obj : Nat) : State :=
  match s.obj obj with
  | some { body := .sem n, .. } =>
    let (m, s1) := s.serveTakers obj n
    s1.setBody obj (.sem m)
  | some { body := .token t, .. } =>
    let (m, s1) := s.serveTakers obj t.credits
    s1.setBody obj (.token { t with credits := m })
  | _ => s

/-- Withdraw a position's waiting operation on an object from the object's waiters. -/
def State.withdraw (s : State) (obj p i : Nat) : State :=
  match (s.waiters obj).find? (fun x => x.pos == p && x.slot == i) with
  | none => s
  | some x =>
    let s1 := s.setWaiters obj (dequeue (s.waiters obj) p i)
    match x.kind with
    | .lock _ => ((s1.dirSet p obj none).relaxLock obj).withdrawGlock obj p
    | .amount _ => s1.serveAfter obj
    | _ => s1

end Sys2Proof.Machine
end

