-- ==== Sys2Proof/Machine/Objects.lean ====
section
/-! DEFINITION. Objects: opening, binding, closing, pinning and sharing (R100 to R111), and the dispatch of commands on
an object by its type. -/
namespace Sys2Proof.Machine

/-! ### Opening (R103 to R105) -/

/-- A body with its pool blocks. -/
def Body.placed (b : Body) (mbase abase : Nat) : Body :=
  match b with
  | .barrier b => .barrier { b with mbase := mbase, accBase := abase }
  | .token t => .token { t with gbase := mbase }
  | .ledger l => .ledger { l with cbase := mbase, accBase := abase }
  | b => b

/-- The checks and allocations of R104 in their order: the kind of the first that fails, or the placed body and the
state with its charges. -/
def State.allocate (s : State) (obj owner : Nat) (b : Body) : Except Nat (Body × State) :=
  let w := wingOf obj
  let (n, a) := b.needs
  if !s.objsOk w owner then .error 1
  else if !s.accOk w owner a then .error 4
  else match s.allocMembers w n with
    | none => .error 7
    | some (mb, s1) => match s1.allocAccs w a with
      | none => .error 8
      | some (ab, s2) =>
        .ok (b.placed mb ab, s2.modUse w owner (fun u => { u with objs := u.objs + 1, acc := u.acc + 256 * a }))

/-- A barrier as it opens (Table 4.3). -/
def Barrier.fresh (mcount combine pwords fallAfter : Nat) (abort hold : Bool) : Barrier :=
  { gen := 0, arrived := 0, advQ := [], mbase := 0, mcount := mcount, members := [], pwords := pwords, combine := combine,
    accBase := 0, fallAfter := fallAfter, deadline := 0, abortOnFall := abort, holdEligible := hold, parent := none,
    fallen := false, combining := false, holding := false, parentWait := false, folded := 0, note := false,
    relNote := false }

/-- The body that OPEN's parameters give (Table 4.11). -/
def openBodyOf (w : CmdW) : Body :=
  let a := w.arg.toNat % 2 ^ 15
  let d := w.data.toNat
  match w.arg.toNat / 2 ^ 16 with
  | 1 => .barrier (Barrier.fresh (a % 8192) (d % 256) (d / 256 % 64) (d / 2 ^ 32) (a / 2 ^ 13 % 2 == 1) (a / 2 ^ 14 % 2 == 1))
  | 2 => .sem (d % 2 ^ 32)
  | 3 => .lock { holder := 0, held := false, orphaned := false, prio := 0, eff := 0, global := none }
  | 4 => .token { credits := d / 2 ^ 32, capacity := d % 2 ^ 32, gcount := a % 8192, gbase := 0, givers := [], nextGiver := 0 }
  | 5 => .flag (a % 2 == 1) 0
  | 6 => .ledger { eager := a / 2 ^ 13 % 2 == 1, faulted := false, lepoch := 0, low := 0, owedFirst := 0, ccount := a % 8192,
                   cbase := 0, consumers := [], window := d % 128, accBase := 0, chunks := [] }
  | _ => .relay { child := d % 2 ^ 20, level := a % 4, group := a / 4 % 256, pgen := 0, inFlight := false, handing := false }

/-- The payload limit of a level (Table 8.1). -/
def levelLimit (l : Nat) : Nat := if l = 3 then 64 else 256

/-- May a relay open on its CHILD (R230)? -/
def State.relayMayOpen (s : State) (d : Nat) (r : Relay) : Bool :=
  let e := s.img.groups[r.group]?
  let up := match (s.group r.group).state with
    | .up => true
    | .joining => true
    | .failover => true
    | _ => false
  up && e.any (fun e => e.valid && e.owner == d && e.top == r.level) &&
    (match s.obj r.child with
     | some { owner := o, body := .barrier b, .. } =>
       o == d && b.parent.isNone && decide (levelSize b.combine b.pwords ≤ levelLimit r.level)
     | _ => false)

/-- Join a relay's CHILD to it (R230). -/
def State.joinChild (s : State) (obj : Nat) (b : Body) : State :=
  match b with
  | .relay r => s.modBarrier r.child (fun c => { c with parent := some obj })
  | _ => s

/-- Put an open object into its resident record. -/
def State.setObj (s : State) (obj : Nat) (o : Option Obj) : State :=
  let put (r : Resident) : Resident := { r with obj := o }
  { s with recs := tmod none s.recs obj (fun r => r.map put) }

/-- The CHILD whose record OPEN needs: a relay's, when the caller may use it (R99, R230). -/
def State.childNeeded (s : State) (d : Nat) : Body → Option Nat
  | .relay r => if s.mayUse d r.child then some r.child else none
  | _ => none

/-- OPEN on a closed record (R103, R104, R230); a CHILD whose record is absent is a miss (R116). -/
def openBody (c : Ctx) (s : State) : Res × State :=
  let obj := c.obj
  match s.obj obj with
  | some _ => (s.rs obj, s)
  | none =>
    let b := openBodyOf c.w
    match (s.childNeeded c.dom b).bind s.needRecord with
    | some x => x
    | none =>
    let refused := match b with
      | .relay r => !s.relayMayOpen c.dom r
      | _ => false
    if refused then (s.rs obj, s)
    else match s.allocate obj c.dom b with
      | .error k => (quota k, s)
      | .ok (b1, s1) =>
        let slow := s.rep.slowObjs.contains obj
        (okv 0, (s1.setObj obj (some { owner := c.dom, pinned := false, cold := c.w.arg.getLsbD 15 || slow, slow := slow,
                                       body := b1 })).joinChild obj b1)

/-! ### Binding (R106, R234) -/

/-- Open barriers with their numbers, resident or paged out. -/
def State.barriers (s : State) : List (Nat × Barrier) :=
  let get (o : Option Obj) : Option Barrier := match o with
    | some { body := .barrier b, .. } => some b
    | _ => none
  s.recs.filterMap (fun x => (x.2.bind (fun r => get r.obj)).map (fun b => (x.1, b))) ++
    s.backing.filterMap (fun x => if (s.resident x.1).isSome then none
                                  else (x.2.bind (fun r => get r.obj)).map (fun b => (x.1, b)))

/-- The barrier that lists a relay (R234). -/
def State.listedIn (s : State) (relay : Nat) : Option Nat :=
  (s.barriers.find? (fun x => x.2.members.any (fun e => e.relay && e.who == relay))).map Prod.fst

/-- The entries of a BIND_MEMBERS command. -/
def bindEntries (w : CmdW) : List Ent := if w.arg.getLsbD 12 then [entryOf w.ent0, entryOf w.ent1] else [entryOf w.ent0]

/-- Do two entries name the same member? -/
def sameMember (a b : Ent) : Bool := a.relay == b.relay && a.who == b.who

/-- Does a list repeat a member? -/
def repeats : List Ent → Bool
  | [] => false
  | e :: t => t.any (sameMember e) || repeats t

/-- May the entries be bound behind those of a list of full count `n` (R106)? -/
def State.mayBind (s : State) (c : Ctx) (old : List Ent) (n : Nat) (relays : Bool) : Bool :=
  let new := bindEntries c.w
  decide (old.length < n) && c.w.arg.toNat % 4096 == old.length && decide (old.length + new.length ≤ n) &&
    !repeats (old ++ new) &&
    new.all (fun e =>
      if e.relay then
        relays && (s.listedIn e.who).isNone && (s.relayAt e.who).all (fun r => r.child != c.obj)
      else s.mayUse (s.domOf e.who) c.obj)

/-- BIND_MEMBERS (R106, R234). -/
def bindBody (c : Ctx) (s : State) : Res × State :=
  let obj := c.obj
  match s.obj obj with
  | none => (no .notFound, s)
  | some o =>
    if o.owner ≠ c.dom then (s.rs obj, s)
    else
      let go (old : List Ent) (n : Nat) (relays : Bool) (mk : List Ent → Body) : Res × State :=
        if s.mayBind c old n relays then
          let l := old ++ bindEntries c.w
          (okv l.length, s.setBody obj (mk l))
        else (s.rs obj, s)
      match o.body with
      | .barrier b => go b.members b.mcount true (fun l => .barrier { b with members := l })
      | .token t => go t.givers t.gcount false (fun l => .token { t with givers := l })
      | .ledger l => go l.consumers l.ccount false (fun m => .ledger { l with consumers := m })
      | _ => (s.rs obj, s)

/-! ### Closing (R107, R108) -/

/-- Is an operation on an object in flight: a command admitted and not completed, a LOCK_TRY at the arbiter, or a sequencer's
wait (R107, R112, R212)? -/
def State.inFlight (s : State) (obj : Nat) : Bool :=
  s.held.any (fun h => h.op.onObject && h.w.obj.toNat == obj && h.admitted) || s.glockReqs.any (fun g => g.obj == obj) || s.seqWaiting obj none

/-- Does a body hold CLOSE back (R107)? -/
def Body.busy : Body → Bool
  | .barrier b => b.arrived != 0 || !b.advQ.isEmpty || b.completing || b.parent.isSome
  | .lock l => l.held
  | .ledger l => l.chunks.any (fun x => x.2.any (fun k => k.st != .committed))
  | .relay r => r.inFlight
  | _ => false

/-- The object's staging blocks, by position (R139). -/
def State.stagersOf (s : State) (obj : Nat) : List Nat :=
  (s.stages.filter (fun x => x.1 / 1024 == obj)).map (fun x => x.1 % 1024)

/-- CLOSE's effect (R108). -/
def State.closeObj (s : State) (obj : Nat) (o : Obj) : State :=
  let w := wingOf obj
  let f := fileOf obj
  let (n, a) := o.body.needs
  let (mb, ab) := o.body.bases
  let grants := ((s.file f).grants.filter (fun g => g.1 == obj)).length
  let s1 := s.modFile f (fun x => { x with grants := x.grants.filter (fun g => g.1 != obj) })
  let s2 := each (fun p s => s.dropStage obj p) (s.stagersOf obj) s1
  let s3 := (s2.freeAccs w ab a).freeMembers w mb n
  let touched := (s.resident obj).any (fun r => r.touched)
  let s4 := if touched then
      ({ s3 with backing := tset none s3.backing obj none }).writeOut obj none else s3
  let s5 := { s4 with recs := tset none s4.recs obj none }
  let s6 := s5.modUse w o.owner (fun u => { u with objs := u.objs - 1 - grants, acc := u.acc - 256 * a })
  match o.body with
  | .relay r => (s6.modBarrier r.child (fun c => { c with parent := none })).leave r.child (fun c => { c with parentWait := false })
  | _ => s6

/-- The CHILD whose record CLOSE of a relay changes. -/
def Body.childOf : Body → Option Nat
  | .relay r => some r.child
  | _ => none

/-- CLOSE (R107, R109); a relay's CHILD whose record is absent is a miss (R116). -/
def closeBody (c : Ctx) (s : State) : Res × State :=
  let obj := c.obj
  match s.obj obj with
  | none => (no .notFound, s)
  | some o =>
    if o.owner ≠ c.dom ∨ s.boundTo obj ∨ s.inFlight obj ∨ o.body.busy then (s.rs obj, s)
    else match o.body.childOf.bind s.needRecord with
      | some x => x
      | none => (okv 0, s.closeObj obj o)

/-! ### Pinning (R109) -/

/-- The pinned records of a file. -/
def State.pinned (s : State) (f : Nat) : Nat :=
  ((s.fileRecs f).filter (fun x => x.2.any (fun r => r.obj.any (fun o => o.pinned)))).length

/-- PIN (R109, R121). -/
def pinBody (c : Ctx) (s : State) : Res × State :=
  let obj := c.obj
  match s.obj obj with
  | none => (no .notFound, s)
  | some o =>
    if o.owner ≠ c.dom ∨ o.pinned ∨ o.slow then (s.rs obj, s)
    else if 7680 ≤ s.pinned (fileOf obj) then (quota 1, s)
    else (okv 0, s.modObj obj (fun o => { o with pinned := true }))

/-- UNPIN (R109). -/
def unpinBody (c : Ctx) (s : State) : Res × State :=
  let obj := c.obj
  match s.obj obj with
  | none => (no .notFound, s)
  | some o =>
    if o.owner ≠ c.dom ∨ !o.pinned then (s.rs obj, s)
    else (okv 0, s.modObj obj (fun o => { o with pinned := false }))

/-! ### Sharing (R110, R111) -/

/-- The domain of a held command on an object: the sender's for a remote operation (R205), the sequencer's for an action, else that
of its position. -/
def State.heldDom (s : State) (h : Held) : Nat :=
  match h.req with
  | .remote _ d => d
  | .seq k _ => (s.seqEnt k).dom
  | _ => s.domOf h.pos

/-- Does a domain have a list position, a bound slot, the lock or an operation in flight on an object (R111)? DESIGN CHOICE (log 88):
a resigned entry is still a position of the list. -/
def State.involved (s : State) (obj d : Nat) (b : Body) : Bool :=
  b.entries.any (fun e => !e.relay && s.domOf e.who == d) ||
  s.slots.any (fun x => x.2.any (fun r => r.obj == some obj && r.dom == d)) ||
  (match b with
   | .lock l => l.held && (s.localPos l.holder).any (fun p => s.domOf p == d)
   | _ => false) ||
  s.held.any (fun h => h.op.onObject && h.w.obj.toNat == obj && s.heldDom h == d && h.admitted) ||
  s.glockReqs.any (fun g => g.obj == obj && s.domOf g.pos == d) || s.seqWaiting obj (some d) ||
  (s.stagersOf obj).any (fun p => (s.stage obj p).any (fun g => g.dom == d))

/-- GRANT, to grant or to revoke (R110, R111). -/
def grantBody (c : Ctx) (s : State) : Res × State :=
  let obj := c.obj
  let f := fileOf obj
  let w := wingOf obj
  let d := c.w.arg.toNat % 1024
  let has := (s.file f).grants.contains (obj, d)
  match s.obj obj with
  | none => (no .notFound, s)
  | some o =>
    if o.owner ≠ c.dom then (s.rs obj, s)
    else if c.w.arg.getLsbD 10 then
      if !has || s.involved obj d o.body then (s.rs obj, s)
      else (okv 0, (s.modFile f (fun x => { x with grants := x.grants.filter (fun g => g != (obj, d)) })).modUse w o.owner
                     (fun u => { u with objs := u.objs - 1 }))
    else if has || d = o.owner || !(s.domain d).enabled then (s.rs obj, s)
    else if !s.objsOk w o.owner || decide (1024 ≤ (s.file f).grants.length) then (quota 1, s)
    else (okv 0, (s.modFile f (fun x => { x with grants := x.grants ++ [(obj, d)] })).modUse w o.owner
                   (fun u => { u with objs := u.objs + 1 }))

/-! ### WAIT and RESIGN by type -/

/-- WAIT (Table 5.1, R187, R260): locks, semaphores, tokens and relays refuse it. -/
def waitBody (c : Ctx) (s : State) : Res × State :=
  let obj := c.obj
  match s.obj obj with
  | some { body := .barrier b, .. } => waitBarrier c b s
  | some { body := .ledger l, .. } => waitLedger c l s
  | some { body := .flag set n, .. } =>
    if set then (okv n.toNat, s) else s.bindWait c .flag 0 c.pendingValue
  | _ => (s.rs obj, s)

/-- RESIGN by type (R157, R184, R244, R266); relays are given by the levels. -/
def resignLocal (c : Ctx) (s : State) : Res × State :=
  let obj := c.obj
  match s.obj obj with
  | some { body := .barrier b, .. } => resignBarrier c b s
  | some { body := .token t, .. } => resignToken c t s
  | some { body := .ledger l, .. } => resignLedger c l s
  | _ => (s.rs obj, s)

/-- The type-dependent format check of WAIT (R79): the reason of the first rule broken. -/
def State.waitFormat (s : State) (c : Ctx) : Option Nat :=
  match s.obj c.obj with
  | none => none
  | some o =>
    let ty := o.body.typeCode
    if ty ≠ 6 ∧ c.w.eager then some 3
    else if (ty ≠ 1 ∧ c.w.gen16 ≠ 0) ∨ (ty ≠ 6 ∧ c.w.data ≠ 0) then some 2
    else none

end Sys2Proof.Machine
end

