-- ==== Sys2Proof/Machine/Slots.lean ====
section
/-! DEFINITION. Answers and waiting: lanes, response entries, POLL, CANCEL_WAIT and the entry read (R81 to R95). -/
namespace Sys2Proof.Machine

/-- Count a REFUSED_STATE answer delivered to a position through a wing's ports or window (R115). -/
def State.countRefusal (s : State) (w : Wing) (p : Nat) : State :=
  let d := s.domOf p
  let n := tget 0 s.refusals (wd w d) + 1
  let limit := (s.domain d).refuseLimit
  if limit ≠ 0 ∧ limit ≤ n then
    let s1 : State := { s with refusals := tset 0 s.refusals (wd w d) 0 }
    (s1.modWing w (fun x => { x with lastDomain := d, crossCnt := sat 0xFFFF x.crossCnt })).raise (bING w) 0
  else { s with refusals := tset 0 s.refusals (wd w d) n }

/-- The slot of an overwritten response no longer stands for its entry (R94, R95). -/
def State.unlink (s : State) (e : EntryId) (slot : Option Nat) : State :=
  match slot with
  | none => s
  | some i => match s.slot e.pos i with
    | some r => if r.entry = some e then s.setSlot e.pos i (some { r with entry := none }) else s
    | none => s

/-- Write the response of a queued-path command into its entry (R93 to R95). -/
def State.writeEntry (s : State) (e : EntryId) (r : Resp) : State :=
  let x := s.entry e
  let s1 := (s.unlink e x.slot).modEntry e (fun x => { x with
    resp := some r, isDone := true, lost := x.lost || x.isDone, inFlight := false, slot := x.flight, flight := none })
  let s2 := if x.isDone then s1.modWing e.win (fun y => { y with lostCnt := sat 0x7FFF y.lostCnt }) else s1
  match x.flight with
  | none => s2
  | some i => match s2.slot e.pos i with
    | some r1 =>
      if r1.entry = some e then
        let w := match r1.home with
          | .wing w => w
          | .tcu => posWing e.pos
        s2.complete w e.pos i r.status r.value
      else s2
    | none => s2

/-- A lock granted to a reset position by a command presented before its notice is orphaned as well, at once or when a request
that queued is granted (R172). -/
def State.muteGrant (s : State) (p obj : Nat) (st : Status) : State :=
  let add (r : ResetRec) : ResetRec := if r.pos = p then { r with locks := r.locks ++ [obj] } else r
  if st = .granted ∨ st = .grantedOrphan ∨ st = .pending ∧ (s.dir (wingOf obj) p).any (fun x => x.1 == obj) then
    { s with resets := s.resets.map add }
  else s

/-- The wing whose wake builder serves a slot. -/
def SlotRec.wing (r : SlotRec) (p : Nat) : Wing :=
  match r.home with
  | .wing w => w
  | .tcu => posWing p

/-- The slot that NOTIFY bound for a command whose position has been reset since (R87, R95): it stands for no entry. -/
def State.muteSlot (s : State) (e : EntryId) : Option Nat :=
  (List.range 7).find? (fun i => (s.slot e.pos i).any (fun r => r.entry == some e && r.ready.isNone) &&
    (s.entry e).flight != some i)

/-- The answer of a command whose position has been reset since it was presented is discarded; what the command has done stands, the
binding of its NOTIFY slot included (R87). -/
def State.muteAnswer (s : State) (e : EntryId) (obj : Nat) (st : Status) (v : BitVec 51) : State :=
  let s1 := s.muteGrant e.pos obj st
  match s1.muteSlot e with
  | none => s1
  | some i => s1.complete ((s1.slot e.pos i).elim (posWing e.pos) (fun r => r.wing e.pos)) e.pos i st v

/-- A late-mode completion waits for lane L behind those that came before it (R81). -/
def State.toLaneL (s : State) (p : Nat) (x : Late) : State := s.modLane p (fun l => { l with queue := l.queue ++ [x] })

/-- Deliver the answer of a command (R81, R92, R93, R207, R253). A refusal in lane L counts when lane L delivers it (R115). -/
def State.deliver (s : State) (q : Req) (tag : BitVec 8) (obj : Nat) (late mute : Bool) (st : Status) (v : BitVec 51) :
    State :=
  let r : Resp := { status := st, tag := tag, value := v }
  match q with
  | .slot p =>
    if mute then s.muteGrant p obj st
    else if late then s.toLaneL p (Late.plain r)
    else
      let s1 := s.modLane p (fun l => { l with d := some r })
      if st = .refusedState then s1.countRefusal (posWing p) p else s1
  | .win e =>
    if mute then s.muteAnswer e obj st v
    else
      let s1 := s.writeEntry e r
      if st = .refusedState then s1.countRefusal e.win e.pos else s1
  | .seq k a => if mute then s else s.seqAnswer k a obj st
  | .remote _ _ =>
    if st = .ok then s
    else (s.modWing (wingOf obj) (fun x => { x with remoteFail := sat 0x7FF x.remoteFail })).raise (bCMB (wingOf obj)) 1

/-- The answer to a deterministic-mode command that a fault held comes in lane L, outside the limit of R28 (R27). -/
def State.deliverCaught (s : State) (p : Nat) (tag : BitVec 8) (st : Status) (v : BitVec 51) : State :=
  s.toLaneL p { Late.plain { status := st, tag := tag, value := v } with caught := true }

/-- An answer DEFERRED to a slot-path command: on lane D, or lane L when it ran in late mode, its rate token returned, and
counts (R79, R81, R42). -/
def State.deferSlot (s : State) (p : Nat) (tag : BitVec 8) (cause : Nat) (token late mute : Bool) : State :=
  let w := posWing p
  let r : Resp := { status := .deferred, tag := tag, value := BitVec.ofNat 51 cause }
  let s1 := if mute then s else s.modLane p (fun l => if late then { l with queue := l.queue ++ [Late.plain r] } else { l with d := some r })
  let s2 := if 1 ≤ cause ∧ cause ≤ 3 ∧ !mute then s1.modWing w (fun x => { x with deferCnt := sat 0xFFFF x.deferCnt }) else s1
  let s3 := s2.perf 2
  if token then { s3 with spent := tmod 0 s3.spent (wd w (s.domOf p)) (fun n => n - 1) } else s3

/-! ### POLL and CANCEL_WAIT -/

/-- POLL and CANCEL_WAIT on slot 7 (R86, R189, R190). -/
def State.pollNotice (s : State) (p : Nat) : Res × State :=
  let q := s.noteQ p
  let w := posWing p
  let put (q : NoteQ) (s : State) : State := { s with notes := tset NoteQ.empty s.notes p q }
  match q.words with
  | n :: t =>
    let s1 := put { q with words := t } s
    (.ans .ok n.word, if t.isEmpty && q.overflow == 0 then s1.beat1 w p .free 7 else s1)
  | [] =>
    if q.overflow = 0 then (okv 0, s.beat1 w p .free 7)
    else (.ans .ok (overflowWord q.overflow), (put NoteQ.empty s).beat1 w p .free 7)

/-- Collect a READY slot (R84, R95). -/
def State.collect (s : State) (p i : Nat) (r : SlotRec) (st : Status) (v : BitVec 51) : Res × State :=
  let s1 := s.freeSlot p i
  (.ans st v, match r.entry with
    | some e => if (s1.entry e).slot = some i then s1.modEntry e (fun x => { x with isDone := false, lost := false, slot := none }) else s1
    | none => s1)

/-- POLL (R84, R86, R95). -/
def pollBody (c : Ctx) (s : State) : Res × State :=
  let p := c.pos
  let i := c.w.slot.toNat
  if i = 7 then s.pollNotice p
  else match s.slot p i with
    | none => (no .refusedState, s.freeSlot p i)
    | some r => match r.ready with
      | none => (.ans .pending r.value, s.beat1 (r.wing p) p .bind i)
      | some (st, v) => s.collect p i r st v

/-- CANCEL_WAIT (R85, R86, R95, R272). -/
def cancelBody (c : Ctx) (s : State) : Res × State :=
  let p := c.pos
  let i := c.w.slot.toNat
  if i = 7 then s.pollNotice p
  else match s.slot p i with
    | none => (no .refusedState, s.freeSlot p i)
    | some r => match r.ready with
      | some (st, v) => s.collect p i r st v
      | none =>
        let ans := okv (r.obj.getD 0)
        match r.entry, r.obj with
        | some e, _ => (ans, (s.freeSlot p i).modEntry e (fun x => if x.flight = some i then { x with flight := none } else x))
        | none, some obj => match s.needRecord obj with
          | some (r, s1) => (r, s1)
          | none => (ans, (s.withdraw obj p i).freeSlot p i)
        | none, none =>
          let s1 : State := { s with holds := { s.holds with
            recs := s.holds.recs.filter (fun h => !(h.who == HoldBy.pos p && h.granted.isNone)) } }
          (ans, s1.freeSlot p i)

/-! ### Window reads -/

/-- The 128 bits of a response entry (R93). -/
def Entry.bits (x : Entry) : BitVec 128 :=
  let r : BitVec 64 := match x.resp with
    | some r => r.word
    | none => 0
  BitVec.ofNat 128 (r.toNat + (if x.isDone then 2 ^ 64 else 0) + (if x.lost then 2 ^ 65 else 0))

/-- The place of a response entry in its window (Table 3.9). -/
def EntryId.off (e : EntryId) : BitVec 16 := BitVec.ofNat 16 (0x4000 + 64 * e.pos + 16 * e.t)

/-- The response entry at an offset of a window from 0x4000 on (Table 3.9). -/
def entryAt (win : Wing) (off : BitVec 16) : EntryId :=
  { win := win, pos := (off.toNat - 0x4000) / 64, t := off.toNat / 16 % 4 }

/-- INFO (Table 3.9): the wing, 4 entries a position, 768 positions. -/
def infoWord (win : Wing) : Nat := win.num + 2 ^ 8 * 4 + 2 ^ 16 * 768

/-- A read of a response entry (R93, R95): only the owner's aligned read of the whole entry returns and clears it. -/
def State.readEntry (s : State) (e : EntryId) (reader : Nat) (whole : Bool) : State :=
  if !whole || reader != e.pos then s.emit (.windowRead e.win e.off reader 0)
  else
    let x := s.entry e
    let s1 := (s.modEntry e (fun x => { x with isDone := false, lost := false })).emit (.windowRead e.win e.off reader x.bits)
    if !x.isDone then s1
    else match x.slot with
      | none => s1
      | some i =>
        let s2 := s1.modEntry e (fun x => { x with slot := none })
        match s2.slot e.pos i with
        | some r => if r.entry = some e then s2.freeSlot e.pos i else s2
        | none => s2

/-- A read at an offset of a command window (R91): a response entry, INFO, or an unlisted offset, which returns zero. A
whole entry is one aligned access of 16 bytes. -/
def State.readWindow (s : State) (win : Wing) (reader : Nat) (off : BitVec 16) (size : Nat) (single : Bool) : State :=
  if 0x4000 ≤ off.toNat then s.readEntry (entryAt win off) reader (single && size == 16 && off.toNat % 16 == 0)
  else if off.toNat / 8 = 0x100 / 8 then
    s.emit (.windowRead win off reader (BitVec.ofNat 128 (infoWord win / 2 ^ (8 * (off.toNat % 8)) % 2 ^ (8 * size))))
  else s.emit (.windowRead win off reader 0)

/-! ### Reset notices (R87, R374) -/

/-- A hold of a position ends without its duration (R272). -/
def State.dropPosHold (s : State) (p : Nat) : State :=
  if s.holds.recs.any (fun h => h.who == HoldBy.pos p) then
    let s1 : State := { s with holds := { s.holds with recs := s.holds.recs.filter (fun h => h.who != HoldBy.pos p) } }
    s1.work .holdsEnded
  else s

/-- A waiting operation is withdrawn, once its object's record is there (R118). -/
def State.withdrawNow (s : State) (obj p i : Nat) : State := s.unit obj (.withdraw obj p i) (fun s => s.withdraw obj p i)

/-- Free one slot of a reset position, withdrawing what it was bound to (R87). -/
def State.resetSlot (s : State) (p i : Nat) : State :=
  match s.slot p i with
  | none => s.freeSlot p i
  | some r =>
    let s1 := match r.entry, r.ready, r.obj with
      | none, none, some obj => s.withdrawNow obj p i
      | _, _, _ => s
    s1.freeSlot p i

/-- The staging blocks of a position that no arrival has claimed, and that no staged arrival presented before the notice
is still to claim (R87, R140). -/
def State.unclaimed (s : State) (p : Nat) : List Nat :=
  ((s.stages.filter (fun x => x.1 % 1024 == p && x.2.any (fun g => !g.claimed))).map (fun x => x.1 / 1024)).filter
    (fun o => !s.held.any (fun h => h.pos == p && h.mute && h.w.staged && h.w.obj.toNat == o))

/-- The effect of a reset notice in the wing of the position's port (R87, R140). -/
def State.resetEffect (s : State) (p : Nat) : State :=
  let w := posWing p
  let q := s.noteQ p
  let lost := q.words.length + (if q.overflow = 0 then 0 else 1)
  let s1 := each (fun i s => s.resetSlot p i) (List.range 7) s
  let s2 := ({ s1 with notes := tset NoteQ.empty s1.notes p NoteQ.empty }).beat1 w p .free 7
  let s3 := if lost = 0 then s2 else s2.modWing w (fun x => { x with dropCnt := satAdd 0xFFFF x.dropCnt lost, lastPos := p })
  let s4 := each (fun (x : Wing × Nat) s => s.modEntry { win := x.1, pos := p, t := x.2 } (fun _ => Entry.empty))
    [(Wing.q, 0), (Wing.q, 1), (Wing.q, 2), (Wing.q, 3), (Wing.k, 0), (Wing.k, 1), (Wing.k, 2), (Wing.k, 3)] s3
  let s5 := s4.modLane p (fun l => { l with queue := [] })
  each (fun obj s => s.dropStage obj p) (s5.unclaimed p) s5

/-- The commands of a position presented before its notice is taken, and its LOCK_TRYs at an arbiter: their answers are discarded
(R87, R374). -/
def State.muteFor (s : State) (p : Nat) : State :=
  let mute (h : Held) : Held := if h.pos == p && h.req.ofAgent then { h with mute := true } else h
  let muteG (g : GlockReq) : GlockReq := if g.pos = p ∧ g.try_.isSome then { g with mute := true } else g
  { s with held := s.held.map mute, glockReqs := s.glockReqs.map muteG }

/-- The locks that a position holds in a wing, by the wing's copy of the directory (R168). -/
def State.locksHeld (s : State) (w : Wing) (p : Nat) : List Nat :=
  ((s.dir w p).filter (fun x => x.2 == .held && wingOf x.1 == w)).map Prod.fst

/-- The locks of a wing that a position holds or is queued for, by the wing's copy of the directory (R168). -/
def State.locksOf (s : State) (w : Wing) (p : Nat) : List Nat := ((s.dir w p).filter (fun x => wingOf x.1 == w)).map Prod.fst

/-- RST_NOTIFY is taken (R374, R316, R272): its always-on effects come at once, the rest when the wing of the position's
port is ACTIVE and every notice taken before it has taken effect. -/
def State.resetNotice (s : State) (p : Nat) : State :=
  if 768 ≤ p ∨ !s.ready ∨ 16 ≤ s.resets.length then s
  else
    let s1 : State := { s with votes := tset false (tset false s.votes p false) (1024 + p) false }
    let s2 := (s1.dropPosHold p).muteFor p
    let on := s.active (posWing p) && s.resets.all (fun r => r.eff)
    let s3 := if on then s2.resetEffect p else s2
    { s3 with resets := s3.resets ++ [{ pos := p, eff := on, locks := s3.locksOf .q p ++ s3.locksOf .k p }] }

/-- Has a reset position no command left that was presented before its notice (R172)? -/
def State.resetSettled (s : State) (p : Nat) : Bool :=
  !s.held.any (fun h => h.pos == p && h.mute) && !s.glockReqs.any (fun g => g.pos == p && g.mute)

/-- The locks that a position's notices still orphan, when it holds them: notices take effect in the order in which they were taken
(R374), in each wing those of an earlier notice first. -/
def State.toOrphan (s : State) (p : Nat) : List Nat :=
  (s.resets.foldl (fun (x : List Nat × List Wing) r =>
    (if r.pos = p then x.1 ++ r.locks.filter (fun o => !x.2.contains (wingOf o)) else x.1,
     if r.pos = p then x.2 else x.2 ++ r.locks.map wingOf)) ([], [])).1

/-- Orphan the locks of a reset position (R171, R172), in each wing that is ACTIVE, whatever the state of its port's wing. A
notice's buffer entry is freed when nothing of its effect remains. -/
def State.orphanFor (s : State) (p : Nat) : State :=
  if !s.resets.any (fun r => r.pos == p) || !s.resetSettled p then s
  else
    let s1 := each (fun o s => if s.active (wingOf o) then s.orphanLock o p else s) (s.toOrphan p) s
    { s1 with resets := s1.resets.filter (fun r => r.pos != p || !r.eff || !r.locks.isEmpty) }

end Sys2Proof.Machine
end

