-- ==== Sys2Proof/Machine/Tcu.lean ====
section
/-! DEFINITION. The time control unit's votes and maintenance holds (R268 to R273, R315, R316). -/
namespace Sys2Proof.Machine

/-! ### Votes (R315) -/

/-- The key of a position's vote for a wing. -/
def voteKey (w : Wing) (p : Nat) : Nat := 1024 * w.num + p

/-- Does a position hold a vote for a wing? -/
def State.vote (s : State) (w : Wing) (p : Nat) : Bool := tget false s.votes (voteKey w p)

/-- The votes that a wing holds. -/
def State.voteCount (s : State) (w : Wing) : Nat := (s.votes.filter (fun x => x.1 / 1024 == w.num)).length

/-- The answer to VOTE and UNVOTE: the caller's votes (Table 3.3). -/
def State.votesOf (s : State) (p : Nat) : Res :=
  okv ((if s.vote .q p then 1 else 0) + (if s.vote .k p then 2 else 0))

/-- Set or withdraw one vote. -/
def State.setVote (s : State) (w : Wing) (p : Nat) (v : Bool) : State :=
  { s.stir w with votes := tset false s.votes (voteKey w p) v }

/-- The wings of a wing mask, bit 0 queenside. -/
def maskWings (m : Nat) : List Wing := (if m % 2 = 1 then [Wing.q] else []) ++ (if m / 2 % 2 = 1 then [Wing.k] else [])

/-- VOTE: a vote for a wing that is not ACTIVE wakes it (R315). -/
def voteBody (c : Ctx) (s : State) : Res × State :=
  let s1 := each (fun w s => (s.setVote w c.pos true).wakeIfDown w 4 c.pos) (maskWings c.w.arg.toNat) s
  (s1.votesOf c.pos, s1)

/-- UNVOTE (R315). -/
def unvoteBody (c : Ctx) (s : State) : Res × State :=
  let s1 := each (fun w s => s.setVote w c.pos false) (maskWings c.w.arg.toNat) s
  (s1.votesOf c.pos, s1)

/-! ### Hold requests (R268) -/

/-- The answer to a hold request. -/
inductive HoldAns where
  | refused (st : Status) (v : Nat)
  | granted
  | pending
  deriving DecidableEq, Repr

/-- The request or hold of a holder, if it has one. -/
def State.holdOf (s : State) (who : HoldBy) : Option HoldRec := s.holds.recs.find? (fun h => h.who == who)

/-- Does a holder hold a granted hold? -/
def State.holding (s : State) (who : HoldBy) : Bool := (s.holdOf who).any (fun h => h.granted.isSome)

/-- A forced hold begins (R271). -/
def State.beginForced (s : State) : State :=
  if s.holds.forced then s
  else
    let s1 : State := { s with holds := { s.holds with
      forced := true, forcedAt := s.now, grantsDone := false, forcedCnt := sat 0xFF s.holds.forcedCnt } }
    s1.raise bTCU 1

/-- A hold request of a holder in a domain (R268, R269): the answer, and the state with the request in it. -/
def State.askHold (s : State) (who : HoldBy) (slot dom us : Nat) (urgent : Bool) : HoldAns × State :=
  if (s.holdOf who).isSome ∨ (urgent ∧ dom ≠ 0) then (.refused .refusedState 0, s)
  else if 64 ≤ s.holds.recs.length then (.refused .refusedQuota 3, s)
  else
    let joins := s.holds.forced && s.holds.grantsDone && dom == 0
    let r : HoldRec := { who := who, slot := slot, dom := dom, us := us, urgent := urgent, at_ := s.now,
                         granted := if joins then some (s.now + 1000 * us) else none, forced := joins, barriers := [] }
    let s1 : State := { s with holds := { s.holds with recs := s.holds.recs ++ [r] } }
    (if joins then .granted else .pending, s1)

/-- HOLD_REQUEST (R268). It counts as a wait slot and an operation in the wing of the caller's port; an urgent request
begins a forced hold at once (R271). Its refusals and the limit of 64 come before the OPS quota and the operation table (DESIGN
CHOICE, log 78). -/
def holdRequestBody (c : Ctx) (s : State) : Res × State :=
  let w := posWing c.pos
  let us := c.w.arg.toNat % 65536
  let urgent := c.w.arg.getLsbD 16
  match s.askHold (.pos c.pos) c.w.slot.toNat c.dom us urgent with
  | (.refused st v, s1) => (.ans st (BitVec.ofNat 51 v), s1)
  | (ans, s1) =>
    if !s.opsOk w c.dom then (quota 3, s)
    else if !s.opFree w then (.defer 1, s)
    else if ans = .granted then (.ans .granted (BitVec.ofNat 51 us), s1)
    else
      let s2 := s1.bindSlot c.pos c.w.slot.toNat none .tcu w c.dom 0 none
      (.ans .pending 0, if urgent then s2.beginForced else s2)

/-! ### Ends (R272) -/

/-- A granted hold ends. -/
def State.endHold (s : State) (who : HoldBy) : State :=
  let s1 : State := { s with holds := { s.holds with recs := s.holds.recs.filter (fun h => h.who != who) } }
  s1.work .holdsEnded

/-- HOLD_DONE of a holder (R272). -/
def State.holdDone (s : State) (who : HoldBy) : Res × State :=
  if s.holding who then (okv 0, s.endHold who) else (no .refusedState, s)

/-- HOLD_DONE. -/
def holdDoneBody (c : Ctx) (s : State) : Res × State := s.holdDone (.pos c.pos)

/-- A granted hold's duration ends (R272). -/
def State.holdExpire (s : State) (who : HoldBy) : State :=
  match s.holdOf who with
  | some { granted := some t, .. } =>
    if s.now < t then s
    else
      let s1 : State := { s with holds := { s.holds with overrunCnt := sat 0xFF s.holds.overrunCnt } }
      (s1.raise bTCU 2).endHold who
  | _ => s

/-- Does a pending request begin a forced hold now (R271)? -/
def HoldRec.forces (h : HoldRec) (limit now : Nat) : Bool :=
  h.dom == 0 && h.granted.isNone && (h.urgent || decide (h.at_ + 1000 * limit ≤ now))

/-- A forced hold begins when a pending domain-0 request reaches the hold wait limit or is urgent (R271). -/
def State.forcedDue (s : State) : State :=
  if s.holds.recs.any (fun h => h.forces s.img.power.waitLimit s.now) then s.beginForced else s

/-! ### Barriers in HOLDING (R270, R319) -/

/-- Do granted holds still hold a barrier? -/
def State.heldBack (s : State) (obj : Nat) : Bool := s.holds.recs.any (fun h => h.barriers.contains obj)

/-- Let a barrier whose holds have all ended leave HOLDING; a wing that is not ACTIVE is woken for it (R319), with EVENT kind 5
however the hold ended (DESIGN CHOICE, log 80). It waits for its record, a locked row or a contained file (R118, R353, R338). -/
def State.leaveHolding (s : State) (obj : Nat) : State :=
  let w := wingOf obj
  if s.heldBack obj then s
  else if !s.active w then s.wake w 7 5
  else s.unit obj .holdsEnded (fun s => s.leave obj (fun b => { b with holding := false }))

/-- Every barrier that stands in HOLDING leaves it when its holds have ended. -/
def State.leaveHoldings (s : State) : State :=
  each (fun o s => s.leaveHolding o) ((s.barriers.filter (fun x => x.2.holding)).map Prod.fst) s

end Sys2Proof.Machine
end

