-- ==== Sys2Proof/Machine/Sequencers.lean ====
section
/-! DEFINITION. Sequencers: plies, watches, waits, actions, loops, control and ply paging (R192 to R222). -/
namespace Sys2Proof.Machine

/-- Halt a sequencer and raise its block's HALT source (R217). -/
def State.stopSeq (s : State) (k : Nat) (r : SeqReason) (obj aslot st : Nat) : State :=
  (s.haltSeq k r obj aslot st).raise (bSEQ (seqWing k)) 1

/-- Is a sequencer paused by a forced hold (R215)? Its holder is not. -/
def State.seqPaused (s : State) (k : Nat) : Bool :=
  s.holds.forced && (s.seq k).state == .waiting && !s.holding (.seq k)

/-- Is a frequency step of a wing requested and not made (R216, R309)? -/
def State.stepping (s : State) (w : Wing) : Bool :=
  match (s.pwr w).hand with
  | .drain => true
  | .step => true
  | _ => false

/-! ### Ply paging (R219 to R221) -/

/-- Has a frame of 64 plies left the page cache: its bank is degraded, or a row of it is retired (Table 13.2)? -/
def State.frameLost (s : State) (j : Nat) : Bool :=
  let n := 64 * j
  let b := s.bank (plyWing n) (56 + n % 32768 / 4096)
  let r0 := n % 4096 / 8
  b.degraded || b.retired.any (fun r => decide (r0 ≤ r ∧ r < r0 + 8))

/-- The page-cache frames: the ply memory behind the resident plies, less what has left the cache (R193, Table 13.2). -/
def State.frameList (s : State) : List Nat :=
  let f0 := (s.img.plies.length + 63) / 64
  (List.range 1024).filter (fun j => decide (f0 ≤ j) && !s.frameLost j)

/-- How many frames the page cache has. -/
def State.frames (s : State) : Nat := s.frameList.length

/-- Start or join the read of a ply page by a wing (R219): 8 reads are in flight, and the others wait in order until one ends. -/
def State.readPage (s : State) (w : Wing) (page : Nat) (ahead : Option Nat) : State :=
  if (s.wing w).pageReads.any (fun r => r.page == page) then s
  else
    let s1 := s.modWing w (fun x => { x with pageReads := x.pageReads ++ [{ page := page, second := false, repeated := false, ahead := ahead }] })
    if (s.wing w).pageReads.length < 8 then s1.emit (.plyRead (s.plyAddr page)) else s1

/-- A wing's read of a page ends: the read that has waited longest takes its place (R219). -/
def State.endRead (s : State) (w : Wing) (page : Nat) : State :=
  let s1 := s.modWing w (fun x => { x with pageReads := x.pageReads.filter (fun y => y.page != page) })
  match (s.wing w).pageReads[8]? with
  | some r => s1.emit (.plyRead (s.plyAddr r.page))
  | none => s1

/-- Does a page hold the current ply of a sequencer (R221)? -/
def State.pageInUse (s : State) (page : Nat) : Bool :=
  (List.range 32).any (fun k => decide (65536 ≤ (s.seq k).pc) && pageOf (s.seq k).pc == page)

/-- The frames of the page cache that hold no page. -/
def State.freeFrames (s : State) : List Nat :=
  s.frameList.filter (fun j => !s.pages.any (fun x => tget 0 s.pageFrame x.1 == j))

/-- What is written into a frame of the page cache is whole again (R352). -/
def State.mendFrame (s : State) (j : Nat) : State :=
  let w := plyWing (64 * j)
  { s with upsets := each (fun r u => if (s.rowFind w (28672 + plyRow (64 * j) + r)).lost
      then tset .clean u (rowKey w (28672 + plyRow (64 * j) + r)) .clean else u) (List.range 8) s.upsets }

/-- Install a page in a frame (R221): a free one, or the sweep's victim, each a FREE VALUE (log 4); no page that holds a
sequencer's current ply is a victim. -/
def State.putPage (s : State) (page : Nat) (plies : List (BitVec 128)) : State :=
  let put (s : State) (j : Nat) : State := { s.mendFrame j with
    free := s.free + 1, pages := tset [] s.pages page plies, pageFrame := tset 0 s.pageFrame page j }
  match s.freeFrames[Config.freePick s.free % (hi 1 s.freeFrames.length)]? with
  | some j => put s j
  | none =>
    let l := (s.pages.filter (fun x => !s.pageInUse x.1)).map Prod.fst
    match l[Config.freePick s.free % (hi 1 l.length)]? with
    | none => s
    | some v => put { s with pages := tset [] s.pages v [], pageFrame := tset 0 s.pageFrame v 0 } (tget 0 s.pageFrame v)

/-- The pages that a ply's successors lie in, and behind offset 48 the next page (R221). -/
def State.aheadPages (s : State) (n : Nat) (p : BitVec 128) : List Nat :=
  let succ := if plyEnd p then [] else if plyLoopEn p then [plyNext p, n + 1] else [plyNext p]
  let paged (x : Nat) : Bool := decide (65536 ≤ x) && s.img.plyValid x
  (succ.filter paged).map pageOf ++
    (if 48 ≤ n % 64 ∧ pageOf n + 1 < s.img.paged then [pageOf n + 1] else [])

/-- The next page to read ahead for a sequencer: absent, not bad, and not being read. -/
def State.nextAhead (s : State) (k : Nat) : Option Nat :=
  (s.seq k).ahead.find? (fun g => (tget [] s.pages g).isEmpty && !s.badPages.contains g &&
    !(s.wing (seqWing k)).pageReads.any (fun r => r.page == g))

/-- Read ahead for a sequencer (R221): at most one such read is outstanding, and the ply's further pages are read after it. -/
def State.readAhead (s : State) (k : Nat) : State :=
  let w := seqWing k
  if (s.wing w).pageReads.any (fun r => r.ahead == some k) then s
  else match s.nextAhead k with
    | none => s
    | some g => (s.modSeq k (fun q => { q with ahead := q.ahead.filter (fun y => y != g) })).readPage w g (some k)

/-- The read-ahead of a ply that has just become current (R221). -/
def State.aheadFor (s : State) (k n : Nat) (p : BitVec 128) : State :=
  (s.modSeq k (fun q => { q with ahead := if n < 65536 then [] else s.aheadPages n p })).readAhead k

/-! ### A ply becomes current (R199 to R203, R210) -/

/-- The check of a ply reads the record of an object that it names (R351). -/
def State.seqReads (s : State) (obj : Nat) : State :=
  match s.resident obj with
  | some x => (s.keepResident obj).readRows obj x
  | none => s

/-- Use a watch for a type code: none when the object is not open, not of the type, or not the domain's (R199); otherwise
the state with the watch set. -/
def State.useWatch (s : State) (k w : Nat) (types : List Nat) : Option State :=
  let e := s.seqEnt k
  let obj := e.watch w
  if !s.mayUse e.dom obj then none
  else
    let s1 := s.seqReads obj
    match s1.obj obj with
    | none => none
    | some o =>
      if !types.contains o.body.typeCode then none
      else
        let first : BitVec 32 := match o.body with
          | .barrier b => b.gen
          | .relay r => r.pgen
          | _ => 0
        some (s1.modSeq k (fun q => { q with watches := updAt q.watches w (fun x => some (x.getD first)) }))

/-- Use the watches of a ply's ARRIVE actions. -/
def State.useActWatches (p : BitVec 128) (k : Nat) : List Nat → State → Except (Nat × Nat) State
  | [], s => .ok s
  | a :: t, s =>
    let x := plyAct p a
    if actKind x ≠ 1 then State.useActWatches p k t s
    else match s.useWatch k (actArg x % 4) [1] with
      | none => .error ((s.seqEnt k).watch (actArg x % 4), a)
      | some s1 => State.useActWatches p k t s1

/-- Ask for the hold of a HOLD wait (R203). -/
def State.seqHold (s : State) (k : Nat) (p : BitVec 128) : State :=
  let x := plyWarg p
  let urgent := x / 65536 % 2 == 1
  match s.askHold (.seq k) 3 (s.seqEnt k).dom (x % 65536) urgent with
  | (.refused st _, s1) => s1.stopSeq k .actionRefused 0 3 st.code.toNat
  | (.granted, s1) => s1
  | (.pending, s1) => if urgent then s1.beginForced else s1

/-- A ply that has become current must wait before its objects can be checked: a unit for one in a wing that is not ACTIVE waits at the seam
(R32), one whose record is absent or whose row is locked waits for it (R116, R353). None where nothing holds it back. -/
def State.plyBlocked (s : State) (k : Nat) (p : BitVec 128) : Option State :=
  let e := s.seqEnt k
  (((e.plyObjs p).filter (s.mayUse e.dom)).findSome? (fun o =>
    if s.mustWait (some (seqWing k)) (wingOf o) then some ((s.toSeam (wingOf o) (.ply k)).wake (wingOf o) 3 0)
    else match s.resident o with
      | none => some (s.await o (.ply k))
      | some x => if s.rowBusy o x then some (s.park (.row (wingOf o)) (.ply k)) else none)).map
    (fun s => s.modSeq k (fun q => { q with checking := true }))

/-- The watches and the object of the wait of a ply that is current are checked. DESIGN CHOICE (log 64): the spec does
not say when an ARRIVE action uses its watch (R199); here it does so as the ply becomes current, before the ply's wait is met. -/
def State.checkNow (s0 : State) (k : Nat) (p : BitVec 128) : State :=
  let e := s0.seqEnt k
  let w := plyWarg p % 4
  let waited : Option State := match plyWcond p with
    | 1 => s0.useWatch k w [1, 7]
    | 2 => s0.useWatch k w [6]
    | _ => some s0
  match waited with
  | none => s0.stopSeq k .waitObject (e.watch w) 3 0
  | some s1 => match State.useActWatches p k (plyActions p) s1 with
    | .error (obj, a) => s1.stopSeq k .waitObject obj a 0
    | .ok s2 =>
      let s3 := s2.aheadFor k (s2.seq k).pc p
      let ty (types : List Nat) : State :=
        let obj := e.obj (plyWarg p % 4096)
        let s5 := if s3.mayUse e.dom obj then s3.seqReads obj else s3
        if s5.mayUse e.dom obj && (s5.obj obj).any (fun o => types.contains o.body.typeCode) then s5
        else s5.stopSeq k .waitObject obj 3 0
      match plyWcond p with
      | 3 => ty [1, 2, 4]
      | 4 => ty [5]
      | 6 => s3.seqHold k p
      | _ => s3

/-- The check of a ply's objects, once nothing holds it back; one in the other wing crosses the seam (R16). -/
def State.checkPly (s : State) (k : Nat) (p : BitVec 128) : State :=
  match s.plyBlocked k p with
  | some t => t
  | none =>
    let far := (((s.seqEnt k).plyObjs p).filter (fun o => s.mayUse (s.seqEnt k).dom o && wingOf o == (seqWing k).other)).eraseDups
    (each (fun o s => s.crossing (wingOf o)) far (s.modSeq k (fun q => { q with checking := false }))).checkNow k p

/-- A ply becomes current: its encoding and its objects are checked. -/
def State.current (s : State) (k : Nat) (p : BitVec 128) : State :=
  let s0 := s.modSeq k (fun q => { q with pageWait := false, met := false, cur := some p, plyAt := s.now, wcond := plyWcond p })
  if plyReserved p then s0.stopSeq k .plyReserved 0 0 0 else s0.checkPly k p

/-- A sequencer waits with no current ply, for its page or for the way to its ply. -/
def State.noPly (s : State) (k : Nat) (page : Bool) : State :=
  s.modSeq k (fun q => { q with pageWait := page, met := false, checking := false, cur := none, wcond := 0 })

/-- Read a ply that lies in ply memory (R193), with ECC check (R351, R352). It waits for a row that a remap has locked (R353), and one from
the other half of ply memory crosses the seam, or waits there and wakes that half's wing while it is not ACTIVE (R16, R32, R37). -/
def State.readPly (s : State) (k n : Nat) (p : BitVec 128) : State :=
  let v := s.plyHalf n
  let r := plyRow (s.plyPlace n)
  if s.mustWait (some (seqWing k)) v then ((s.noPly k false).toSeam v (.ply k)).wake v 3 0
  else if s.lockedRow v = some (56 + r / 512, r % 512) then (s.noPly k false).park (.row v) (.ply k)
  else
    let s1 := s.crossFrom (some (seqWing k)) v
    let x := s1.rowFind v (28672 + r)
    (if x = .clean then s1 else (s1.countWords v x).work (.rowFound v (28672 + r) x)).current k p

/-- Fetch a sequencer's ply (R193, R210, R219, R220). -/
def State.fetchPly (s : State) (k : Nat) : State :=
  let n := (s.seq k).pc
  let w := seqWing k
  match (if s.displacedPly n then none else s.ply n) with
  | some p => s.readPly k n p
  | none =>
    if s.badPages.contains (missPage n) then s.stopSeq k .pageCheck 0 0 0
    else ((((s.modWing w (fun x => { x with pageMiss := sat 0xFFFF x.pageMiss })).perf 7).noPly k true).readPage w (missPage n) none)

/-- What a sequencer's ply waited for has come: the ply is fetched, or its objects are checked. -/
def State.plyCross (s : State) (k : Nat) : State :=
  let q := s.seq k
  if q.state ≠ .waiting ∨ q.pageWait then s
  else match q.cur with
    | none => s.fetchPly k
    | some p => if q.checking then s.checkPly k p else s

/-! ### Control (R213, R214) -/

/-- What a halted run of a sequencer has left at the seam does not touch its next run: its WAKEs go on unanswered, and what has
not been issued is not issued (R206). -/
def SeamUnit.forget (k : Nat) (u : SeamUnit) : SeamUnit :=
  match u.item with
  | .note p n (some (j, a)) => { u with item := .note p n (if j = k then none else some (j, a)) }
  | _ => u

/-- Is a unit at the seam a sequencer's own action or ply fetch that has not been issued, a WAKE that a full seam stalls (R33) among them?
-/
def SeamUnit.unissued (k : Nat) (u : SeamUnit) : Bool :=
  match u.item with
  | .act j _ => j == k
  | .ply j => j == k
  | .met j => j == k
  | .note _ none (some (j, _)) => j == k && u.stalled
  | _ => false

/-- Is a command an action of a sequencer that a full seam stalls, and that has so not been issued (R33)? -/
def Held.unissued (k : Nat) (h : Held) : Bool :=
  match h.req, h.place with
  | .seq j _, .seam _ true => j == k
  | _, _ => false

/-- The running sequencers of a domain. -/
def State.running (s : State) (d : Nat) : Nat :=
  ((List.range 32).filter (fun k => (s.seq k).running && (s.seqEnt k).dom == d)).length

/-- The checks of an accepted SEQ_START (R214), and its effect. -/
def State.startSeq (s : State) (k ply : Nat) : Res × State :=
  let e := s.seqEnt k
  let w := seqWing k
  let q := s.seq k
  let a := s.posEnt e.actPos
  if !s.img.plyValid ply then (malformed 4, s)
  else if q.running || s.contained (bSEQ w) then (no .refusedState, s)
  else if !a.enabled || a.dom != e.dom then (no .refusedState, s)
  else if (s.domain e.dom).seqRun ≤ s.running e.dom then (quota 5, s)
  else if !s.opsOk w e.dom then (quota 3, s)
  else if !s.opFree w then (.defer 1, s)
  else
    let mute (h : Held) : Held := match h.req with
      | .seq k' _ => if k' = k then { h with mute := true } else h
      | _ => h
    let s1 : State := { s with
      badPages := [], held := (s.held.filter (fun h => !h.unissued k)).map mute
      onHold := s.onHold.filter (fun x => x.2 != .ply k && x.2 != .met k)
      seam := (s.seam.filter (fun u => !u.unissued k)).map (fun u => u.forget k) }
    let s2 := (s1.modSeq k (fun _ => { Seq.reset with state := .waiting, pc := ply, anchor := s.now })).takeOp w e.dom
    (okv 0, (s2.fetchPly k))

/-- May a domain command a sequencer (R77, R214)? -/
def State.seqVisible (s : State) (k d : Nat) : Bool := (s.seqEnt k).enabled && (d == 0 || (s.seqEnt k).dom == d)

/-- SEQ_START (R214). -/
def seqStartBody (c : Ctx) (s : State) : Res × State :=
  let k := c.w.arg.toNat % 32
  if !s.seqVisible k c.dom then (no .notFound, s) else s.startSeq k c.w.amount

/-- The successor of a ply and the loop counters after it (R208). -/
def seqNext (q : Seq) (p : BitVec 128) : Nat × List (BitVec 16) :=
  if !plyLoopEn p then (plyNext p, q.loops)
  else
    let c := q.loops.getD (plyLsel p) 0
    let c1 := (if c = 0 then plyLoop p else c) - 1
    (if c1 ≠ 0 then plyNext p else q.pc + 1, updAt q.loops (plyLsel p) (fun _ => c1))

/-- A running sequencer stops in a state: its hold ends or is withdrawn, and its operation ends (R203, R212). -/
def State.endSeq (s : State) (k : Nat) (st : SeqState) : State :=
  ((s.modSeq k (fun q => { q with
    state := st, pageWait := false, met := false, checking := false, waitingActs := 0, answers := [], bad := none, ahead := [] })).dropSeqHold
      k).dropSeqOp k

/-- SEQ_STOP (Table 7.7). -/
def seqStopBody (c : Ctx) (s : State) : Res × State :=
  let k := c.w.arg.toNat % 32
  let q := s.seq k
  if !s.seqVisible k c.dom then (no .notFound, s)
  else match q.state with
    | .waiting => (okv q.pc, s.endSeq k .stopped)
    | .acting =>
      let v := match q.cur with
        | some p => if plyEnd p then q.pc else (seqNext q p).1
        | none => q.pc
      (okv v, s.modSeq k (fun q => { q with state := .stopping }))
    | .halted => (okv q.pc, s.modSeq k (fun q => { q with state := .stopped }))
    | _ => (no .refusedState, s)

/-- Start the sequencers of AUTOSTART, in ascending number (R214). -/
def State.autostart (s : State) : State :=
  each (fun k s =>
    let e := s.seqEnt k
    if e.enabled && e.autostart then
      match s.startSeq k e.startPly with
      | (.ans .ok _, s1) => s1
      | (_, s1) => s1.raise (bSEQ (seqWing k)) 0
    else s) (List.range 32) s

/-! ### Waits (R201, R202) -/

/-- Are chunks `c` to `c + n − 1` of a ledger all COMMITTED (Table 7.4)? -/
def Ledger.allCommitted (l : Ledger) (c : BitVec 32) (n : Nat) : Bool :=
  (List.range n).all (fun i => l.chunkCode (c.truncate 24 + BitVec.ofNat 24 i) == 2)

/-- Is a ply's wait met (Table 7.4), TIME apart; or the sequencer halts on a ledger that faulted? -/
def State.waitMet (s : State) (k : Nat) (p : BitVec 128) : Except SeqReason Bool :=
  let e := s.seqEnt k
  let x := plyWarg p
  let wv : BitVec 32 := ((s.seq k).watches.getD (x % 4) none).getD 0
  let n := x / 4 % 256
  match plyWcond p with
  | 0 => .ok true
  | 1 => match s.obj (e.watch (x % 4)) with
    | some { body := .barrier b, .. } => .ok (decide (n ≤ (b.gen - wv).toNat))
    | some { body := .relay r, .. } => .ok (decide (n ≤ (r.pgen - wv).toNat))
    | _ => .error .waitObject
  | 2 => match s.obj (e.watch (x % 4)) with
    | some { body := .ledger l, .. } => if l.faulted then .error .ledgerFaulted else .ok (l.allCommitted wv n)
    | _ => .error .waitObject
  | 3 => match s.obj (e.obj (x % 4096)) with
    | some { body := .barrier b, .. } => .ok (decide (x / 4096 ≤ b.arrived))
    | some { body := .sem c, .. } => .ok (decide (x / 4096 ≤ c))
    | some { body := .token t, .. } => .ok (decide (x / 4096 ≤ t.credits))
    | _ => .error .waitObject
  | 4 => match s.obj (e.obj (x % 4096)) with
    | some { body := .flag b _, .. } => .ok b
    | _ => .error .waitObject
  | 6 => .ok (s.holding (.seq k))
  | _ => .ok false

/-- Issue a ply's actions in order (R206): the sequencer is ACTING until every answer is in. -/
def State.actSeq (s : State) (k : Nat) (p : BitVec 128) : State :=
  let l := plyActions p
  let s1 := (s.stir (seqWing k)).modSeq k (fun q => { q with state := .acting, met := false, waitingActs := l.length, answers := [], bad := none })
  { s1 with todo := s1.todo ++ l.map (fun a => Work.act k a) }

/-- A ply is complete (R208 to R210): the next ply becomes current, or the sequencer stops. -/
def State.completePly (s : State) (k : Nat) (p : BitVec 128) : State :=
  let q := s.seq k
  if plyEnd p then s.endSeq k .done
  else
    let (n, loops) := seqNext q p
    let s1 := s.modSeq k (fun q => { q with loops := loops })
    if !s.img.plyValid n then s1.stopSeq k .plyRange 0 0 0
    else
      let s2 := s1.modSeq k (fun q => { q with pc := n, answers := [], waitingActs := 0 })
      if q.state = .stopping then s2.endSeq k .stopped
      else (s2.modSeq k (fun q => { q with state := .waiting })).fetchPly k

/-- The actions of a ply whose wait is met are issued, and a ply with none is complete. -/
def State.goSeq (s : State) (k : Nat) (p : BitVec 128) : State :=
  let s1 := s.actSeq k p
  if (plyActions p).isEmpty then s1.completePly k p else s1

/-- A wait has been met and has consumed: the actions follow, or wait for the end of a pause (R215), of a P-level step
(R216), or for the sequencer's wing. An event of the other wing comes through the seam and wakes it (R32); a hold granted to a sequencer
wakes no wing (R273). -/
def State.metSeq (s : State) (k : Nat) (p : BitVec 128) : State :=
  let w := seqWing k
  if s.seqPaused k || s.stepping w || !s.active w then
    let s1 := s.modSeq k (fun q => { q with met := true })
    if s.active w || s.seqPaused k || plyWcond p == 6 then s1 else (s1.toSeam w (.met k)).wake w 3 0
  else s.goSeq k p

/-- The consumption of a wait (Table 7.4). -/
def consume (q : Seq) (p : BitVec 128) : Seq :=
  match plyWcond p with
  | 1 => { q with watches := updAt q.watches (plyWarg p % 4) (fun x => x.map (fun v => v + BitVec.ofNat 32 (plyWarg p / 4 % 256))) }
  | 2 => { q with watches := updAt q.watches (plyWarg p % 4) (fun x => x.map (fun v => v + BitVec.ofNat 32 (plyWarg p / 4 % 256))) }
  | _ => q

/-- Is the object that a ply waits on being served: its wing ACTIVE, its file not contained, and the seam not contained where it lies
in the other wing (R16, Table 12.5)? -/
def State.waitServed (s : State) (k : Nat) (p : BitVec 128) : Bool :=
  match (s.seqEnt k).waitObj p with
  | none => true
  | some o => s.active (wingOf o) && !s.fileContained o && (wingOf o == seqWing k || !s.contained bSEAM)

/-- What a wait's check finds. -/
def State.sawWait (s : State) (k : Nat) (p : BitVec 128) : State :=
  match s.waitMet k p with
  | .error r => s.stopSeq k r (((s.seqEnt k).waitObj p).getD 0) 3 0
  | .ok false => s
  | .ok true =>
    let s1 := match (s.seqEnt k).waitObj p with
      | some o => s.seqReads o
      | none => s
    (s1.modSeq k (fun q => consume q p)).metSeq k p

/-- A sequencer sees its wait met (R201). The check waits for the object's record, and for a row that a remap has locked (R116, R353). -/
def State.seqMet (s : State) (k : Nat) : State :=
  let q := s.seq k
  match q.cur with
  | none => s
  | some p =>
    if q.state ≠ .waiting ∨ q.pageWait ∨ q.checking ∨ q.met ∨ !s.waitServed k p then s
    else match (s.seqEnt k).waitObj p with
      | none => s.sawWait k p
      | some o => match s.resident o with
        | none => s.await o (.met k)
        | some x => if s.rowBusy o x then s.park (.row (wingOf o)) (.met k) else s.sawWait k p

/-- The target of a TIME wait (R200, R201). -/
def timeTarget (q : Seq) (p : BitVec 128) : Nat :=
  let x := plyWarg p
  let unit := if x / 2 ^ 20 % 2 = 1 then 16000 else 16
  ((if x / 2 ^ 21 % 2 = 1 then q.anchor else q.plyAt) + x % 2 ^ 20 * unit) % 2 ^ 64

/-- A TIME wait reaches its target (R202); a wing that is not ACTIVE is woken for it (R319). -/
def State.seqTime (s : State) (k : Nat) : State :=
  let q := s.seq k
  let w := seqWing k
  match q.cur with
  | none => s
  | some p =>
    if q.state ≠ .waiting ∨ q.pageWait ∨ q.checking ∨ q.met ∨ plyWcond p ≠ 5 ∨ s.now < timeTarget q p then s
    else if !s.active w then s.wake w 7 3
    else
      let anchored := plyWarg p / 2 ^ 21 % 2 == 1
      (s.modSeq k (fun q => { q with anchor := if anchored then timeTarget q p else q.anchor })).metSeq k p

/-- Issue the actions of a sequencer whose wait has been met and that nothing holds back any more. -/
def State.goMetSeq (s : State) (k : Nat) : State :=
  let q := s.seq k
  let w := seqWing k
  match q.cur with
  | some p => if q.state == .waiting && q.met && !s.seqPaused k && !s.stepping w && s.active w then s.goSeq k p else s
  | none => s

/-- Issue the actions of every such sequencer of a wing: at the end of a forced hold, of a P-level step, or when the wing becomes ACTIVE. One
whose event still comes through the seam has its turn with it (R32). -/
def State.goMet (s : State) (w : Wing) : State :=
  each (fun k s => if seqWing k = w ∧ !s.todo.contains (.met k) then s.goMetSeq k else s) (List.range 32) s

/-- A wait's check that has waited, or the event of a wait that has come through the seam. -/
def State.metCross (s : State) (k : Nat) : State := if (s.seq k).met then s.goMetSeq k else s.seqMet k

/-! ### Answers (R207) -/

/-- Actions of a sequencer that wait to be issued are not issued after a refusal (R207). -/
def State.dropUnissued (s : State) (k : Nat) : State :=
  let n := (s.seam.filter (fun u => u.unissued k)).length + (s.held.filter (fun h => h.unissued k)).length
  ({ s with seam := s.seam.filter (fun u => !u.unissued k), held := s.held.filter (fun h => !h.unissued k) } : State).modSeq k (fun q => { q with waitingActs := q.waitingActs - n })

/-- The next answer reaches the sequencer (R207, R210): once every action issued has been answered the ply is complete, or the
sequencer halts on the first answer refused. -/
def State.takeAnswer (s : State) (k : Nat) : State :=
  let q := s.seq k
  match q.answers, q.cur with
  | (a, obj, st) :: t, some p =>
    let s1 := s.modSeq k (fun q => { q with
      answers := t, waitingActs := q.waitingActs - 1
      bad := if acceptedAnswer st then q.bad else q.bad.or (some (a, obj, st)) })
    let s2 := if acceptedAnswer st then s1 else s1.dropUnissued k
    if (s2.seq k).waitingActs = 0 then
      match (s2.seq k).bad with
      | some (a, obj, st) => s2.stopSeq k .actionRefused obj a st.code.toNat
      | none => s2.completePly k p
    else s2
  | _, _ => s

/-! ### Ply pages arrive (R220) -/

/-- Is a sequencer waiting for a page? -/
def Seq.waitsPage (q : Seq) (page : Nat) : Bool :=
  q.state == .waiting && q.pageWait && missPage q.pc == page

/-- A page is read once more: after an error of the mesh (R378), or after a failed check (R220). -/
def State.rereadPage (s : State) (w : Wing) (page : Nat) (failed : Bool) : State :=
  (s.modWing w (fun x => { x with
    pageReads := x.pageReads.map (fun y => if y.page = page then { y with second := y.second || failed, repeated := !failed } else y) })).emit
    (.plyRead (s.plyAddr page))

/-- The read of a ply page or of a displaced row completes (R220, R378): one that ends in an error is repeated once, and after a second
error counts as a failed check. A page is installed when its check holds; else it is read once more, else it is bad. A displaced row holds what the ply memory's row held, and is not cached. Only the first 8 reads of a wing are in flight (R219). -/
def State.pageArrives (s : State) (w : Wing) (page : Nat) (plies : List (BitVec 128)) (err : Bool) : State :=
  match ((s.wing w).pageReads.take 8).find? (fun r => r.page == page) with
  | none => s
  | some r =>
    let bytes : List Byte := plies.foldl (fun l p => l ++ leBytes 16 p.toNat) []
    let row := decide (15360 ≤ page)
    let good := !err && (row || (plies.length == 64 && s.img.pageCheck[page]? == some (crc32c bytes)))
    let drop (s : State) : State := s.endRead w page
    let ahead (s : State) : State := each (fun k s => if seqWing k = w then s.readAhead k else s) (List.range 32) s
    if good then
      let s1 := if row then drop s else (drop s).putPage page plies
      ahead (each (fun k s =>
        if !(s.seq k).waitsPage page then s
        else if row then s.current k ((s.img.plies[(s.seq k).pc]?).getD 0)
        else s.fetchPly k) (List.range 32) s1)
    else if err ∧ !r.repeated then s.rereadPage w page false
    else if !r.second then s.rereadPage w page true
    else
      let s1 := (drop s).modWing w (fun x => { x with checkFail := sat 0xFF x.checkFail })
      let s2 : State := { s1 with badPages := insKey s1.badPages page }
      ahead (each (fun k s => if (s.seq k).waitsPage page then s.stopSeq k .pageCheck 0 0 0 else s) (List.range 32)
        (s2.raise (bSEQ w) 2))

/-! ### Forced holds and sequencers (R271, R215) -/

/-- Must a sequencer still reach a ply boundary before the forced grants are made (R271)? A ply miss delays them too. -/
def State.delaysGrants (s : State) (k : Nat) : Bool :=
  let q := s.seq k
  !s.holding (.seq k) && (match q.state with
    | .acting => true
    | .stopping => true
    | .waiting => q.pageWait
    | _ => false)

/-- Tell the holder of a forced grant, waking the wing of its port (Table 11.11); a sequencer's wing is not woken (R273). -/
def State.tellHolder (s : State) (h : HoldRec) : State :=
  match h.who with
  | .pos p => (s.complete (posWing p) p h.slot .granted (BitVec.ofNat 51 h.us)).wakeIfDown (posWing p) 8 p
  | .seq _ => s

/-- Every pending domain-0 request is granted (R271). -/
def State.forcedGrant (s : State) : State :=
  if !s.holds.forced ∨ s.holds.grantsDone ∨ (List.range 32).any (fun k => s.delaysGrants k) then s
  else
    let hit (h : HoldRec) : Bool := h.dom == 0 && h.granted.isNone
    let l := s.holds.recs.filter hit
    let grant (h : HoldRec) : HoldRec := if hit h then { h with granted := some (s.now + 1000 * h.us), forced := true } else h
    let s1 : State := { s with holds := { s.holds with grantsDone := true, recs := s.holds.recs.map grant } }
    (each (fun h s => s.tellHolder h) l s1).work .holdsEnded

/-- Send a wing's withheld SET beats in the order of their completions (R271). -/
def State.sendWithheld (s : State) (w : Wing) : State :=
  let l := (s.wing w).withheld
  if s.holds.forced ∨ !s.active w then s
  else each (fun x s => s.setBeats w [x]) l (s.modWing w (fun x => { x with withheld := [] }))

/-- The end of a forced hold in one wing (R271): beats and sequencers go on, or the wing is woken for them. -/
def State.resumeWing (s : State) (w : Wing) : State :=
  if s.active w then (s.sendWithheld w).goMet w
  else match (s.wing w).withheld with
    | x :: _ => s.wake w 8 x.1
    | [] => match (List.range 32).find? (fun k => seqWing k == w && (s.seq k).state == .waiting && (s.seq k).met) with
      | some k => s.wake w 8 (s.seqEnt k).actPos
      | none => s

/-- A hold has ended (R271, R272): barriers leave HOLDING, and a forced hold ends with the last hold that it granted. -/
def State.holdsSettle (s : State) : State :=
  let s1 := s.leaveHoldings
  if s1.holds.forced && s1.holds.grantsDone && !s1.holds.recs.any (fun h => h.forced) then
    let s2 : State := { s1 with holds := { s1.holds with forced := false, grantsDone := false } }
    (s2.resumeWing .q).resumeWing .k
  else s1

/-! ### Actions (R204, R205) -/

/-- What an action is: a command, or one of the three that are none. -/
inductive Act where
  | cmd (op : Op) (w : CmdW)
  | wake (p : Nat)
  | holdDone
  | remote (chip : BitVec 16) (op obj : Nat)
  deriving DecidableEq, Repr

/-- A command word with only OBJ and DATA. -/
def seqWord (obj data : Nat) : CmdW :=
  { slot := 0, prio := 0, tag := 0, wait := false, eager := false, staged := false, notify := false,
    obj := BitVec.ofNat 20 obj, arg := 0, data := BitVec.ofNat 64 data }

/-- The command of a REMOTE operation (R205). -/
def remoteCmd (op obj : Nat) : Op × CmdW :=
  match op with
  | 0 => (.flagSet, seqWord obj 0)
  | 1 => (.flagClear, seqWord obj 0)
  | 2 => (.semPost, seqWord obj 1)
  | _ => (.tokenGive, seqWord obj 1)

/-- An action of a ply (Table 7.5). A REMOTE that names this chip acts locally (R205). -/
def State.actionOf (s : State) (k : Nat) (p : BitVec 128) (a : Nat) : Act :=
  let e := s.seqEnt k
  let x := plyAct p a
  let o := actArg x
  let obj := e.obj (o % 4096)
  match actKind x with
  | 1 =>
    let wv : BitVec 32 := ((s.seq k).watches.getD (o % 4) none).getD 0
    let g := wv + (if o / 4 % 2 = 1 then 1 else 0)
    .cmd .arrive { seqWord (e.watch (o % 4)) 0 with arg := (g.truncate 16).zeroExtend 20, staged := o / 8 % 2 == 1 }
  | 2 => .cmd .flagSet (seqWord obj 0)
  | 3 => .cmd .flagClear (seqWord obj 0)
  | 4 => .cmd .semPost (seqWord obj (o / 4096 + 1))
  | 5 => .cmd .tokenGive (seqWord obj (o / 4096 + 1))
  | 6 => .wake o
  | 7 => .holdDone
  | _ =>
    let chip : BitVec 16 := BitVec.ofNat 16 (plyAct p 2)
    if chip = s.iml.chip then (let (op, w) := remoteCmd (o / 4096 % 4) obj; .cmd op w)
    else .remote chip (o / 4096 % 4) obj

/-- A REMOTE frame (R205, Table 10.11). -/
def remoteFrame (src dst : BitVec 16) (dom op obj : Nat) : Frame :=
  { ftype := 0x20, term := 0, src := src, dst := dst, dom := BitVec.ofNat 10 dom, level := 0, frag := 0,
    obj := BitVec.ofNat 20 obj, group := 0, fcount := 0, fwd := false, gen := 0, body := bodyOf [(0, BitVec.ofNat 8 op)] }

/-- A WAKE action (R205): it waits at the seam for the position's wing, and is answered when that wing takes it. -/
def State.wakeAction (s : State) (k a p : Nat) : State := s.carryNote (seqWing k) p none (some (k, a))

/-- A REMOTE action to another chip (R205, R253): answered when the link or tunnel takes it. While the edge of its port, or
kingside for the tunnel port, must be waited for, the action waits at the seam (R32, R39). -/
def State.remoteAction (s : State) (k a : Nat) (chip : BitVec 16) (op obj : Nat) : State :=
  let w := if sameBoard chip s.iml.chip then shpWing (seatOf chip) else .k
  if s.mustWait (some (seqWing k)) w then (s.toSeam w (.act k a)).wake w 3 0
  else
    let (ok, s1) := s.sendFrom (some (seqWing k)) (remoteFrame s.iml.chip chip (s.seqEnt k).dom op obj)
    s1.seqAnswer k a obj (if ok then .ok else .refusedQuota)

end Sys2Proof.Machine
end

