-- ==== Sys2Proof/Machine/Power.lean ====
section
/-! DEFINITION. Power states: P-levels, throttling, known events, choices, entry, exit and the return of a wing to ACTIVE
(R307 to R326). -/
namespace Sys2Proof.Machine

/-! ### Sources latched while a wing slept (R344) -/

/-- Set several sources of a block in one block cycle: each takes the same new sequence number (R344). -/
def Blk.setBits (x : Blk) (srcs : List Nat) : Blk :=
  match srcs with
  | [] => x
  | a :: t =>
    let y := x.setBit a
    t.foldl (fun y b => { y with stat := y.stat ||| BitVec.twoPow 32 b, stamps := tset 0 y.stamps b y.sqn.toNat,
                                 aged := y.aged &&& ~~~ (BitVec.twoPow 32 b) }) y

/-- Set several sources of a block in one block cycle (R329, R344). -/
def State.setSources (s : State) (b : Nat) (srcs : List Nat) : State :=
  let l := srcs.filter (fun x => s.severity b x != 0)
  if l.isEmpty then s
  else
    let s1 := each (fun x s => s.event 7 b x 0 0) l (s.modBlk b (fun x => (x.setBits l).severe (l.any (fun i => decide (3 ≤ s.severity b i))) s.now))
    each (fun x s => if s.severity b x = 3 then s.contain b x else if s.severity b x = 4 then s.startGrace b x else s) l s1

/-- The events latched for a wing set their sources in the first block cycle (R344). -/
def State.setLatched (s : State) (w : Wing) : State :=
  let l := (s.wing w).latched
  let s1 := s.modWing w (fun x => { x with latched := [] })
  each (fun b s => s.setSources b ((l.filter (fun x => x.1 == b)).map Prod.snd).eraseDups) (keysOf (l.map Prod.fst)) s1

/-- Has a block's grace timer expired: the first µs tick at which the time has passed (R339)? -/
def Blk.expired (x : Blk) (now : Nat) : Bool := x.fstate == .grace && decide ((x.graceEnd + 999) / 1000 ≤ now / 1000)

/-- Contain the blocks of a wing whose grace expired while it was not ACTIVE. -/
def State.lateGraces (s : State) (w : Wing) : State :=
  each (fun b s => if blkWing b = some w ∧ (s.blk b).expired s.now then s.contain b (s.blk b).graceBy else s)
    (List.range 37) s

/-! ### P-levels (R307 to R311) -/

/-- Is a wing up: ACTIVE or IDLE? -/
def State.up (s : State) (w : Wing) : Bool :=
  match (s.pwr w).state with
  | .active => true
  | .idle => true
  | _ => false

/-- Begin a change of a wing's P-level to its effective level (R309, R310): towards a faster level the regulator comes
first, towards a slower one the drain and the frequency step. -/
def State.startStep (s : State) (w : Wing) : State :=
  let p := s.pwr w
  let e := s.effective w
  if !s.up w ∨ p.hand ≠ .none ∨ p.plvl = e then s
  else if e < p.plvl then
    s.modPwr w (fun p => { p with target := e, regLvl := e, hand := .stepReg, reqAt := s.now })
  else (s.modPwr w (fun p => { p with target := e, hand := .drain })).modWing w (fun x => { x with draining := true })

/-- THR_ACK rises once the wing's frequency is at or below the ceiling's, or at once in a wing without its clock (R311). The frequency
of a wing on its way up is the one at which it comes up. -/
def State.throttleAck (s : State) (w : Wing) : State :=
  s.modPwr w (fun p => { p with thrAck := p.thrAck || (match p.state with
    | .adjourned => true
    | .deep => true
    | .off => true
    | .exiting => (match p.exitFrom with
      | .adjourned => decide (p.ceil ≤ p.target)
      | .deep => decide (p.ceil ≤ p.target)
      | _ => decide (p.ceil ≤ p.plvl))
    | _ => decide (p.ceil ≤ p.plvl)) })

/-- Beylek changes a ceiling (R308, R311). -/
def State.throttle (s : State) (w : Wing) (code : Nat) : State :=
  let lower := (s.pwr w).ceil < code
  let s1 := s.modPwr w (fun p => { p with ceil := code, thrAck := p.thrAck && !lower })
  if !s.ready then s1.throttleAck w else (s1.throttleAck w).startStep w

/-- Is a sequencer of a wing ACTING (R216)? -/
def State.anyActing (s : State) (w : Wing) : Bool :=
  (List.range 32).any (fun k => seqWing k == w && (match (s.seq k).state with
    | .acting => true
    | .stopping => true
    | _ => false))

/-- The frequency step (R309, R310): made when no sequencer of the wing is ACTING; towards a slower level the regulator
follows. -/
def State.freqStep (s : State) (w : Wing) : State :=
  let p := s.pwr w
  if s.anyActing w then s
  else match p.hand with
    | .step => ((((s.stir w).modPwr w (fun p => { p with plvl := p.target, hand := .none })).throttleAck w).startStep w).goMet w
    | .drain =>
      ((((s.modPwr w (fun p => { p with
          plvl := p.target, regLvl := p.target, hand := .stepReg, reqAt := s.now })).modWing w (fun x => { x with
          draining := false })).throttleAck w).goMet w)
    | _ => s

/-! ### Known events (Table 11.5) -/

/-- The deadlines of the barriers of a wing. -/
def State.barrierTimes (s : State) (w : Wing) : List Nat :=
  (s.barriers.filter (fun x => wingOf x.1 == w && x.2.deadline != 0 && !x.2.fallen)).map (fun x => x.2.deadline)

/-- The level deadlines of the relays of a wing. -/
def State.levelTimes (s : State) (w : Wing) : List Nat :=
  s.lctxs.foldl (fun l x => match x.2 with
    | some c => if wingOf c.relay == w then l ++ c.deadlines.map Prod.snd else l
    | none => l) []

/-- The targets of the TIME waits of a wing's sequencers. -/
def State.timeWaits (s : State) (w : Wing) : List Nat :=
  (List.range 32).filterMap (fun k =>
    let q := s.seq k
    match q.cur with
    | some p => if seqWing k == w && q.state == .waiting && !q.met && !q.pageWait && plyWcond p == 5 then some (timeTarget q p)
                else none
    | none => none)

/-- The wait limits of pending domain-0 requests, and the ends of granted holds. -/
def State.holdLimits (s : State) : List Nat :=
  (s.holds.recs.filter (fun h => h.dom == 0 && h.granted.isNone)).map (fun h => h.at_ + 1000 * s.img.power.waitLimit)
/-- The ends of granted holds' durations. -/
def State.holdEnds (s : State) : List Nat := s.holds.recs.filterMap (fun h => h.granted)

/-- When alive frames fall due on open tunnel contexts (R240). -/
def State.ctxDues (s : State) : List Nat :=
  (s.tun.ctxs.filter (fun x => x.2.state == .open)).map (fun x => x.2.lastTx + 10000)

/-- When the time exchange with a master over an open tunnel context falls due (R247). -/
def State.timeDues (s : State) : List Nat :=
  match s.timeMaster with
  | some (c, period) =>
    if !sameBoard c s.me && (s.ctxOf c).any (fun i => (s.ctx i).state == .open) then [s.tsync.last + period] else []
  | none => []

/-- When COLD leases of this end end, less 20 µs (R283). -/
def State.leaseEnds (s : State) : List Nat :=
  (s.ports.filter (fun x => x.2.state == PortState.cold && x.2.coldMine)).map (fun x => x.2.leaseEnd - 20000)

/-- The known events of a wing, as kind and time (Table 11.5). -/
def State.knownEvents (s : State) (w : Wing) : List (Nat × Nat) :=
  (s.barrierTimes w).map (fun t => (1, t)) ++ (s.levelTimes w).map (fun t => (2, t)) ++
    (s.timeWaits w).map (fun t => (3, t)) ++ s.holdLimits.map (fun t => (4, t)) ++ s.holdEnds.map (fun t => (5, t)) ++
    (if w = .k then (s.ctxDues ++ s.timeDues).map (fun t => (6, t)) else []) ++ s.leaseEnds.map (fun t => (7, t))

/-- The earliest of a list of events, the first of equals: of known events that fall at one time TCU_NEXTEV shows the lowest kind
(DESIGN CHOICE, log 84). -/
def earliest : List (Nat × Nat) → Option (Nat × Nat)
  | [] => none
  | x :: t => match earliest t with
    | none => some x
    | some y => if y.2 < x.2 then some y else some x

/-- The next known event of a wing (TCU_NEXTEV). -/
def State.nextEvent (s : State) (w : Wing) : Option (Nat × Nat) := earliest (s.knownEvents w)

/-- Is a time within H, from now to the wing's next known event less GUARD (R318)? -/
def State.fitsH (s : State) (w : Wing) (t : Nat) : Bool :=
  match s.nextEvent w with
  | none => true
  | some (_, e) => decide (s.now + t + s.img.power.guard ≤ e)

/-- The exit latency from ADJOURNED in ns by P-level (Table 11.7). -/
def exitAdjourned (l : Nat) : Nat := if l = 0 then 667 else if l = 1 then 700 else if l = 2 then 767 else 967

/-- The exit latency from DEEP_ADJOURNED (Table 11.7). -/
def exitDeep (l : Nat) : Nat := exitAdjourned l + 3800

/-! ### Choosing a state (R317, R318) -/

/-- Is a held command bound for a wing, or has it entered through the wing's ports? -/
def Held.touches (h : Held) (w : Wing) : Bool :=
  (match h.req with
    | .slot p => posWing p == w
    | .win e => e.win == w
    | .seq k _ => seqWing k == w
    | .remote _ _ => false) || (match h.place with
    | .capture p => posWing p == w
    | .window x => x == w
    | .seam x _ => x == w
    | .file o => wingOf o == w
    | .caught _ _ => h.op.onObject && wingOf h.w.obj.toNat == w
    | .aside => h.op.onObject && wingOf h.w.obj.toNat == w)

/-- Do a file's engines stand still? -/
def State.fileQuiet (s : State) (f : Nat) : Bool :=
  let x := s.file f
  x.pageins.isEmpty && x.combineQ.isEmpty && x.promoted.isEmpty && !(s.fileRecs f).any (fun r => r.2.any (fun r => r.evicting))

/-- Is a wing quiescent (R317)? -/
def State.quiescent (s : State) (w : Wing) : Bool :=
  (List.range 8).all (fun f => wingOfFile f != w || s.fileQuiet f) &&
    !s.barriers.any (fun x => wingOf x.1 == w && x.2.combining) && !s.anyActing w && (s.wing w).pageReads.isEmpty &&
    (s.wing w).beats.isEmpty && !s.seam.any (fun u => u.into == w) && !s.dirLag.any (fun u => u.into == w) && (s.wing w).parked.isEmpty && !s.held.any (fun h => h.touches w) &&
    !s.glockReqs.any (fun g => posWing g.pos == w && g.try_.isSome) &&
    !s.lanes.any (fun x => posWing x.1 == w && !x.2.queue.isEmpty) && (s.wing w).remapQ.isEmpty && (s.pwr w).hand == .none &&
    !s.resets.any (fun r => posWing r.pos == w && !r.eff)

/-- The deepest state that the image allows a wing (Table 11.12). -/
def State.deepest (s : State) (w : Wing) : Nat := byWing w s.img.power.deepestQ s.img.power.deepestK

/-- Is a wing ACTIVE with no vote and quiescent? -/
def State.resting (s : State) (w : Wing) : Bool := s.active w && s.voteCount w == 0 && s.quiescent w

/-- Let `dt` ns pass, and count for each wing how long it has had no vote and been quiescent (R318, log 12). -/
def State.pass (s : State) (dt : Nat) : State :=
  let u := s.advance dt
  { u with trace := each (fun w t => t.setCalm w (if s.resting w then t.calm w + dt else 0)) [Wing.q, Wing.k] u.trace }

/-- The TCU's choice for a wing that has had no vote and no work for 64 cycles (R318); none while the TCU is contained
(Table 12.5). -/
def State.choose (s : State) (w : Wing) : State :=
  if !s.ready ∨ s.contained bTCU ∨ !s.resting w ∨ !s.cyclesIn w (s.trace.calm w) 64 then s
  else if 1 ≤ s.deepest w ∧ s.fitsH w (exitAdjourned (s.effective w) + s.img.power.beAdj) then
    ((s.stir w).modPwr w (fun p => { p with state := .entering, ap := 0, wakePend := none })).stateEvent 2
  else ((s.stir w).modPwr w (fun p => { p with state := .idle })).stateEvent 1

/-! ### The return to ACTIVE (R322) -/

/-- The first notice whose effect has not come has it now. -/
def markReset : List ResetRec → List ResetRec
  | [] => []
  | r :: t => if r.eff then r :: markReset t else { r with eff := true } :: t

/-- Notices take effect in the order in which they were taken (R374): the first whose effect has not come, and those behind it, for as
long as the wings of their positions' ports are ACTIVE. -/
def State.nextResets : Nat → State → State
  | 0, s => s
  | n + 1, s =>
    match s.resets.find? (fun r => !r.eff) with
    | some r => if s.active (posWing r.pos) then
        State.nextResets n { s.resetEffect r.pos with resets := markReset (s.resetEffect r.pos).resets } else s
    | none => s

/-- The reset notices whose effect waited take it, and locks that were to be orphaned are (R87, R171, R374). -/
def State.takeResets (s : State) : State :=
  let s1 := s.nextResets 16
  each (fun p s => s.orphanFor p) ((s1.resets.map (fun r => r.pos)).eraseDups) s1

/-- Is a command held at a wing's capture stages or its command window (R34, R92)? -/
def Held.waitsFor (h : Held) (w : Wing) : Bool :=
  match h.place with
  | .capture p => posWing p == w
  | .window x => x == w
  | _ => false

/-- What was held for a wing enters it (R32, R34, R322): lock directory updates before any command (R168), then the units of the
seam and the wing's own held commands, each in the order in which it was held. -/
def State.takeHeld (s : State) (w : Wing) : State :=
  let s1 := s.dirCross.seamGo w
  let l := s1.held.filter (fun h => h.waitsFor w)
  { s1 with held := s1.held.filter (fun h => !h.waitsFor w), todo := s1.todo ++ l.map (fun h => Work.rerun h) }

/-- Leave work from a wing to a wing: at the end of the step, or once the way into that wing is open; the work's request waits at the
seam and wakes it (R16, R32, R33). -/
def State.workFor (s : State) (origin : Option Wing) (w : Wing) (x : Work) : State :=
  if !s.active w || s.mustWait origin w then (s.toSeam w x).wake w 3 0 else (s.crossFrom origin w).work x

/-- The ports of a wing go on, and with kingside the tunnel port and its front latch (R40, R286). -/
def State.takePorts (s : State) (w : Wing) : State :=
  let s1 := each (fun k s => if shpWing k = w then s.portWake k else s) (List.range 16) s
  if w = .k then (s1.work .front).tunGo else s1

/-- The exit time of a last-wake record: 10 ns units, rounded up (R326). -/
def exitUnits (t0 t1 : Nat) : Nat := Nat.min 0x7FF ((t1 - t0 + 9) / 10)

/-- A wing becomes ACTIVE: what happened for it while it slept takes its effect in the order of R344, R87 and R322. -/
def State.becomeActive (s : State) (w : Wing) : State :=
  let idle := (s.pwr w).exitFrom == .idle
  let s1 := s.modPwr w (fun p => { p with
    state := .active, ap := 7, wakePend := none
    lastWake := if idle then p.lastWake else p.lastWake.map (fun r => { r with exit := exitUnits r.time s.now }) })
  let s2 := ((s1.stateEvent 0).setLatched w).lateGraces w
  let s3 := s2.takeResets.sendWithheld w
  let s4 := (s3.leaveHoldings).takeHeld w
  (((s4.takePorts w).goMet w).startStep w).work .levels

/-! ### Entry (R321) -/

/-- May a wing's edge adjourn: every port QUIET, COLD, DOWN, FENCED or off, and for kingside the tunnel port empty
(R317)? -/
def State.edgeQuiet (s : State) (w : Wing) : Bool :=
  (List.range 16).all (fun k => shpWing k != w || (match (s.port k).state with
    | .fast => false
    | .training => false
    | .resuming => false
    | _ => true)) &&
    (w != .k || (s.tun.front.isNone && s.tun.ctxs.all (fun x => x.2.unacked.isEmpty && x.2.reorder.isEmpty)))

/-- A wake acted on at an abort point (R321, Table 11.6): up to AP2 the wing is ACTIVE again at once, at AP3 when its
oscillator, PLL and arrays are back; until then TCU_PWRSTAT shows EXITING with AP 0b111 (DESIGN CHOICE, log 85). -/
def State.abortEntry (s : State) (w : Wing) (ap : Nat) : State :=
  let s1 : State := { s with pwrc := { s.pwrc with abortCnt := sat 0xFF s.pwrc.abortCnt } }
  let s2 := s1.modPwr w (fun p => { p with lastWake := p.lastWake.map (fun r => { r with ap := ap }), exitFrom := .entering })
  if ap < 3 then s2.becomeActive w
  else (s2.modPwr w (fun p => { p with
    state := .exiting, ap := 7, oscEn := true, hand := .osc, reqAt := s.now, wakePend := none })).stateEvent 5

/-- Entry to ADJOURNED reaches its next abort point (Table 11.6). AP3 needs MEM_RDY, and AP4 makes the wing ADJOURNED; a wake
acted on there is an ordinary exit. -/
def State.abortPoint (s : State) (w : Wing) : State :=
  let p := s.pwr w
  if p.state ≠ .entering then s
  else match p.ap with
    | 0 =>
      if p.wakePend.isSome then s.abortEntry w 1
      else if s.quiescent w ∧ s.edgeQuiet w then s.modPwr w (fun p => { p with ap := 1 })
      else s
    | 1 => if p.wakePend.isSome then s.abortEntry w 2
           else s.modPwr w (fun p => { p with ap := 2, oscEn := false, memLvl := 1, hand := .mem, reqAt := s.now })
    | 2 =>
      if p.hand = .mem then s
      else if p.wakePend.isSome then s.abortEntry w 3
      else s.modPwr w (fun p => { p with ap := 3 })
    | _ =>
      let s1 : State := { s with pwrc := { s.pwrc with adjCnt := sat 0x7FFF s.pwrc.adjCnt } }
      let s2 := ((s1.modPwr w (fun p => { p with state := .adjourned, ap := 7, regEn := false, wakePend := none })).throttleAck
        w).stateEvent 3
      match p.wakePend with
      | none => s2
      | some (src, d, t) =>
        s2.startExit w .adjourned { source := src, state := .entering, ap := 4, detail := d, exit := 0, time := t }

/-! ### Deepening (R320) -/

/-- Is a port enabled and in one of the states that let the chip deepen? -/
def State.portsCold (s : State) : Bool :=
  (List.range 16).all (fun k => !s.portOn k || (match (s.port k).state with
    | .cold => true
    | .down => true
    | .fenced => true
    | _ => false))

/-- May one wing deepen, its H apart (R320)? -/
def State.wingDeep (s : State) (w : Wing) : Bool := (s.pwr w).state == .adjourned && s.voteCount w == 0 && s.deepest w == 2

/-- The conditions of R320 apart from H and the links' states. -/
def State.canDeepen (s : State) : Bool :=
  s.wingDeep .q && s.wingDeep .k && (List.range 16).all (fun k => !s.portOn k || (s.link k).coldLease != 0) &&
    s.tun.ctxs.all (fun x => x.2.state != .open)

/-- The conditions of R320 apart from the links' states. -/
def State.mayDeepen (s : State) : Bool :=
  s.canDeepen && [Wing.q, Wing.k].all (fun w => s.fitsH w (exitDeep (s.effective w) + s.img.power.beDeep))

/-- Both wings change between ADJOURNED and DEEP_ADJOURNED. -/
def State.moveBoth (s : State) (st : PState) (mem code : Nat) : State :=
  ((s.modPwr .q (fun p => { p with state := st, memLvl := mem })).modPwr .k (fun p => { p with
    state := st, memLvl := mem })).stateEvent code

/-- The TCU deepens both wings once every enabled port is COLD, DOWN or FENCED, and announces QUIET ports cold first
(R320). The choice is made as the announcements begin: what becomes known after it, the new leases among it, does not change it (R319; DEDUCED,
log 90). -/
def State.deepen (s : State) : State :=
  if !(s.mayDeepen || s.pwrc.announcing && s.canDeepen) then s
  else if s.portsCold then
    let s1 : State := { s with pwrc := { s.pwrc with announcing := false } }
    s1.moveBoth .deep 2 4
  else
    let s1 : State := { s with pwrc := { s.pwrc with announcing := true } }
    each (fun k s => if s.portOn k && (s.port k).state == .quiet && (s.port k).await.isNone then s.sendCold k else s)
      (List.range 16) s1

/-- A COLD lease ends less 20 µs (R320, R283): wings that are DEEP_ADJOURNED return to ADJOURNED, and quiet ALIVE and fresh COLD frames go
out on the links that are COLD, also on those of a chip that has woken meanwhile. Whether the chip may then deepen again is judged now
(DEDUCED, log 90). -/
def State.leaseEnd (s : State) : State :=
  if !s.leaseEnds.any (fun t => decide (t ≤ s.now)) then s
  else
    let deep := (s.pwr .q).state == .deep && (s.pwr .k).state == .deep
    let s1 := if deep then s.moveBoth .adjourned 1 3 else s
    let s2 := each (fun k s =>
      if (s.port k).state = .cold then
        (((s.sendQuiet k 5).leaveCold k).sendCold k)
      else s) (List.range 16) s1
    { s2 with pwrc := { s2.pwrc with announcing := s2.mayDeepen } }

/-! ### Handshakes (R322, R323) -/

/-- The limit of a handshake in ns (Table 11.8). -/
def handLimit (from_ : PState) (h : Hand) : Nat :=
  match from_, h with
  | .deep, .reg => 2900
  | .deep, .osc => 820
  | .deep, .mem => 560
  | _, .reg => 280
  | _, .osc => 100
  | _, .mem => 100
  | _, _ => 0

/-- Is a ready signal of a wing absent 100 µs after its request (R323)? -/
def State.overdue (s : State) (w : Wing) : Bool :=
  let p := s.pwr w
  (match p.hand with
    | .reg => true
    | .osc => true
    | .mem => true
    | .stepReg => true
    | _ => false) && decide (p.reqAt + 100000 ≤ s.now)

/-- WAKE_LATE (R323): a condition, true while a ready signal of either wing is overdue. -/
def State.wakeLateNow (s : State) : State := if s.overdue .q || s.overdue .k then s.condOn bTCU 3 else s.condOff bTCU 3

/-- A ready signal is seen: an exit that it delays beyond its limit is a late one. -/
def State.seen (s : State) (w : Wing) : State :=
  s.modPwr w (fun p => { p with
    lateExit := p.lateExit || (p.state == .exiting && p.exitFrom != .entering &&
      decide (p.reqAt + handLimit p.exitFrom p.hand < s.now)) })

/-- REG_RDY (R309, R322). -/
def State.regReady (s : State) (w : Wing) : State :=
  match (s.pwr w).hand with
  | .reg => ((s.seen w).modPwr w (fun p => { p with oscEn := true, hand := .osc, reqAt := s.now })).wakeLateNow
  | .stepReg =>
    let p := s.pwr w
    let s1 := s.modPwr w (fun p => { p with hand := if p.plvl = p.target then .none else .step })
    (if p.plvl = p.target then s1.startStep w else s1).wakeLateNow
  | _ => s

/-- OSC_RDY (R322). -/
def State.oscReady (s : State) (w : Wing) : State :=
  match (s.pwr w).hand with
  | .osc => ((s.seen w).modPwr w (fun p => { p with hand := .pll })).wakeLateNow
  | _ => s

/-- The PLL is locked (R322): the memory step begins. -/
def State.pllLocked (s : State) (w : Wing) : State :=
  match (s.pwr w).hand with
  | .pll => s.modPwr w (fun p => { p with memLvl := 0, hand := .mem, reqAt := s.now })
  | _ => s

/-- MEM_RDY (R321, R322). -/
def State.memReady (s : State) (w : Wing) : State :=
  let p := s.pwr w
  match p.hand with
  | .mem =>
    let s1 := s.seen w
    (match p.state, p.exitFrom with
      | .exiting, .entering => (s1.modPwr w (fun p => { p with hand := .none })).becomeActive w
      | .exiting, _ => s1.modPwr w (fun p => { p with hand := .restore })
      | _, _ => s1.modPwr w (fun p => { p with hand := .none })).wakeLateNow
  | _ => s

/-- Contain a block whose saved state held an uncorrectable word (R325). The spec gives the cause no code: FREE VALUE
(log 4). -/
def State.sealContain (s : State) (b : Nat) : State :=
  let (cause, s1) := s.draw 32
  s1.contain b cause

/-- The sealed move is restored (R322, R325): the wing is ACTIVE at the level chosen when the exit began. `bad` names the
blocks whose saved state held an uncorrectable word. -/
def State.restored (s : State) (w : Wing) (bad : List Nat) : State :=
  let p := s.pwr w
  if p.hand ≠ .restore then s
  else
    let late := if p.lateExit then 1 else 0
    let s1 : State := { s with pwrc := { s.pwrc with lateRdy := satAdd 0xFF s.pwrc.lateRdy late } }
    let hit := bad.filter (fun b => blkWing b == some w)
    let s2 := s1.modPwr w (fun p => { p with plvl := p.target, hand := .none, state := .active })
    let s3 := if hit.isEmpty then s2 else each (fun b s => s.sealContain b) hit (s2.raise bTCU 4)
    (s3.throttleAck w).becomeActive w

/-- An IDLE wing's clock is ungated (R312). -/
def State.idleExit (s : State) (w : Wing) : State :=
  let p := s.pwr w
  if p.state = .exiting ∧ p.exitFrom = .idle then s.becomeActive w else s

end Sys2Proof.Machine
end

