-- ==== Sys2Proof/Machine/Groups.lean ====
section
/-! DEFINITION. Groups: trees, level frames, suspects, join and liveness (R223 to
R229, R236, R240, R250 to R252). -/
namespace Sys2Proof.Machine

/-! ### Trees (R236) -/

/-- The L2 nodes in the order of R236, node 0 first. -/
def State.l2Nodes (s : State) (g : Nat) : List Nat :=
  let l := s.nodeBoards g (clusterOf s.me)
  match s.arb g 2 with
  | some a => boardOf a :: l.filter (fun b => b != boardOf a)
  | none => l

/-- The index of an element. -/
def indexOf (l : List Nat) (x : Nat) : Option Nat := (idxsFrom (fun y => y == x) 0 l).head?

/-- The tree A parent of node `i`; none for the root. -/
def parentA (a i : Nat) : Option Nat := if i = 0 ∨ a = 0 then none else some ((i - 1) / a)

/-- The tree B parent of node `i` of `n`; none for the root. -/
def parentB (n a i : Nat) : Option Nat := if n ≤ i + 1 ∨ a = 0 then none else some (n - 1 - (n - 2 - i) / a)

/-- What a node chip needs to know of its place in the two trees: the node chips of its parents and children, whether it
is a root, and the node chips of both roots. -/
structure Place2 where
  upA   : Option (BitVec 16)
  upB   : Option (BitVec 16)
  downA : List (BitVec 16)
  downB : List (BitVec 16)
  rootA : Option (BitVec 16)
  rootB : Option (BitVec 16)
  deriving DecidableEq, Repr

/-- A node chip's place in the trees of R236. -/
def State.place2 (s : State) (g : Nat) : Place2 :=
  let l := s.l2Nodes g
  let n := l.length
  let a := (s.grp g).arity
  let chip (i : Nat) : Option (BitVec 16) := (l[i]?).bind (s.arb1 g)
  match indexOf l s.board with
  | none => { upA := none, upB := none, downA := [], downB := [], rootA := none, rootB := none }
  | some i =>
    { upA := (parentA a i).bind chip
      upB := (parentB n a i).bind chip
      downA := ((List.range n).filter (fun j => parentA a j == some i)).filterMap chip
      downB := ((List.range n).filter (fun j => parentB n a j == some i)).filterMap chip
      rootA := chip 0
      rootB := chip (n - 1) }

/-- The node chips of the clusters at L3 (R238). -/
def State.l3Chips (s : State) (g : Nat) : List (BitVec 16) := (s.nodeClusters g).filterMap (s.arb2 g)

/-- The chips of other boards with which this chip holds join contexts for a group's levels (R228). -/
def State.farNeighbours (s : State) (g : Nat) : List (BitVec 16) :=
  let top := (s.grp g).top
  let l2 := if s.isNode g then
      let p := s.place2 g
      p.upA.toList ++ p.upB.toList ++ p.downA ++ p.downB ++
        (if 3 ≤ top && s.isArb g 2 then p.rootB.toList else []) ++
        (if 3 ≤ top && p.rootB == some s.me then p.rootA.toList else [])
    else []
  let roots := (s.arb g 3).toList ++ (s.sby g 3).toList
  let l3 := if top < 3 then []
    else if roots.contains s.me then s.l3Chips g ++ roots
    else if s.isArb g 2 then roots else []
  ((l2 ++ l3).filter (fun c => c != s.me && !sameBoard c s.me)).eraseDups

/-- The chips with which this chip exchanges time over the tunnel, as follower or as master (R247). -/
def State.timePeers (s : State) : List (BitVec 16) :=
  let top := (s.grp 0).top
  let up := if s.isNode 0 then (if s.isArb 0 2 then (if 3 ≤ top then (s.arb 0 3).toList else []) else (s.arb 0 2).toList) else []
  let down2 := if s.isArb 0 2 then (s.nodeBoards 0 (clusterOf s.me)).filterMap (s.arb1 0) else []
  let down3 := if s.isArb 0 3 then s.l3Chips 0 else []
  ((up ++ down2 ++ down3).filter (fun c => c != s.me && !sameBoard c s.me)).eraseDups

/-- The contexts opened on need for the exchanges of R247 are join contexts once no takeover of group 0 is under way (R370). -/
def State.reclass (s : State) : State :=
  if (s.group 0).state = .failover then s
  else each (fun c s => match s.ctxOf c with
    | some i => if (s.ctx i).join then s else s.modCtx i (fun x => { x with join := true })
    | none => s) s.timePeers s

/-- The neighbours of this chip in a group: the other participants of its board, and those of R228 step 3. -/
def State.neighbours (s : State) (g : Nat) : List (BitVec 16) :=
  (s.boardMem g s.board).filter (fun c => c != s.me) ++ s.farNeighbours g

/-! ### Frames (R298 to R300) -/

/-- A level frame of this chip (Table 10.10). -/
def State.lvlFrame (s : State) (g ftype level : Nat) (dst : BitVec 16) (obj : Nat) (gen : BitVec 32) (frag fcount : Nat)
    (body : List Byte) : Frame :=
  { ftype := BitVec.ofNat 8 ftype, term := if level = 0 then 0 else (s.group g).terms.getD (level - 1) 0, src := s.me, dst := dst
    dom := if level = 0 then 0 else BitVec.ofNat 10 (s.grp g).owner, level := BitVec.ofNat 2 level
    frag := BitVec.ofNat 3 frag, obj := BitVec.ofNat 20 obj, group := BitVec.ofNat 8 g, fcount := BitVec.ofNat 3 fcount
    fwd := false, gen := gen, body := body }

/-- The fragments of a message of `n` payload bytes (R300). -/
def fragments (n : Nat) : Nat := hi 1 ((n + 47) / 48)

/-- The body of fragment `i` of a payload of `n` bytes (R300). -/
def fragBody (x : BitVec 2048) (n i : Nat) : List Byte :=
  (List.range 48).map (fun j => if 48 * i + j < n then x.extractLsb' (8 * (48 * i + j)) 8 else 0)

/-- Leave frames to be sent at the end of the step. -/
def State.sendAll (s : State) (l : List Frame) : State := { s with todo := s.todo ++ l.map Work.send }

/-- Send a level message to chips other than this one (R300). -/
def State.sendMsg (s : State) (g ftype level obj : Nat) (gen : BitVec 32) (n : Nat) (x : BitVec 2048)
    (dest : List (BitVec 16)) : State :=
  each (fun c s =>
    if c = s.me then s
    else
      let k := fragments n
      s.sendAll ((List.range k).map (fun i => s.lvlFrame g ftype level c obj gen i (k - 1) (fragBody x n i)))) dest s

/-! ### Suspects (R250 to R252) -/

/-- Does an entry hold a triple? -/
def Suspect.is (x : Suspect) (c : BitVec 16) (level : BitVec 2) (g : BitVec 8) : Bool :=
  x.chip == c && x.level == level && x.group == g

/-- The keys 0 to 63 of free entries. -/
def freeEntries (t : Table (Option Suspect)) : List Nat := (List.range 64).filter (fun i => (tget none t i).isNone)

/-- Raise SUSPECT for a chip, at most once in any 10 µs (R252); entries of the chip count as raised. -/
def State.raiseSuspect (s : State) (c : BitVec 16) : State :=
  let last := s.susp.raisedAt.find? (fun x => x.1 == c.toNat)
  if last.any (fun x => decide (s.now < x.2 + 10000)) then s
  else
    let mark (x : Option Suspect) : Option Suspect :=
      x.map (fun x => if x.chip = c then { x with raisedWith := x.witness } else x)
    let s1 : State := { s with susp := { s.susp with
      raisedAt := tput s.susp.raisedAt c.toNat s.now, table := s.susp.table.map (fun x => (x.1, mark x.2)) } }
    s1.raise bTCU 0

/-- Raise SUSPECT for entries whose witness count has grown since the last raise, once 10 µs have passed (R252). -/
def State.suspectTick (s : State) : State :=
  let l := (s.susp.table.filterMap (fun x => x.2.bind (fun y => if y.raisedWith < y.witness then some y.chip else none))).eraseDups
  each (fun c s => s.raiseSuspect c) l s

/-- A report reaches the arbiter's suspect table (R251, R252): it merges, takes a free entry (FREE VALUE which, log 4), or is
dropped. -/
def State.suspectIn (s : State) (c : BitVec 16) (level : BitVec 2) (g : BitVec 8) (cause : Nat) : State :=
  let u := s.susp
  match u.table.find? (fun x => x.2.any (fun y => y.is c level g)) with
  | some (i, _) =>
    let up (y : Suspect) : Suspect := { y with witness := sat 0xFFFF y.witness }
    let s1 : State := { s with susp := { u with table := tmod none u.table i (fun y => y.map up) } }
    s1.raiseSuspect c
  | none =>
    let l := freeEntries u.table
    match l[Config.freePick s.free % (hi 1 l.length)]? with
    | none => { s with susp := { u with overflow := sat 0xFFFF u.overflow } }
    | some i =>
      let x : Suspect := { chip := c, level := level, group := g, cause := cause, witness := 1, madeAt := s.now, raisedWith := 0 }
      let s1 : State := { s with free := s.free + 1, susp := { u with table := tset none u.table i (some x) } }
      s1.raiseSuspect c

/-- Report a suspect once (R250): causes 1 STRAGGLER, 2 SILENT, 3 LINK. When the suspect is the level's arbiter the report goes to
the standby, which takes the role (DEDUCED, log 76). -/
def State.report (s : State) (c : BitVec 16) (level g cause : Nat) : State :=
  let key := (c, BitVec.ofNat 2 level, BitVec.ofNat 8 g)
  if s.susp.reported.any (fun x => x.1 == key) then s
  else
    let kept := if 64 ≤ s.susp.reported.length then s.susp.reported.drop 1 else s.susp.reported
    let s1 : State := { s with susp := { s.susp with reported := kept ++ [(key, s.now)] } }
    match (if s.arb g level = some c then s.sby g level else s.arb g level) with
    | none => s1
    | some a =>
      if a = s.me then s1.suspectIn c key.2.1 key.2.2 cause
      else s1.sendAll [s1.lvlFrame g 0x06 level a 0 0 0 0 (bodyOf ((2, BitVec.ofNat 8 cause) :: bytesAt 0 2 c.toNat))]

/-- A remembered triple is forgotten once its suspect has been live for 1 ms (R250), counted from the later of the report and the
time from which the suspect is live (DESIGN CHOICE, log 77). -/
def State.forget (s : State) (c : BitVec 16) (level : BitVec 2) (g : BitVec 8) : State :=
  let x := s.chip c
  if x.silent ∨ s.now < x.liveFrom + 1000000 then s
  else
    let keep (y : (BitVec 16 × BitVec 2 × BitVec 8) × Nat) : Bool :=
      !(y.1 == (c, level, g) && decide (y.2 + 1000000 ≤ s.now))
    { s with susp := { s.susp with reported := s.susp.reported.filter keep } }

/-- A chip resigned from a group: what is remembered and held of it as a suspect is freed (R250, R251). -/
def State.freeSuspect (s : State) (c : BitVec 16) (g : Nat) : State :=
  let u := s.susp
  let other (x : BitVec 16) (h : BitVec 8) : Bool := !(x == c && h.toNat == g)
  { s with susp := { u with
      reported := u.reported.filter (fun x => other x.1.1 x.1.2.2)
      table := u.table.filter (fun x => x.2.all (fun y => other y.chip y.group)) } }

/-- The level at which a chip is this chip's peer: its board, its cluster, or the federation. -/
def State.levelTo (s : State) (c : BitVec 16) : Nat :=
  if sameBoard c s.me then 1 else if sameCluster c s.me then 2 else 3

/-- Report a chip to the arbiters of every group that this chip shares with it. -/
def State.reportAll (s : State) (c : BitVec 16) (cause : Nat) : State :=
  each (fun g s => if s.mem g c && !(s.group g).resigned.contains s.me then s.report c (s.levelTo c) g cause else s) s.joined s

/-- A link has gone DOWN: its participant is reported (R250). -/
def State.linkLost (s : State) (k : Nat) : State := s.reportAll (s.boardChip k) 3

/-! ### Liveness (R240) -/

/-- A frame of any kind has come from a chip. -/
def State.hear (s : State) (c : BitVec 16) : State :=
  if c = s.me then s
  else s.modChip c (fun x => { x with
    heard := true, last := s.now, silent := false, liveFrom := if x.heard && !x.silent then x.liveFrom else s.now })

/-- A chip begins to be watched: at join its peers count as heard. -/
def State.watch (s : State) (c : BitVec 16) : State := if (s.chip c).heard then s else s.hear c

/-- Is a chip watched for silence: on this board, or the peer of an open context? -/
def State.watched (s : State) (c : BitVec 16) : Bool :=
  sameBoard c s.me || ((s.ctxOf c).any (fun i => (s.ctx i).state == .open))

/-- Has no frame come from a chip for 30 µs, an acknowledged COLD announcement counting until its lease ends (R240, R283)? -/
def State.quietTooLong (s : State) (c : BitVec 16) : Bool :=
  let x := s.chip c
  let cold := sameBoard c s.me && (s.port (seatOf c)).state == PortState.cold
  x.heard && !x.silent && s.watched c && decide (x.last + 30000 ≤ s.now) &&
    !(cold && decide (s.now < x.coldTill + 30000))

/-- An ALIVE frame: the sender's links that are FAST or QUIET (Table 10.11). -/
def State.aliveFrame (s : State) (dst : BitVec 16) : Frame :=
  let up (k : Nat) : Bool := match (s.port k).state with
    | .fast => true
    | .quiet => true
    | _ => false
  let mask := (List.range 16).foldl (fun n k => if up k then n + 2 ^ k else n) 0
  { ftype := 0x02, term := 0, src := s.me, dst := dst, dom := 0, level := 0, frag := 0, obj := 0, group := 0, fcount := 0,
    fwd := false, gen := 0, body := bodyOf (bytesAt 0 2 mask) }

/-- A link or context that has carried nothing for 10 µs carries an alive frame (R240): in quiet form on a QUIET link (R287);
a context's is a known event of kingside (R319). In DETECT of a training attempt a quiet one goes out every 1 µs (R285). -/
def State.aliveDue (s : State) (c : Carrier) : State :=
  match c with
  | .port k =>
    let k := k.toNat
    let p := s.port k
    let gap := if p.state = .training ∧ p.phase = 0 then 1000 else 10000
    if s.now < p.lastTx + gap ∨ !s.portOn k then s
    else match p.state with
      | .training => if p.phase = 0 then s.sendQuiet k 5 else s
      | .fast => if s.fastOk k then s.portPut k (s.aliveFrame (s.boardChip k)) else s
      | .quiet => s.sendQuiet k 5
      | _ => s
  | .ctx i =>
    let x := s.ctx i
    if x.state ≠ .open ∨ s.now < x.lastTx + 10000 then s
    else if !s.active .k then s.wake .k 7 6
    else (s.ctxPut i (s.aliveFrame x.peer)).tunGo

/-- An ALIVE frame is received: its sender's links are known, and frames for a seat whose link is DOWN may find a way
through it (R294). -/
def State.aliveIn (s : State) (f : Frame) : State :=
  let s1 := s.modChip f.src (fun c => { c with links := BitVec.ofNat 16 (f.num 0 2) })
  each (fun k s => s.reroute k) (List.range 16) s1

/-! ### Join (R228, R229) -/

/-- Make the context with a chip a join context, opening one when there is none; none when none is free (R229, R370). -/
def State.joinCtx (s : State) (c : BitVec 16) : Option State :=
  match s.ctxOf c with
  | some i => some ((s.modCtx i (fun x => { x with join := true })).watch c)
  | none => match s.newCtx c (s.peerRto c) true with
    | none => none
    | some (i, s1) => some ((s1.sendOpen i).watch c)

/-- A TIME frame (Table 10.11). -/
def State.timeFrame (s : State) (dst : BitVec 16) (t1 t2 t3 : Nat) : Frame :=
  { ftype := 0x03, term := 0, src := s.me, dst := dst, dom := 0, level := 0, frag := 0, obj := 0, group := 0, fcount := 0,
    fwd := false, gen := 0, body := bodyOf (bytesAt 0 8 t1 ++ bytesAt 8 8 t2 ++ bytesAt 16 8 t3) }

/-- Send a probe on a context (R391): its T1 is taken as it leaves. -/
def State.sendProbe (s : State) (i : Nat) : State :=
  let s1 := s.modCtx i (fun c => { c with probeT1 := some s.now, probeAt := s.now })
  (s1.ctxPut i (s.timeFrame (s1.ctx i).peer s.now 0 0)).tunGo

/-- A chip's context has no probe made or under way on its path. -/
def State.unprobed (s : State) (c : BitVec 16) : Option Nat :=
  (s.ctxOf c).filter (fun i => (s.ctx i).probes.isEmpty && (s.ctx i).probeT1.isNone)

/-- The first probes of a group's join, before it is UP (R391). -/
def State.firstProbes (s : State) (g : Nat) : State :=
  if !s.isNode g then s
  else each (fun c s => match s.unprobed c with
    | some i => s.sendProbe i
    | none => s) (s.farNeighbours g) s

/-- Has the context with a neighbour that a node chip probes a probe that is complete (R391)? -/
def State.probed (s : State) (g : Nat) (c : BitVec 16) : Bool :=
  !s.isNode g || !(s.farNeighbours g).contains c || (s.ctxOf c).any (fun i => !(s.ctx i).probes.isEmpty)

/-- Open the contexts of a join. -/
def State.joinCtxs (s : State) : List (BitVec 16) → Option State
  | [] => some s
  | c :: t => match s.joinCtx c with
    | none => none
    | some s1 => s1.joinCtxs t

/-- A HELLO frame (Table 10.11). -/
def State.hello (s : State) (g : Nat) (dst : BitVec 16) : Frame :=
  s.lvlFrame g 0x01 0 dst 0 0 0 0 (bodyOf (bytesAt 0 8 s.iml.buildId.toNat ++ bytesAt 8 4 s.iml.bootSeq))

/-- The levels of a group have their arbiters and standbys from Table 8.6. -/
def State.seatArbs (s : State) (g : Nat) : State :=
  let top := (s.grp g).top
  let s1 := s.modGroup g (fun x => { x with arbs := [s.pickL1 g s.board, none, none] })
  let s2 := if top < 2 then s1 else s1.modGroup g (fun x => { x with arbs := [x.arbs.getD 0 none, s1.pickL2 g (clusterOf s.me), none] })
  let s3 := if top < 3 then s2 else s2.modGroup g (fun x => { x with
    arbs := [x.arbs.getD 0 none, x.arbs.getD 1 none, s2.pickL3 g] })
  s3.modGroup g (fun x => { x with
    sbys := [s3.pickSby g 1, if top < 2 then none else s3.pickSby g 2, if top < 3 then none else s3.pickSby g 3] })

/-- The state codes of a group at which generations proceed. -/
def State.groupUp (s : State) (g : Nat) : Bool :=
  match (s.group g).state with
  | .up => true
  | .failover => (s.group g).everUp
  | _ => false

/-- Generations that wait for the levels try again (R232, R338): every CHILD in PARENT_WAIT, every level context, and the
frames that waited for a context. -/
def State.rekick (s : State) : State :=
  let kids := (s.barriers.filter (fun x => x.2.parentWait)).map (fun x => Work.parent x.1)
  let parked := (s.wq.parked ++ s.wk.parked).map Work.frame
  let s1 := (s.modWing .q (fun y => { y with parked := [] })).modWing .k (fun y => { y with parked := [] })
  { s1 with todo := s1.todo ++ kids ++ s1.lctxs.map (fun x => Work.level x.1) ++ parked }

/-- A group is UP when every level has an arbiter and every neighbour that takes part has answered (R228), the first probe of each that is
probed being complete (R391; DEDUCED, log 91). -/
def State.checkUp (s : State) (g : Nat) : State :=
  let x := s.group g
  let top := (s.grp g).top
  let known := ((List.range 3).filter (fun i => decide (i < top))).all (fun i => (x.arbs.getD i none).isSome)
  let heard (c : BitVec 16) : Bool := x.passed.contains c || (x.answered.any (fun y => y.1 == c) && s.probed g c)
  if x.state = .joining ∧ known ∧ (s.neighbours g).all heard then
    (s.modGroup g (fun x => { x with state := .up, everUp := true })).rekick
  else s

/-- The chips of the peer list: each has a context from the join on (R302). -/
def State.listedPeers (s : State) : List (BitVec 16) :=
  ((s.img.peers.filter (fun e => e.valid)).map (fun e => e.chip)).filter (fun c => !sameBoard c s.me)

/-- Join one group (R228). -/
def State.joinGroup (s : State) (g : Nat) : State :=
  if !(s.grp g).has s.me ∨ (s.group g).state ≠ .absent then s
  else
    let s1 := (s.modGroup g (fun x => { x with state := .joining, joinAt := s.now })).seatArbs g
    let far := s1.farNeighbours g ++ (if g = 0 then s1.timePeers ++ s1.listedPeers else [])
    match s1.joinCtxs far with
    | none => (s1.modGroup g (fun x => { x with state := .refused })).raise bTUN 0
    | some s2 =>
      let s3 := each (fun c s => s.watch c) (s2.boardMem g s2.board) s2
      ((s3.sendAll ((s3.neighbours g).map (s3.hello g))).firstProbes g).checkUp g

/-- After ALM_READY the chip joins its groups in ascending number (R228). -/
def State.join (s : State) : State :=
  if !s.ready ∨ !s.active .q ∨ !s.active .k then s else each (fun g s => s.joinGroup g) (List.range s.img.groups.length) s

/-- A HELLO is received (R228): it answers this chip's own, and is itself answered once for each start of its sender. A resigned
chip stays out (R246). -/
def State.helloIn (s : State) (f : Frame) : State :=
  let g := f.group.toNat
  let key := (f.src, BitVec.ofNat 32 (f.num 8 4))
  let x := s.group g
  match x.state with
  | .absent => s
  | .refused => s
  | _ =>
    if x.answered.contains key ∨ x.resigned.contains f.src then s
    else
      let s1 := s.modGroup g (fun x => { x with
        answered := x.answered.filter (fun y => y.1 != f.src) ++ [key], passed := x.passed.filter (fun c => c != f.src) })
      (s1.sendAll [s1.hello g f.src]).checkUp g

/-- Is a chip the arbiter of a level only because the image names it (Table 8.6)? -/
def State.named (s : State) (g : Nat) (c : BitVec 16) : Bool :=
  let e := s.grp g
  (s.arb g 1 == some c && e.arbL1 == some (seatOf c)) || (s.arb g 2 == some c && e.arbL2 == some (boardOf c % 256)) ||
    (s.arb g 3 == some c && e.arbL3 == some (clusterOf c))

/-- A named arbiter that has not answered a hello within 200 µs is passed over (R228). -/
def State.passOver (s : State) (c : BitVec 16) : State :=
  each (fun g s =>
    let x := s.group g
    if x.state = .joining ∧ s.named g c ∧ x.joinAt + 200000 ≤ s.now ∧ !x.answered.any (fun y => y.1 == c) then
      let s1 := (s.modGroup g (fun x => { x with passed := x.passed ++ [c] })).seatArbs g
      -- the levels' new neighbours are greeted in turn
      let new := (s1.neighbours g).filter (fun d => !(s.neighbours g).contains d)
      match s1.joinCtxs (new.filter (fun d => !sameBoard d s.me)) with
      | none => (s1.modGroup g (fun x => { x with state := .refused })).raise bTUN 0
      | some s2 => ((s2.sendAll (new.map (s2.hello g))).firstProbes g).checkUp g
    else s) (List.range s.img.groups.length) s

end Sys2Proof.Machine
end

