-- ==== Sys2Proof/Machine/Glocks.lean ====
section
/-! DEFINITION. Global locks: at the arbiter of group 0 in the cluster, at its standby, and the answers at the requesting chip
(R173 to R176, R253). -/
namespace Sys2Proof.Machine

/-- A global lock at this chip. -/
def State.glock (s : State) (n : Nat) : Glock := tget Glock.free s.glocks n

/-- Does this chip serve the global locks of its cluster (R173)? -/
def State.servesGlocks (s : State) : Bool := decide (2 ≤ (s.grp 0).top) && s.isArb 0 2

/-- The chip of an identity (R8). -/
def chipOf (i : BitVec 26) : BitVec 16 := i.extractLsb' 10 16

/-- The arbiter sends its answer to a requester: a GLOCK grant frame with a status (R175). BUSY names the holder instead, whom
the LOCK_TRY's VALUE shows (log 33). -/
def State.glockAnswer (s : State) (n : Nat) (i : BitVec 26) (prio : Nat) (st : Status) : State :=
  s.sendAll [glockFrame s.me (chipOf i) 2 n i prio false st.code.toNat]

/-- A raised effective priority reaches the holder's chip in a grant frame of status PENDING, which names the waiter (R167, log
33). -/
def State.glockRaise (s : State) (n : Nat) (h : BitVec 26) (prio : Nat) (waiter : BitVec 26) : State :=
  s.sendAll [glockFrame s.me (chipOf h) 2 n waiter prio false Status.pending.code.toNat]

/-- Write a global lock at the arbiter; the standby is sent its copy before any grant (R176). -/
def State.setGlock (s : State) (n : Nat) (x : Glock) : State :=
  let s1 : State := { s with glocks := tset Glock.free s.glocks n x }
  match s.sby 0 2 with
  | some b => s1.emit (.standbyCopy b .glock n)
  | none => s1

/-- A standby other than the one before is sent every global lock that is held, orphaned or waited for (R176). -/
def State.glockRecopy (s : State) (before : Option (BitVec 16)) : State :=
  if !s.servesGlocks then s
  else match s.sby 0 2 with
    | none => s
    | some b =>
      if some b = before then s
      else each (fun (x : Nat × Glock) s => if x.2 = Glock.free then s else s.emit (.standbyCopy b .glock x.1)) s.glocks s

/-- Put a request behind those of equal or higher priority (R162, R174). -/
def glockEnqueue (l : List (BitVec 26 × Nat)) (x : BitVec 26 × Nat) : List (BitVec 26 × Nat) :=
  match l with
  | [] => [x]
  | y :: t => if y.2 < x.2 then x :: y :: t else y :: glockEnqueue t x

/-- The highest priority among waiting requests. -/
def glockTop (l : List (BitVec 26 × Nat)) : Nat := l.foldl (fun m x => hi m x.2) 0

/-- Grant a global lock to a requester (R163, R171, R174). -/
def State.glockGive (s : State) (n : Nat) (i : BitVec 26) (prio : Nat) (rest : List (BitVec 26 × Nat)) (st : Status) : State :=
  let eff := hi prio (glockTop rest)
  (s.setGlock n { holder := some i, orphaned := false, waiters := rest, prio := prio, eff := eff }).glockAnswer n i eff st

/-- The holder gives a global lock up: the first waiter gets it, or it is free, orphaned when `orphan` says so. -/
def State.glockPass (s : State) (n : Nat) (x : Glock) (orphan : Bool) : State :=
  match x.waiters with
  | (i, p) :: t => s.glockGive n i p t (if orphan then .grantedOrphan else .granted)
  | [] => s.setGlock n { Glock.free with orphaned := orphan }

/-- A global lock whose waiters have become fewer: its effective priority is recomputed (R166). -/
def Glock.relax (x : Glock) (l : List (BitVec 26 × Nat)) : Glock :=
  { x with waiters := l, eff := if x.holder.isSome then hi x.prio (glockTop l) else x.eff }

/-- Has a requester a request waiting at the arbiter for some other lock, or 16 locks held and waited for (R161)? -/
def State.glockFull (s : State) (n : Nat) (i : BitVec 26) : Bool :=
  let mine (x : Glock) : Bool := x.holder == some i || x.waiters.any (fun y => y.1 == i)
  s.glocks.any (fun x => x.1 != n && x.2.waiters.any (fun y => y.1 == i)) ||
    decide (16 ≤ (s.glocks.filter (fun x => mine x.2)).length)

/-- A request reaches the arbiter (R174, R175). A repeat, by a waiting requester or the holder, is ignored (R253); so is
another request of the holder, which the frame does not tell from a repeat (DESIGN CHOICE, log 33). -/
def State.glockAsk (s : State) (n : Nat) (i : BitVec 26) (prio : Nat) (try_ : Bool) : State :=
  let x := s.glock n
  if !s.servesGlocks then s
  else if x.holder = some i ∨ x.waiters.any (fun y => y.1 == i) then s
  else if !try_ && s.glockFull n i then s.glockAnswer n i 0 .stalemate
  else match x.holder with
    | none => s.glockGive n i prio [] (if x.orphaned then .grantedOrphan else .granted)
    | some h =>
      if try_ then s.sendAll [glockFrame s.me (chipOf i) 2 n h 0 false Status.busy.code.toNat]
      else
        let s1 := s.setGlock n { x with waiters := glockEnqueue x.waiters (i, prio), eff := hi x.eff prio }
        if x.eff < prio then s1.glockRaise n h prio i else s1

/-- A release reaches the arbiter (R174). -/
def State.glockFreed (s : State) (n : Nat) (i : BitVec 26) : State :=
  if s.servesGlocks && (s.glock n).holder == some i then s.glockPass n (s.glock n) false else s

/-- An orphan report reaches the arbiter (R176). -/
def State.glockOrphan (s : State) (n : Nat) (i : BitVec 26) : State :=
  if s.servesGlocks && (s.glock n).holder == some i then s.glockPass n (s.glock n) true else s

/-- A withdrawal reaches the arbiter (Table 6.2, R166). -/
def State.glockWithdrawn (s : State) (n : Nat) (i : BitVec 26) : State :=
  let x := s.glock n
  if s.servesGlocks && x.waiters.any (fun y => y.1 == i) then
    s.setGlock n (x.relax (x.waiters.filter (fun y => y.1 != i)))
  else s

/-- A chip resigned at its L2 relay loses every global lock and request of its agents (R176). -/
def State.glockLose (s : State) (c : BitVec 16) : State :=
  if !s.servesGlocks then s
  else each (fun n s =>
    let x := s.glock n
    let y : Glock := x.relax (x.waiters.filter (fun z => chipOf z.1 != c))
    if x.holder.any (fun i => chipOf i == c) then s.glockPass n y true
    else if y.waiters.length < x.waiters.length then s.setGlock n y
    else s) (List.range 64) s

/-- The standby stores the arbiter's copy of a global lock and acknowledges it (R176). -/
def State.takeCopy (s : State) (c : GlockCopy) : State :=
  if 64 ≤ c.lock ∨ s.sby 0 2 ≠ some s.me then s
  else
    let x : Glock := { holder := c.holder, orphaned := c.orphaned, waiters := c.waiters, prio := c.prio, eff := hi c.prio (glockTop c.waiters) }
    ({ s with glocks := tset Glock.free s.glocks c.lock x } : State).emit (.standbyAck c.lock)

/-- A frame of any kind has come from a chip (R240): a standby that is live again has the copies. -/
def State.hears (s : State) (c : BitVec 16) : State := (s.hear c).glockRecopy (s.sby 0 2)

/-- A quiet frame of any class comes from a seat of the board (R240). One that the port's masks then drop has come too (DEDUCED, log
93). -/
def State.quietHeard (s : State) (k seat : Nat) : State := if (s.port k).hears then s.hears (s.boardChip seat) else s

/-- Is this chip arbiter or standby of some level of a group? -/
def State.hasRole (s : State) : Bool :=
  s.joined.any (fun g => [1, 2, 3].any (fun l => decide (l ≤ (s.grp g).top) && (s.isArb g l || s.sby g l == some s.me)))

/-- A copy to the standby goes unacknowledged for 10 µs (R333). -/
def State.copyTimeout (s : State) (k : CopyKind) : State :=
  match k with
  | .level => if s.hasRole then s.raise (bCMB .k) 3 else s
  | .glock => if s.servesGlocks then s.raise (bCMB .k) 4 else s

/-! ### At the requesting chip (R175) -/

/-- The pending request that an answer belongs to: BUSY answers the oldest LOCK_TRY for the lock, other answers name their
requester. -/
def State.glockReqOf (s : State) (n : Nat) (i : BitVec 26) (st : Status) : Option GlockReq :=
  s.glockReqs.find? (fun r => r.lock == n && (if st = .busy then r.try_.isSome else s.identity r.pos == i))

/-- The local lock object bound to a global lock and held, with its record. -/
def State.glockHeld (s : State) (n : Nat) : Option (Nat × Lock) :=
  ((s.recs.map Prod.fst ++ s.backing.map Prod.fst).filterMap (fun o => (s.lockAt o).bind (fun l =>
    if l.global = some n ∧ l.held then some (o, l) else none))).head?

/-- The local object becomes held by a position of this chip. -/
def State.glockHold (s : State) (r : GlockReq) (prio : Nat) : State :=
  match s.obj r.obj with
  | some { body := .lock l, .. } =>
    (s.setBody r.obj (.lock { l with
      held := true, holder := s.identity r.pos, orphaned := false, prio := r.prio, eff := hi prio r.prio })).dirSet r.pos r.obj
      (some .held)
  | _ => s

/-- The status of a grant frame. -/
def glockStatus (n : Nat) : Status :=
  if n = Status.pending.code.toNat then .pending else if n = 4 then .grantedOrphan else if n = 5 then .busy else if n = 0x0E then .stalemate else .granted

/-- The effective priority of a global lock has risen: the holder's chip records it and sends the notice of kind HOLDER (R166,
R167), which names the waiter when it is on this chip (Table 6.5). -/
def State.glockRaised (s : State) (obj : Nat) (l : Lock) (prio : Nat) (waiter : BitVec 26) : State :=
  (s.setBody obj (.lock { l with eff := prio })).promotion obj l.holder prio ((s.localPos waiter).getD 0x3FF)

/-- An identity of an agent, from a number (R8). -/
def identityOf (k : Nat) : Nat := k / 768 % 65536 * 1024 + k % 768

/-- The arbiter's answer returns to the requesting chip (R175). A grant that no request waits for goes
back. So does the grant of a LOCK_TRY that would take its caller above 16 locks: the LOCK_TRY is answered
REFUSED_STATE (R161). Which agent's identity STALEMATE's VALUE holds is a FREE VALUE (log 75). -/
def State.glockAnswered (s : State) (n : Nat) (i : BitVec 26) (prio : Nat) (st : Status) : State :=
  let got := st == .granted || st == .grantedOrphan
  let back := if st = .grantedOrphan then 3 else 1
  if st = .pending then (s.glockHeld n).elim s (fun x => s.glockRaised x.1 x.2 prio i)
  else match s.glockReqOf n i st with
  | none => match got, s.glockHome with
    | true, some a => s.work (.sendBy none (glockFrame s.iml.chip a back n i 0 false 0))
    | _, _ => s
  | some r =>
    let s1 : State := { s with glockReqs := s.glockReqs.filter (fun y => y != r), free := s.free + 1 }
    let excess := got && r.try_.isSome && !s.mayLock r.obj r.pos
    let s2 := if excess then s1.toGlockHome r.obj back n i 0 false else if got then s1.glockHold r prio else s1
    let v : BitVec 51 := if got || st == .busy then BitVec.ofNat 51 i.toNat
                         else BitVec.ofNat 51 (identityOf (Config.freePick s.free))
    match r.try_ with
    | some e =>
      if excess then s2.deliver (.win e) r.tag r.obj true r.mute .refusedState (s.refusedValue r.obj)
      else s2.deliver (.win e) r.tag r.obj true r.mute st v
    | none =>
      match (s2.waiters r.obj).find? (fun x => x.pos == r.pos && x.kind.isLock) with
      | none => s2
      | some x =>
        let s3 := s2.setWaiters r.obj (dequeue (s2.waiters r.obj) x.pos x.slot)
        let s4 := if got then s3 else s3.dirSet r.pos r.obj none
        s4.complete (wingOf r.obj) x.pos x.slot st v

end Sys2Proof.Machine
end

