-- ==== Sys2Proof/Machine/Levels.lean ====
section
/-! DEFINITION. A generation through a relay: level contexts, L1, L2 and L3, release, level deadlines and flag fall (R230 to
R239). -/
namespace Sys2Proof.Machine

/-! ### Contexts (R232) -/

/-- The key of a level context. -/
def lvlKey (relay : Nat) (gen : BitVec 32) : Nat := 2 ^ 32 * relay + gen.toNat

/-- A context with nothing in it. -/
def LvlCtx.empty (relay : Nat) (gen : BitVec 32) : LvlCtx :=
  { relay := relay, gen := gen, own := none, parts := [], sent := [], l1 := none, l2 := none, rel := none, whole := false,
    half1 := none, deadlines := [], fell := [] }

/-- A level context. -/
def State.lctx (s : State) (key : Nat) : Option LvlCtx := tget none s.lctxs key

/-- Change a level context. -/
def State.modLctx (s : State) (key : Nat) (f : LvlCtx → LvlCtx) : State :=
  { s with lctxs := tmod none s.lctxs key (fun x => x.map f) }

/-- The contexts that a relay's generation takes: a second one at a node chip (R232). -/
def State.ctxNeed (s : State) (g : Nat) : Nat := if s.isNode g then 2 else 1

/-- The contexts in use in a wing. -/
def State.ctxUse (s : State) (w : Wing) : Nat :=
  s.lctxs.foldl (fun n x => match x.2 with
    | some c => if wingOf c.relay == w then n + s.ctxNeed ((s.relayAt c.relay).elim 0 (fun r => r.group)) else n
    | none => n) 0

/-- Take a context for a relay's generation, or find the one it has; none when none is free. -/
def State.takeLctx (s : State) (relay g : Nat) (gen : BitVec 32) : Option State :=
  let key := lvlKey relay gen
  match s.lctx key with
  | some _ => some s
  | none =>
    if 512 < s.ctxUse (wingOf relay) + s.ctxNeed g then none
    else some { s with lctxs := tset none s.lctxs key (some (LvlCtx.empty relay gen)) }

/-! ### Payloads (Table 8.4, R235, R237) -/

/-- What the levels need to know of a relay's generation. -/
structure Lvl where
  key   : Nat
  relay : Nat
  child : Nat
  gen   : BitVec 32
  pgen  : BitVec 32
  g     : Nat
  top   : Nat
  code  : Nat
  pw    : Nat
  deriving DecidableEq, Repr

/-- The level payload size S in bytes. -/
def Lvl.size (l : Lvl) : Nat := levelSize l.code l.pw

/-- The words of the level payload. -/
def Lvl.words (l : Lvl) : Nat := l.size / 8

/-- The words of half 0 (R237). -/
def Lvl.half0 (l : Lvl) : Nat := if l.code / 16 = 11 then l.words else (l.words + 1) / 2

/-- The words of half 1. -/
def Lvl.half1 (l : Lvl) : Nat := l.words - l.half0

/-- The low `n` words of a payload. -/
def lowWords (x : BitVec 2048) (n : Nat) : BitVec 2048 := BitVec.ofNat 2048 (x.toNat % 2 ^ (64 * n))

/-- Half 1 of a payload, its first word lowest. -/
def Lvl.upper (l : Lvl) (x : BitVec 2048) : BitVec 2048 := x >>> (64 * l.half0)

/-- A payload from its halves. -/
def Lvl.join (l : Lvl) (a b : BitVec 2048) : BitVec 2048 := lowWords a l.half0 ||| (b <<< (64 * l.half0))

/-- Combine two payloads of `n` words (Table 8.4). -/
def Lvl.combine (l : Lvl) (n : Nat) (a b : BitVec 2048) : BitVec 2048 :=
  if n = 0 then 0 else levelCombine l.code (if l.code / 16 = 8 then l.pw else n) a b

/-- Does L1 use the all-to-all exchange (R235)? -/
def Lvl.allToAll (l : Lvl) : Bool :=
  decide (l.size ≤ 64) && !(l.code / 16 == 1 && (l.code % 16 == 3 || l.code % 16 == 4 || l.code % 16 == 5))

/-- The words of a payload that belong to chip index `j` of `n` (R235). -/
def Lvl.owned (l : Lvl) (n j : Nat) : List Nat := (List.range l.words).filter (fun w => w % n == j)

/-- The words of a payload that belong to chip index `j` of `n`, put together in ascending index. -/
def Lvl.share (l : Lvl) (n j : Nat) (x : BitVec 2048) : BitVec 2048 :=
  BitVec.ofNat 2048 (pack 8 ((l.owned n j).map (fun w => (accDword x w).toNat)))

/-- Put the shares of all chips back in their places. -/
def Lvl.unshare (l : Lvl) (n : Nat) (share : Nat → BitVec 2048) : BitVec 2048 :=
  BitVec.ofNat 2048 (pack 8 ((List.range l.words).map (fun w => (accDword (share (w % n)) (w / n)).toNat)))

/-- What the levels need to know of a context's relay; none when it is not open, or its CHILD is not. -/
def State.lvl (s : State) (relay : Nat) (gen : BitVec 32) : Option Lvl :=
  match s.relayAt relay with
  | none => none
  | some r => match s.barrierAt r.child with
    | none => none
    | some b => some { key := lvlKey relay gen, relay := relay, child := r.child, gen := gen, pgen := r.pgen, g := r.group,
                       top := r.level, code := b.combine, pw := b.pwords }

/-! ### Parts -/

/-- Is a part of a kind, from the same sender: chip, board or cluster by kind (R233, R236, R238)? -/
def Part.sameAs (x : Part) (k : PartKind) (c : BitVec 16) : Bool :=
  x.kind == k && (match k with
    | .treeA => boardOf x.chip == boardOf c
    | .treeB => boardOf x.chip == boardOf c
    | .l3 => clusterOf x.chip == clusterOf c
    | _ => x.chip == c)

/-- Does a context hold a part? -/
def LvlCtx.has (x : LvlCtx) (k : PartKind) (c : BitVec 16) : Bool := x.parts.any (fun p => p.sameAs k c)

/-- The data of a part. -/
def LvlCtx.part (x : LvlCtx) (k : PartKind) (c : BitVec 16) : Option (BitVec 2048) :=
  (x.parts.find? (fun p => p.sameAs k c)).map Part.data

/-- Add a part; a repeat changes nothing (R233). -/
def LvlCtx.add (x : LvlCtx) (k : PartKind) (c : BitVec 16) (d : BitVec 2048) : LvlCtx :=
  if x.has k c then x else { x with parts := x.parts ++ [{ kind := k, chip := c, data := d }] }

/-- Fold parts of a kind, in their order of arrival, into a first value. -/
def LvlCtx.fold (x : LvlCtx) (l : Lvl) (n : Nat) (k : PartKind) (first : BitVec 2048) : BitVec 2048 :=
  (x.parts.filter (fun p => p.kind == k)).foldl (fun a p => l.combine n a p.data) first

/-- Note that messages have been sent. -/
def LvlCtx.mark (x : LvlCtx) (m : Sent) : LvlCtx := { x with sent := x.sent ++ [m] }

/-- Arm a level deadline (R239). -/
def State.arm (s : State) (l : Lvl) (level : Nat) : State :=
  let us := (s.grp l.g).fall level
  if us = 0 then s
  else s.modLctx l.key (fun x => { x with deadlines := x.deadlines ++ [(level, s.now + 1000 * us)] })

/-! ### L1: the board (R235) -/

/-- The chips of the board that take part in a group's generations. -/
def State.l1Chips (s : State) (l : Lvl) : List (BitVec 16) := s.boardMem l.g s.board

/-- The index of a chip among those of its board. -/
def chipIndex (l : List (BitVec 16)) (c : BitVec 16) : Nat := ((idxsFrom (fun x => x == c) 0 l).head?).getD 0

/-- Send this chip's contribution at L1: to every chip of the board, or each word to its owner (R235). -/
def State.sendL1 (s : State) (l : Lvl) (x : BitVec 2048) : State :=
  let chips := s.l1Chips l
  let n := chips.length
  if l.allToAll then s.sendMsg l.g 0x10 1 l.relay l.gen l.size x chips
  else
    let s1 := each (fun c s =>
      let k := (l.owned n (chipIndex chips c)).length
      if k = 0 then s else s.sendMsg l.g 0x12 1 l.relay l.gen (8 * k) (l.share n (chipIndex chips c) x) [c]) chips s
    s1.modLctx l.key (fun y => y.add .rs s.me (l.share n (chipIndex chips s.me) x))

/-- The words of resigned chips' contributions that belong to this chip: they stand beside those of the participants
(R245). -/
def State.leftShares (s : State) (l : Lvl) (x : LvlCtx) (n j : Nat) : List (BitVec 2048) :=
  (x.parts.filter (fun p => p.kind == .l1 && !s.mem l.g p.chip)).map (fun p => l.share n j p.data)

/-- Is a contribution of a resigned chip announced and not yet here (R245)? -/
def State.expecting (s : State) (l : Lvl) (x : LvlCtx) : Bool :=
  (s.group l.g).expects.any (fun y => y.2.1 == l.relay && y.2.2 == l.gen && !x.has .l1 y.1)

/-- Reduce this chip's words once every chip's copies are in, and send them to every other chip (R235). -/
def State.reduceL1 (s : State) (l : Lvl) : State :=
  let chips := s.l1Chips l
  let n := chips.length
  let j := chipIndex chips s.me
  let k := (l.owned n j).length
  match s.lctx l.key with
  | none => s
  | some x =>
    if x.sent.contains .ag ∨ k = 0 ∨ !chips.all (fun c => x.has .rs c) ∨ s.expecting l x then s
    else
      let live := (x.parts.filter (fun p => p.kind == .rs && chips.contains p.chip)).map Part.data
      match live ++ s.leftShares l x n j with
      | [] => s
      | a :: t =>
        let r := t.foldl (l.combine k) a
        (s.modLctx l.key (fun y => (y.add .ag s.me r).mark .ag)).sendMsg l.g 0x19 1 l.relay l.gen (8 * k) r chips

/-- L1's result, when it is complete (R235). -/
def State.l1Result (s : State) (l : Lvl) (x : LvlCtx) : Option (BitVec 2048) :=
  let chips := s.l1Chips l
  let n := chips.length
  match x.own with
  | none => none
  | some own =>
    if s.expecting l x then none
    else if l.allToAll then
      if chips.all (fun c => c == s.me || x.has .l1 c) then some (x.fold l l.words .l1 own) else none
    else if chips.all (fun c => (l.owned n (chipIndex chips c)).isEmpty || x.has .ag c) then
      some (l.unshare n (fun j => ((chips[j]?).bind (x.part .ag)).getD 0))
    else none

/-- L1 completes: with TOP 1 its result is the release, and otherwise the board's contribution at L2 (R235). -/
def State.stepL1 (s0 : State) (l : Lvl) : State :=
  let s := if l.allToAll then s0 else s0.reduceL1 l
  match s.lctx l.key with
  | none => s
  | some x =>
    if x.l1.isSome then s
    else match s.l1Result l x with
      | none => s
      | some r =>
        let s1 := s.modLctx l.key (fun y => { y with l1 := some r })
        if l.top = 1 then s1.modLctx l.key (fun y => { y with rel := some r, whole := true })
        else if s1.isNode l.g then s1.arm l 2 else s1

/-! ### L2: the cluster (R236, R237) -/

/-- Does a takeover keep this chip from completing a generation that was in flight: answers are still to come, or a result that an
answer has told of (R241)? -/
def State.gated (s : State) (l : Lvl) : Bool :=
  let x := s.group l.g
  x.flying.contains (l.relay, l.gen) && (!x.awaits.isEmpty || x.told.contains (l.relay, l.gen))

/-- Tree A at a node chip: its partial goes up, or at the root becomes the result's half 0. -/
def State.stepA (s : State) (l : Lvl) (p : Place2) : State :=
  match s.lctx l.key with
  | none => s
  | some x => match x.l1 with
    | none => s
    | some own =>
      if x.sent.contains .upA ∨ x.rel.isSome ∨ !p.downA.all (fun c => x.has .treeA c) then s
      else
        let a := x.fold l l.half0 .treeA (lowWords own l.half0)
        match p.upA with
        | some c => (s.modLctx l.key (fun y => y.mark .upA)).sendMsg l.g 0x10 2 l.relay l.gen (8 * l.half0) a [c]
        | none =>
          if s.gated l then s
          else if l.top = 2 then s.modLctx l.key (fun y => { y with rel := some a, whole := y.whole || l.half1 == 0 })
          else
            let whole := if l.half1 = 0 then some a else x.half1.map (l.join a)
            match whole with
            | none => s
            | some r => if x.l2.isSome then s else
              let s1 := s.modLctx l.key (fun y => { y with l2 := some r })
              if s1.isArb l.g 3 then s1.arm l 3 else s1

/-- Tree B at a node chip: its half 1 goes up; at the root the complete half 1 goes down tree B, or with TOP 3 to root A. -/
def State.stepB (s : State) (l : Lvl) (p : Place2) : State :=
  match s.lctx l.key with
  | none => s
  | some x => match x.l1 with
    | none => s
    | some own =>
      if l.half1 = 0 ∨ x.sent.contains .upB ∨ !p.downB.all (fun c => x.has .treeB c) then s
      else
        let b := x.fold l l.half1 .treeB (l.upper own)
        let up (c : BitVec 16) (s : State) : State :=
          (s.modLctx l.key (fun y => y.mark .upB)).sendMsg l.g 0x11 2 l.relay l.gen (8 * l.half1) b [c]
        match p.upB with
        | some c => up c s
        | none =>
          if l.top = 2 ∨ p.rootA = some s.me then s.modLctx l.key (fun y => ({ y with half1 := some b } : LvlCtx).mark .upB)
          else match p.rootA with
            | some c => up c s
            | none => s

/-! ### L3: the federation (R238) -/

/-- The cluster's own contribution: L2's result, or the one that the root sent to its standby (R238, R241). -/
def State.ownL3 (s : State) (x : LvlCtx) : Option (BitVec 2048) := x.l2.orElse (fun _ => x.part PartKind.l3 s.me)

/-- A cluster's node chip, its L2 arbiter, sends its contribution to the root and the standby root; the root folds and
completes. -/
def State.stepL3 (s : State) (l : Lvl) : State :=
  match s.lctx l.key with
  | none => s
  | some x => match s.ownL3 x with
    | none => s
    | some own =>
      let dest := ((s.arb l.g 3).toList ++ (s.sby l.g 3).toList).eraseDups
      let s1 := if x.sent.contains .upL3 ∨ !s.isArb l.g 2 then s
        else (s.modLctx l.key (fun y => y.mark .upL3)).sendMsg l.g 0x10 3 l.relay l.gen l.size own dest
      if !s1.isArb l.g 3 ∨ x.rel.isSome ∨ s1.gated l ∨
          !(s1.l3Chips l.g).all (fun c => sameCluster c s1.me || x.has .l3 c) then s1
      else
        let far : LvlCtx := { x with parts := x.parts.filter (fun p => !(p.kind == PartKind.l3 && sameCluster p.chip s1.me)) }
        s1.modLctx l.key (fun y => { y with rel := some (far.fold l l.words .l3 own), whole := true })

/-! ### Release (R233, R234, R237, R238) -/

/-- The whole result, when a context holds it. -/
def LvlCtx.result (x : LvlCtx) (l : Lvl) : Option (BitVec 2048) :=
  match x.rel with
  | none => none
  | some a => if x.whole || l.half1 == 0 then some a else x.half1.map (l.join a)

/-- Send one message of a generation once. -/
def State.once (s : State) (l : Lvl) (m : Sent) (go : State → State) : State :=
  if (s.lctx l.key).any (fun x => x.sent.contains m) then s else go (s.modLctx l.key (fun y => y.mark m))

/-- Forward what this chip knows of the result: over L3, down the trees, and on the board (R237, R238). -/
def State.stepDown (s : State) (l : Lvl) (p : Place2) : State :=
  match s.lctx l.key with
  | none => s
  | some x =>
    if l.top < 2 ∨ !s.isNode l.g then s
    else
      let s1 := match x.rel with
        | none => s
        | some a =>
          if l.top = 2 then
            s.once l .downA (fun s => s.sendMsg l.g 0x18 2 l.relay l.gen (8 * l.half0) (lowWords a l.half0) p.downA)
          else
            let s2 := if s.isArb l.g 3 then
                s.once l .downL3 (fun s => s.sendMsg l.g 0x18 3 l.relay l.gen l.size a ((s.l3Chips l.g).filter (fun c => c != s.me)))
              else s
            s2.once l .downA (fun s => s.sendMsg l.g 0x18 3 l.relay l.gen l.size a p.downA)
      let h1 := if l.top ≠ 2 ∨ l.half1 = 0 then none else if x.whole then x.rel.map l.upper else x.half1
      let s3 := match h1 with
        | none => s1
        | some b => s1.once l .downB (fun s => s.sendMsg l.g 0x1A 2 l.relay l.gen (8 * l.half1) b p.downB)
      match x.result l with
      | none => s3
      | some r => s3.once l .board (fun s => s.sendMsg l.g 0x18 1 l.relay l.gen l.size r (s.boardMem l.g s.board))

/-- A takeover's generations that have ended leave it, and FAILOVER ends with the last of them (R242). -/
def State.endFailover (s : State) (g : Nat) : State :=
  let x := s.group g
  let left := x.flying.filter (fun y => (s.lctx (lvlKey y.1 y.2)).isSome)
  let s1 := s.modGroup g (fun x => { x with
    flying := left, told := x.told.filter (fun y => left.contains y), unready := x.unready.filter (fun y => left.contains y.2) })
  if x.state = .failover ∧ left.isEmpty ∧ x.awaits.isEmpty then
    ((s1.modGroup g (fun x => { x with state := if x.everUp then .up else .joining })).checkUp g).rekick
  else s1

/-- CHILD takes a result and releases, or waits for the barrier that lists its relay (R233, R234): PGEN advances. -/
def State.childRelease (s : State) (l : Lvl) (r : BitVec 2048) : State :=
  let w := wingOf l.child
  let s1 := match s.barrier l.child with
    | some b => if b.pwords = 0 then s else s.setAcc w b.accBase r
    | none => s
  match s1.listedIn l.relay with
  | some _ =>
    (s1.modRelay l.relay (fun y => { y with pgen := y.pgen + 1, inFlight := false, handing := true })).work (.relayArrive l.relay)
  | none => (s1.modRelay l.relay (fun y => { y with pgen := y.pgen + 1, inFlight := false })).leave l.child (fun b =>
      { b with parentWait := false })

/-- A unit of the levels comes to the seam for a wing, where it waits once (R32), and wakes the wing. -/
def State.toSeamOnce (s : State) (w : Wing) (x : Work) : State :=
  (if s.seam.any (fun u => u.into == w && u.item == x) then s else s.toSeam w x).wake w 3 0

/-- One unit after another on several objects, and then `f`. It waits for the wing or the record of any of them, and while its file
is contained (R118, R338). -/
def State.units (s : State) (l : List Nat) (again : Work) (f : State → State) : State :=
  match l with
  | [] => f s
  | o :: t =>
    if !s.active (wingOf o) then s.toSeamOnce (wingOf o) again
    else s.unit o again (fun s => s.units t again f)

/-- At the arbiter of a group of TOP 1 a result goes to those that answered "not released" after a takeover (R241 step 4). -/
def State.tellUnready (s : State) (l : Lvl) (r : BitVec 2048) : State :=
  let dest := ((s.group l.g).unready.filter (fun y => y.2 == (l.relay, l.gen))).map Prod.fst
  if l.top = 1 ∧ s.isArb l.g 1 then s.sendMsg l.g 0x18 1 l.relay l.gen l.size r dest else s

/-- A generation ends here: its context is given back, CHILD takes the result, and a takeover that waited for it may end (R233,
R242). -/
def State.endGen (s : State) (l : Lvl) (r : BitVec 2048) : State :=
  let s1 : State := { s with lctxs := tset none s.lctxs l.key none
                             gather := s.gather.filter (fun y => !(y.obj == l.relay && y.gen == l.gen)) }
  (((s1.tellUnready l r).childRelease l r).endFailover l.g).rekick

/-- The relay holds the group's result for PGEN (R233). The release goes from the relay to CHILD, through the seam when they are in
different wings (R16). -/
def State.groupRelease (s : State) (l : Lvl) : State :=
  match s.lctx l.key with
  | none => s
  | some x => match x.result l, x.own with
    | some r, some _ =>
      let v := wingOf l.relay
      let w := wingOf l.child
      if l.gen ≠ l.pgen ∨ !s.active v ∨ s.contained (bCMB v) then s
      else if !s.active w ∨ s.mustWait (some v) w then s.toSeamOnce w (.level l.key)
      else s.units [l.relay, l.child] (.level l.key) (fun s => (s.crossFrom (some v) w).endGen l r)
    | _, _ => s

/-- Run a generation through the levels as far as it goes (R233 to R238). -/
def State.runLevels (s : State) (key : Nat) : State :=
  match s.lctx key with
  | none => s
  | some x => match s.lvl x.relay x.gen with
    | none => s
    | some l =>
      if !s.active (wingOf x.relay) ∨ s.contained (bCMB (wingOf x.relay)) then s
      else
        let s1 := s.stepL1 l
        if l.top < 2 ∨ !s1.isNode l.g then s1.groupRelease l
        else
          let p := s1.place2 l.g
          let s2 := (s1.stepB l p).stepA l p
          let s3 := if 3 ≤ l.top then s2.stepL3 l else s2
          (s3.stepDown l p).groupRelease l

/-! ### CHILD completes (R232, R233, R246) -/

/-- A resigned chip's CHILD passes straight through: it releases with its local result and PGEN advances (R246). -/
def State.straight (s : State) (l : Lvl) : State :=
  match s.barrier l.child with
  | some b => s.childRelease l (s.acc (wingOf l.child) b.accBase)
  | none => s

/-- May a relay take the completion of its CHILD now: it carries no generation, and its group is UP or this chip has left it (R229, R233,
R246)? -/
def State.takesChild (s : State) (relay : Nat) : Bool :=
  (s.relayAt relay).any (fun r =>
    if (s.group r.group).state == .resigned then !r.handing else !r.inFlight && !r.handing && s.groupUp r.group)

/-- CHILD's completion reaches its relay (R233): the relay takes a context and sends the contribution; in a group that this chip has
left it passes straight through (R246). -/
def State.parentTake (s : State) (obj relay : Nat) : State :=
  match s.relay relay, s.barrier obj with
  | some r, some b => match s.lvl relay r.pgen with
    | none => s
    | some l =>
      let cross (s : State) : State := s.crossFrom (some (wingOf obj)) (wingOf relay)
      if (s.group r.group).state = .resigned then ((cross s).crossFrom (some (wingOf relay)) (wingOf obj)).straight l
      else match s.takeLctx relay r.group r.pgen with
        | none => s
        | some s0 =>
          let s1 := cross s0
          let own := if b.pwords = 0 then 0 else s1.acc (wingOf obj) b.accBase
          let s2 := (s1.modRelay relay (fun y => { y with inFlight := true })).modLctx l.key (fun x => { x with own := some own })
          (((s2.arm l 1).sendL1 l own).modLctx l.key (fun x => x.mark .contribution)).runLevels l.key
  | _, _ => s

/-- CHILD is in PARENT_WAIT: its completion goes to its relay, through the seam when that is in the other wing (R16, R32). -/
def State.parentGo (s : State) (obj : Nat) : State :=
  match s.barrierAt obj with
  | none => s
  | some b => match b.parent with
    | none => s
    | some relay =>
      let v := wingOf obj
      let w := wingOf relay
      if !b.parentWait ∨ !s.takesChild relay then s
      else if !s.active w ∨ s.mustWait (some v) w then s.toSeamOnce w (.parent obj)
      else if s.contained (bCMB w) then s
      else s.units [relay, obj] (.parent obj) (fun s => s.parentTake obj relay)

/-- The arrival of a relay in the barrier that lists it (R234), with the CHILD's release that follows once it is counted or
held. -/
def State.relayCount (s : State) (relay m : Nat) : State :=
  match s.relay relay, s.barrier m with
  | some r, some b =>
    match (if r.handing then entIdx b.members true relay else none), s.barrier r.child with
    | some i, some ch =>
      if b.binding || (b.members[i]?).all (fun e => e.res) then s
      else
        let same := b.pwords != 0 && b.pwords == ch.pwords && b.combine == ch.combine
        let e := (b.members[i]?).any (fun e => e.arr)
        let a := (b.members[i]?).any (fun e => e.adv)
        let cross (s : State) : State :=
          (s.crossFrom (some (wingOf relay)) (wingOf m)).crossFrom (some (wingOf m)) (wingOf r.child)
        let done (s : State) : State :=
          (s.modRelay relay (fun y => { y with handing := false })).leave r.child (fun c => { c with parentWait := false })
        if !e then
          let s0 := cross s
          let res := s0.acc (wingOf r.child) ch.accBase
          let s1 := s0.countArrival m i
          let s2 := if same then s1.sendRelayOperand m res else s1
          (done s2).work (.complete m)
        else if !a then done ((cross s).holdAdvance m i same)
        else s
    | _, _ => s
  | _, _ => s

/-- A relay whose group has released its CHILD arrives in the barrier that lists it (R234). Where the three are not in one wing it
waits while the seam is contained (Table 12.5). -/
def State.relayArrive (s : State) (relay : Nat) : State :=
  match s.listedIn relay with
  | none => s
  | some m =>
    let child := (s.relayAt relay).elim relay Relay.child
    let one := wingOf m == wingOf relay && wingOf m == wingOf child
    if !one && s.contained bSEAM then s.toSeamOnce (wingOf m) (.relayArrive relay)
    else s.units [m, child, relay] (.relayArrive relay) (fun s => s.relayCount relay m)

/-! ### Level deadlines (R239) -/

/-- The chips whose contributions are missing at a level. -/
def State.missingAt (s : State) (l : Lvl) (x : LvlCtx) (level : Nat) : List (BitVec 16) :=
  match level with
  | 1 =>
    let chips := (s.l1Chips l).filter (fun c => c != s.me)
    if x.l1.isSome then []
    else if l.allToAll then chips.filter (fun c => !x.has .l1 c)
    else
      let n := (s.l1Chips l).length
      let mine := !(l.owned n (chipIndex (s.l1Chips l) s.me)).isEmpty
      chips.filter (fun c => if mine then !x.has .rs c else !x.has .ag c && !(l.owned n (chipIndex (s.l1Chips l) c)).isEmpty)
  | 2 => (s.place2 l.g).downA.filter (fun c => !x.has .treeA c)
  | _ => (s.l3Chips l.g).filter (fun c => c != s.me && !x.has .l3 c)

/-- The slots of an ABORT_ON_FALL CHILD in PARENT_WAIT complete with FLAG_FALL (R239). -/
def State.fallHere (s : State) (l : Lvl) : State :=
  match s.barrier l.child with
  | some b => if b.parentWait && b.abortOnFall && l.gen == l.pgen then s.fallWaiters l.child b.gen else s
  | none => s

/-- Where a fall notice goes next from this chip: L3 to the clusters' node chips, then down tree A, then on the board. -/
def State.fallTo (s : State) (g level : Nat) : List (BitVec 16) :=
  let board := (s.boardMem g s.board).filter (fun c => c != s.me)
  if level = 1 ∨ !s.isNode g then (if s.isArb g level then board else [])
  else
    let down := (s.place2 g).downA
    let far := if level = 3 ∧ s.isArb g 3 then (s.l3Chips g).filter (fun c => c != s.me) else []
    far ++ down ++ board

/-- A level of a generation has fallen: its CHILD is told, through the seam when it is in the other wing (R16, R239). -/
def State.fallChild (s : State) (l : Lvl) : State :=
  s.workFor (some (wingOf l.relay)) (wingOf l.child) (.lvlFall l.relay l.gen)

/-- A fallen level's effect reaches the CHILD (R239). -/
def State.lvlFall (s : State) (relay : Nat) (gen : BitVec 32) : State :=
  match s.lvl relay gen with
  | none => s
  | some l => s.units [l.child] (.lvlFall relay gen) (fun s => s.fallHere l)

/-- Pass a fall notice on and take it here (R239). -/
def State.fallGo (s : State) (l : Lvl) (level : Nat) : State :=
  let dest := s.fallTo l.g level
  (s.sendAll (dest.map (fun c => s.lvlFrame l.g 0x08 level c l.relay l.gen 0 0 (bodyOf [])))).fallChild l

/-- The unit of a level deadline that has passed (R239): the missing are reported, and at the level's arbiter the level falls. -/
def State.levelLate (s0 : State) (relay : Nat) (gen : BitVec 32) (level : Nat) : State :=
  let key := lvlKey relay gen
  match s0.lctx key with
  | none => s0
  | some x0 =>
    let s := s0.modLctx key (fun x => { x with deadlines := x.deadlines.filter (fun d => d.1 != level) })
    match s.lvl relay gen with
    | none => s
    | some l =>
      let miss := s.missingAt l x0 level
      if miss.isEmpty ∨ x0.rel.isSome then s
      else
        let s1 := each (fun c s => s.report c level l.g 1) miss s
        let s2 := s1.raise (bCMB (wingOf relay)) 2
        if s2.isArb l.g level ∧ !x0.fell.contains level then
          (s2.modLctx key (fun x => { x with fell := x.fell ++ [level] })).fallGo l level
        else s2

/-- A level deadline passes (R239). A wing that is not ACTIVE is woken for it (R319). -/
def State.levelDeadline (s : State) (relay : Nat) (gen : BitVec 32) (level : Nat) : State :=
  match s.lctx (lvlKey relay gen) with
  | none => s
  | some x =>
    if !x.deadlines.any (fun d => d.1 == level && decide (d.2 ≤ s.now)) then s
    else if !s.active (wingOf relay) then s.wake (wingOf relay) 7 2
    else s.unit relay (.deadline relay gen level) (fun s => s.levelLate relay gen level)

end Sys2Proof.Machine
end

