-- ==== Sys2Proof/Machine/Takeover.lean ====
section
/-! DEFINITION. Takeover, answers and handover of arbiter roles (R240 to R243, R340), and the resignation of a chip (R244 to
R246). -/
namespace Sys2Proof.Machine

/-! ### Answers (R241) -/

/-- The open relays of a group with their numbers, resident or paged out. -/
def State.relaysOf (s : State) (g : Nat) : List (Nat × Relay) :=
  let get (o : Option Obj) : Option Relay := match o with
    | some { body := .relay r, .. } => if r.group = g then some r else none
    | _ => none
  s.recs.filterMap (fun x => (x.2.bind (fun r => get r.obj)).map (fun b => (x.1, b))) ++
    s.backing.filterMap (fun x => if (s.resident x.1).isSome then none
                                  else (x.2.bind (fun r => get r.obj)).map (fun b => (x.1, b)))

/-- A group's relays and their CHILDs, for work that reaches their records (R118). -/
def State.groupObjs (s : State) (g : Nat) : List Nat := (s.relaysOf g).flatMap (fun x => [x.1, x.2.child])

/-- The contexts of a group's relays. -/
def State.ctxsOf (s : State) (g : Nat) : List Lvl :=
  s.lctxs.filterMap (fun x => x.2.bind (fun c => (s.lvl c.relay c.gen).bind (fun l => if l.g = g then some l else none)))

/-- An ANSWER frame (Table 10.11). -/
def State.answerFrame (s : State) (g level : Nat) (dest : BitVec 16) (obj : Nat) (gen : BitVec 32) (released : Bool) : Frame :=
  s.lvlFrame g 0x05 level dest obj gen 0 0 (bodyOf [(0, if released then 1 else 0)])

/-- A TAKEOVER frame (Table 10.11). -/
def State.takeoverFrame (s : State) (g level : Nat) (arb : BitVec 16) (sby : Option (BitVec 16)) (dest : BitVec 16) : Frame :=
  s.lvlFrame g 0x04 level dest 0 0 0 0 (bodyOf ((4, if sby.isSome then 1 else 0) ::
    (bytesAt 0 2 arb.toNat ++ bytesAt 2 2 (sby.getD 0).toNat)))

/-- What a chip attaches to "not released": its contribution at L1, its tree A partial at L2 when it is complete, its
cluster's contribution at L3. -/
def State.reissue (s : State) (l : Lvl) (level : Nat) : Option (Nat × BitVec 2048) :=
  match s.lctx l.key with
  | none => none
  | some x =>
    match level with
    | 1 => x.own.map (fun a => (l.size, a))
    | 2 =>
      let p := s.place2 l.g
      if p.downA.all (fun c => x.has .treeA c) then
        x.l1.map (fun a => (8 * l.half0, x.fold l l.half0 .treeA (lowWords a l.half0)))
      else none
    | _ => x.l2.map (fun a => (l.size, a))

/-- Answer for every relay generation of a group (R241): "released" with CHILD's result for the last one, "not released" with
the contribution or partial for those in flight. The TAKEOVER that goes back after them ends a chip's answers (log 41). -/
def State.answersNow (s : State) (g level : Nat) (dest : BitVec 16) : State :=
  let s2 := each (fun x s =>
    match s.lvl x.1 (x.2.pgen - 1), s.barrier x.2.child with
    | some l, some b =>
      if x.2.pgen = 0 then s.sendAll [s.answerFrame g level dest x.1 0 false]
      else (s.sendAll [s.answerFrame g level dest x.1 l.gen true]).sendMsg g 0x18 level x.1 l.gen l.size (s.resultOf x.2.child b) [dest]
    | _, _ => s) (s.relaysOf g) s
  let s3 := each (fun l s =>
    match s.reissue l level with
    | none => s
    | some (n, a) => (s.sendAll [s.answerFrame g level dest l.relay l.gen false]).sendMsg g 0x10 level l.relay l.gen n a [dest])
    (s2.ctxsOf g) s2
  s3.sendAll [s3.takeoverFrame g level ((s3.arb g level).getD dest) (s3.sby g level) dest]

/-- The answers that a takeover is owed (R241), once the records that they need are resident (R118). -/
def State.sendAnswers (s : State) (g level : Nat) (dest : BitVec 16) : State :=
  s.units (s.groupObjs g) (.answers g level dest) (fun s => s.answersNow g level dest)

/-- Send the result of a released generation to a participant that has not released it (R241 step 4): to a tree A child its half
0, or with TOP 3 the whole, and half 1. -/
def State.releaseTo (s : State) (l : Lvl) (level : Nat) (r : BitVec 2048) (c : BitVec 16) : State :=
  if level ≠ 2 then s.sendMsg l.g 0x18 level l.relay l.gen l.size r [c]
  else if l.top = 3 then s.sendMsg l.g 0x18 3 l.relay l.gen l.size r [c]
  else
    let s1 := s.sendMsg l.g 0x18 2 l.relay l.gen (8 * l.half0) (lowWords r l.half0) [c]
    if l.half1 = 0 then s1 else s1.sendMsg l.g 0x1A 2 l.relay l.gen (8 * l.half1) (l.upper r) [c]

/-- Answers that are owed go out once those of the subtree are in; a silent or resigned chip is waited for no longer
(R241). -/
def State.checkAnswers (s : State) (g : Nat) : State :=
  let s1 := s.modGroup g (fun x => { x with awaits := x.awaits.filter (fun y => s.live g y.2) })
  let x := s1.group g
  let ready (y : Nat × BitVec 16) : Bool := !x.awaits.any (fun z => z.1 == y.1)
  let s2 := s1.modGroup g (fun x => { x with owes := x.owes.filter (fun y => !ready y) })
  let s3 := each (fun y s => s.work (.answers g y.1 y.2)) (x.owes.filter ready) s2
  if x.awaits.isEmpty then (s3.endFailover g).rekick else s3

/-! ### Takeover (R241, R243) -/

/-- A chip's answers are all here (R241). -/
def State.hasAnswered (s : State) (g level : Nat) (c : BitVec 16) : State :=
  (s.modGroup g (fun x => { x with awaits := x.awaits.filter (fun y => y != (level, c)) })).checkAnswers g

/-- The other chips of this board in a group. -/
def State.boardOthers (s : State) (g : Nat) : List (BitVec 16) := (s.boardMem g s.board).filter (fun c => c != s.me)

/-- The participants of a level to which a takeover of this chip goes: the board's chips, the tree A children, the clusters'
node chips (R241). The live ones among them answer. -/
def State.answerers (s : State) (g level : Nat) : List (BitVec 16) :=
  match level with
  | 1 => s.boardOthers g
  | 2 => (s.place2 g).downA
  | _ => (s.l3Chips g).filter (fun c => c != s.me)

/-- Where word of a level's arbiter goes from a node chip: down tree A and to its board. -/
def State.spread (s : State) (g : Nat) : List (BitVec 16) :=
  if s.isNode g then (s.place2 g).downA ++ s.boardOthers g else []

/-- Set one level's element of a list of three. -/
def setLevel {α : Type} (l : List α) (level : Nat) (x : α) : List α := updAt l (level - 1) (fun _ => x)

/-- A group goes to FAILOVER with the generations that are in flight here (R229, R242). -/
def State.failover (s : State) (g : Nat) : State :=
  let fly := (s.ctxsOf g).map (fun l => (l.relay, l.gen))
  s.modGroup g (fun x => { x with
    state := (match x.state with
      | .up => .failover
      | .joining => .failover
      | st => st)
    flying := (x.flying ++ fly).eraseDups })

/-- Send again, to group 0's arbiter, every request for a global lock that has no grant (R253). -/
def State.resendGlocks (s : State) : State :=
  each (fun r s => s.toGlockHome r.obj 0 r.lock (s.identity r.pos) r.prio r.try_.isSome) s.glockReqs s

/-- This chip takes over a level (R241 steps 1 and 2): the next term, the role, a standby, and the takeover frames. A board's
new node chip tells its neighbours in the trees (R243, log 40). -/
def State.takeOver (s : State) (g level : Nat) : State :=
  let s1 := (s.failover g).modGroup g (fun x => { x with
    terms := setLevel x.terms level ((x.terms.getD (level - 1) 0) + 1), arbs := setLevel x.arbs level (some s.me)
    sbys := setLevel x.sbys level none })
  let sby := s1.pickSby g level
  let s2 := s1.modGroup g (fun x => { x with sbys := setLevel x.sbys level sby })
  let who := s2.answerers g level
  let s3 := s2.modGroup g (fun x => { x with awaits := (x.awaits ++ (who.filter (s2.live g)).map (fun c => (level, c))).eraseDups })
  let p := s3.place2 g
  let near := if level = 1 ∧ s3.isNode g then p.upA.toList ++ p.upB.toList ++ p.downA ++ p.downB else []
  let far := if level = 2 ∧ 3 ≤ (s3.grp g).top then (s3.arb g 3).toList ++ (s3.sby g 3).toList else []
  let dest := ((who ++ (if level = 1 then near else s3.spread g) ++ far).filter (fun c => c != s.me)).eraseDups
  let s4 := s3.sendAll (dest.map (fun c => s3.takeoverFrame g level s.me sby c))
  let s5 := if level = 2 ∧ g = 0 then (s4.resendGlocks).glockRecopy none else s4
  (s5.checkAnswers g).rekick

/-- The levels of a group whose arbiter is lost pass to this chip when it is their standby (R241). -/
def State.succeed (s : State) (g : Nat) : State :=
  each (fun level s =>
    let e := s.grp g
    match (s.group g).arbs.getD (level - 1) none with
    | none => s
    | some a =>
      if level ≤ e.top ∧ e.has s.me ∧ a ≠ s.me ∧ !s.live g a ∧ s.sby g level = some s.me ∧ (s.group g).state ≠ .resigned then
        s.takeOver g level
      else s) [1, 2, 3] s

/-- What this chip sends again to the new node chip of another board, as its child in the trees, which answers as in R241, or as its
parent (R243). The last result goes to a child in tree A as half 0, or whole with TOP 3, and half 1 to a child in tree B. A chip that is
both the new node's parent in tree A and its child in tree B sends half 1 as well: its whole result would be taken for half 0. -/
def State.resendTo (s : State) (g : Nat) (c : BitVec 16) : State :=
  let p := s.place2 g
  let child := p.upA == some c || p.upB == some c
  let drop (m : Sent) : Bool := m == .upA || m == .upB || m == .downA || m == .downB
  let s1 := each (fun l s =>
    let s1 := s.modLctx l.key (fun x => { x with sent := x.sent.filter (fun m => !drop m) })
    if child then s1.sendAll [s1.answerFrame g 2 c l.relay l.gen false] else s1) (s.ctxsOf g) s
  let s2 := each (fun x s =>
    match s.lvl x.1 (x.2.pgen - 1), s.barrier x.2.child with
    | some l, some b =>
      let r := s.resultOf x.2.child b
      if x.2.pgen = 0 then s
      else
        let t1 := if p.downA.contains c then
            (if l.top = 2 then s.sendMsg g 0x18 2 x.1 l.gen (8 * l.half0) (lowWords r l.half0) [c]
             else s.sendMsg g 0x18 3 x.1 l.gen l.size r [c])
          else s
        let t2 := if (p.downB.contains c || p.downA.contains c && child) && l.top == 2 && l.half1 != 0 then
            t1.sendMsg g 0x1A 2 x.1 l.gen (8 * l.half1) (l.upper r) [c] else t1
        if child then (t2.sendAll [t2.answerFrame g 2 c x.1 l.gen true]).sendMsg g 0x18 2 x.1 l.gen l.size r [c] else t2
    | _, _ => s) (s.relaysOf g) s1
  s2.rekick

/-- What a board's new node chip is sent again (R243), once the records that it needs are resident (R118). -/
def State.nodeResend (s : State) (g : Nat) (c : BitVec 16) : State :=
  s.units (s.groupObjs g) (.resend g c) (fun s => s.resendTo g c)

/-- Term `t` is newer than `u` (R240). -/
def newer (t u : BitVec 8) : Bool := decide (1 ≤ (t - u).toNat ∧ (t - u).toNat ≤ 127)

/-- A frame carries an older term than this chip's for its level (R240). -/
def State.stale (s : State) (g level : Nat) (t : BitVec 8) : Bool :=
  level != 0 && newer ((s.group g).terms.getD (level - 1) 0) t

/-- A chip takes up a level's arbiter and term (R241 step 3): it goes to FAILOVER and owes its answers, a node chip after those of
its subtree. `word` is the TAKEOVER that it passes on. -/
def State.adopt (s : State) (g level : Nat) (term : BitVec 8) (a : BitVec 16) (sby : Option (BitVec 16)) (word : Option Frame) :
    State :=
  let s2 := (s.failover g).modGroup g (fun x => { x with
    terms := setLevel x.terms level term, arbs := setLevel x.arbs level (some a), sbys := setLevel x.sbys level sby })
  let s3 := match word with
    | some f =>
      let pass := if level = 1 then [] else (s2.spread g).filter (fun c => c != a && c != f.src)
      s2.sendAll (pass.map (fun c => { f with dst := c }))
    | none => s2
  let s4 := match level with
    | 1 => s3.modGroup g (fun x => { x with owes := x.owes ++ [(1, a)] })
    | 2 =>
      if s3.isNode g then
        let p := s3.place2 g
        s3.modGroup g (fun x => { x with
          awaits := (x.awaits ++ (p.downA.filter (s3.live g)).map (fun c => (2, c))).eraseDups
          owes := x.owes ++ [(2, p.upA.getD a)] })
      else s3
    | _ => if s3.isArb g 2 then s3.modGroup g (fun x => { x with owes := x.owes ++ [(3, a)] }) else s3
  let s5 := if level = 2 ∧ g = 0 then s4.resendGlocks else s4
  s5.checkAnswers g

/-- A frame of a newer term shows that the arbiter which this chip knows has been succeeded by its standby (R242): a chip that was
silent, the old arbiter itself among them, takes the role that it then has. -/
def State.noteTerm (s : State) (g level : Nat) (t : BitVec 8) : State :=
  if level = 0 ∨ !newer t ((s.group g).terms.getD (level - 1) 0) then s
  else match s.sby g level with
    | some a => if a = s.me then s else s.adopt g level t a none none
    | none => s

/-- A TAKEOVER is received (R241 to R243, R340). -/
def State.takeoverWord (s : State) (f : Frame) : State :=
  let g := f.group.toNat
  let level := f.level.toNat
  let a : BitVec 16 := BitVec.ofNat 16 (f.num 0 2)
  let cur := (s.group g).terms.getD (level - 1) 0
  let top := (s.grp g).top
  let role := (s.group g).arbs.getD (level - 1) none
  if level = 0 ∨ top < level ∨ !s.joined.contains g then s
  else if level = 1 ∧ !sameBoard a s.me then
    ((s.watch a).modGroup g (fun x => { x with heads := tset none x.heads (boardOf a) (some a) })).work (.resend g a)
  else if level = 2 ∧ !sameCluster a s.me then
    ((s.watch a).modGroup g (fun x => { x with heads := tset none x.heads (65536 + clusterOf a) (some a) })).rekick
  else if a = s.me then
    -- a role handed over (R340)
    if f.term = cur ∧ role = some f.src ∧ f.src ≠ s.me then s.takeOver g level else s
  else
    let contest := f.term == cur && role != some a && role.any (fun b => decide (a.toNat < b.toNat))
    if !newer f.term cur ∧ !contest then s
    else
      let lost := contest && role == some s.me
      let sby : Option (BitVec 16) := if f.num 4 1 % 2 = 1 then some (BitVec.ofNat 16 (f.num 2 2)) else none
      let s1 := if lost then s.raise (bCMB .k) 3 else s
      s1.adopt g level f.term a sby (some f)

/-- A TAKEOVER is received. One that a chip sends back has the arbiter's own term, and ends that chip's answers (log 41). -/
def State.takeoverIn (s : State) (f : Frame) : State :=
  let g := f.group.toNat
  let s1 := s.takeoverWord f
  let x := s1.group g
  if x.awaits.contains (f.level.toNat, f.src) ∧ f.term = x.terms.getD (f.level.toNat - 1) 0 then s1.hasAnswered g f.level.toNat f.src else s1

/-- The roles of this chip pass to their standbys (R340). -/
def State.handover (s : State) : State :=
  each (fun g s => each (fun level s =>
    if s.isArb g level then
      match s.sby g level with
      | some b => s.sendAll [s.takeoverFrame g level b none b]
      | none => s
    else s) [1, 2, 3] s) s.joined s

/-! ### Resignation (R244 to R246) -/

/-- A RESIGN frame (Table 10.11). LEVEL 0 is the request, LEVEL 1 the arbiter's question and the frame that ends an answer to it, and
LEVEL 2 the resignation (log 41). -/
def State.resignFrame (s : State) (g level : Nat) (x dest : BitVec 16) : Frame :=
  s.lvlFrame g 0x07 level dest 0 0 0 0 (bodyOf (bytesAt 0 2 x.toNat))

/-- The chip that leads the resignation of a chip: the L1 arbiter of its board, or the standby when it is that arbiter (R245). A
board without another live chip has none to ask: the arbiter of this chip's board leads (log 41). -/
def State.resignLeader (s : State) (g : Nat) (x : BitVec 16) : BitVec 16 :=
  let other := (s.boardLive g (boardOf x)).find? (fun c => c != x)
  let lead := match s.arb1 g (boardOf x) with
    | some a => if a = x then other else some a
    | none => other
  (lead.orElse (fun _ => s.arb1 g s.board)).getD s.me

/-- RESIGN on a relay (R244). -/
def resignRelay (c : Ctx) (r : Relay) (s : State) : Res × State :=
  let obj := c.obj
  let e := entryOf c.w.ent0
  let x : BitVec 16 := BitVec.ofNat 16 e.who
  let ok := (match (s.group r.group).state with
    | .up => true
    | .failover => true
    | _ => false)
  if !e.relay ∨ 65536 ≤ e.who ∨ !s.mem r.group x ∨ x = s.me ∨ !ok then (s.rs obj, s)
  else (okv 0, s.sendAll [s.resignFrame r.group 0 x (s.resignLeader r.group x)])

/-- Does a context hold a contribution of a chip? -/
def LvlCtx.holds (y : LvlCtx) (x : BitVec 16) : Bool := y.has .l1 x || y.has .rs x

/-- The contribution of a chip that a context holds, in full form: words that it does not hold are those of the empty result
(log 41). -/
def State.heldOf (s : State) (l : Lvl) (y : LvlCtx) (x : BitVec 16) : Option (BitVec 2048) :=
  match y.part .l1 x, y.part .rs x with
  | some d, _ => some d
  | none, some d =>
    let chips := s.l1Chips l
    let n := chips.length
    let j := chipIndex chips s.me
    some (l.unshare n (fun i => if i = j then d else l.share n i (emptyResult l.code l.pw)))
  | none, none => none

/-- The contributions of a chip that this chip holds for a group, by generation. -/
def State.heldAll (s : State) (g : Nat) (x : BitVec 16) : List (Lvl × BitVec 2048) :=
  (s.ctxsOf g).filterMap (fun l => (s.lctx l.key).bind (fun y => (s.heldOf l y x).map (fun d => (l, d))))

/-- Send a resigned chip's contribution in its name (Table 10.11). -/
def State.sendHeld (s : State) (l : Lvl) (x : BitVec 16) (d : BitVec 2048) (dest : List (BitVec 16)) : State :=
  let k := fragments l.size
  each (fun c s => s.sendAll ((List.range k).map (fun i =>
    { s.lvlFrame l.g 0x10 1 c l.relay l.gen i (k - 1) (fragBody d l.size i) with src := x }))) dest s

/-- This chip leaves a group (R246): its generations in flight end, and each CHILD passes straight through with its local result. -/
def State.leaveGroup (s : State) (g : Nat) : State :=
  let gone := (s.ctxsOf g).map (fun l => l.key)
  let s1 := s.modGroup g (fun y => { y with state := .resigned })
  { s1 with lctxs := s1.lctxs.filter (fun x => !gone.contains x.1) }

/-- A CHILD takes the RESIGNED note for its next release (R233). -/
def State.noteOn (s : State) (obj : Nat) : State :=
  s.units [obj] (.noteOn obj) (fun s => s.modBarrier obj (fun b => { b with note := true }))

/-- Every CHILD of a group's relays takes the RESIGNED note. -/
def State.noteResigned (s : State) (g : Nat) : State := each (fun x s => s.work (.noteOn x.2.child)) (s.relaysOf g) s

/-- A generation at L1 by reduce-scatter starts again over the chips that are left (R245). -/
def State.restartL1 (s : State) (l : Lvl) : State :=
  match s.lctx l.key with
  | none => s
  | some x =>
    if l.allToAll ∨ x.l1.isSome then s
    else match x.own with
      | none => s.modLctx l.key (fun x => { x with parts := x.parts.filter (fun p => p.kind != .rs && p.kind != .ag) })
      | some a => (s.modLctx l.key (fun x => { x with
          parts := x.parts.filter (fun p => p.kind != .rs && p.kind != .ag), sent := x.sent.filter (fun m => m != .ag) })).sendL1 l a

/-- The trees are rebuilt: each node discards what it has folded, but no part of the result that came down, and sends its own
contribution over them again (R245). `root` says that this chip was tree B's root, or the cluster's at L3. -/
def State.restartL2 (s : State) (l : Lvl) (root : Bool) : State :=
  s.modLctx l.key (fun x => if x.rel.isSome then x else { x with
    l2 := none, half1 := if root || l.top == 3 then none else x.half1
    parts := x.parts.filter (fun p => p.kind != .treeA && p.kind != .treeB)
    sent := x.sent.filter (fun m => m != .upA && m != .upB && m != .downA && m != .downB) })

/-- A cluster has left L3 (R245): the root drops its contribution, and each node sends its own again. Those of the other clusters are the
same when they come again, and the root keeps them. -/
def State.restartL3 (s : State) (l : Lvl) (cl : Nat) : State :=
  s.modLctx l.key (fun x => if x.rel.isSome then x else { x with
    parts := x.parts.filter (fun p => !(p.kind == .l3 && clusterOf p.chip == cl)), sent := x.sent.filter (fun m => m != .upL3) })

/-- A chip is resigned from a group here (R245, R246). The word goes on from a node chip to its neighbours in tree A, to the
other clusters' node chips, and to its board. The global locks of the chip's agents are lost with its place in group 0, whose L2 arbiter
serves them (R173, R176; DEDUCED, log 94). -/
def State.resigned (s : State) (g : Nat) (x : BitVec 16) (from_ : BitVec 16) : State :=
  if (s.group g).resigned.contains x then s
  else
    let left := ((s.boardLive g (boardOf x)).filter (fun c => c != x)).length
    let p := s.place2 g
    let node := s.isNode g
    let next := (s.modGroup g (fun y => { y with resigned := y.resigned ++ [x] })).place2 g
    let far := if node then p.upA.toList ++ p.downA ++ next.upA.toList ++ next.downA ++
        (if s.isArb g 2 ∧ 3 ≤ (s.grp g).top then s.l3Chips g else []) else []
    let board := if node || s.isArb g 1 then s.boardOthers g else []
    let dest := ((far ++ board).filter (fun c => c != s.me && c != x && c != from_)).eraseDups
    let s1 := ((s.modGroup g (fun y => { y with
      resigned := y.resigned ++ [x], asked := y.asked.filter (fun c => c != x)
      leaving := y.leaving.filter (fun c => c.1 != x) })).freeSuspect x g).noteResigned g
    let s2 := if g = 0 then s1.glockLose x else s1
    let s3 := (s2.sendAll (dest.map (fun c => s2.resignFrame g 2 x c))).glockRecopy (s.sby 0 2)
    if x = s.me then (s3.leaveGroup g).rekick
    else
      let s4 := if sameBoard x s.me then each (fun l s => s.restartL1 l) (s3.ctxsOf g) s3 else s3
      let s5 := if left = 0 then each (fun l s => s.restartL2 l (node && p.upB.isNone)) (s4.ctxsOf g) s4 else s4
      let s6 := if (s.nodeClusters g).contains (clusterOf x) && !(s5.nodeClusters g).contains (clusterOf x) then
          each (fun l s => s.restartL3 l (clusterOf x)) (s5.ctxsOf g) s5 else s5
      ((s6.checkUp g).checkAnswers g).succeed g |>.rekick

/-- The arbiter of the board has every answer about a chip (R245 step 3): its contributions and its resignation go to every
participant of the board, and to X itself. -/
def State.resignDone (s : State) (g : Nat) (x : BitVec 16) : State :=
  match (s.group g).leaving.find? (fun y => y.1 == x) with
  | some (_, [], []) =>
    let dest := s.boardOthers g
    let held := s.heldAll g x
    let keep := each (fun (h : Lvl × BitVec 2048) s => s.modLctx h.1.key (fun y => y.add .l1 x h.2)) held s
    let s1 := each (fun (h : Lvl × BitVec 2048) s =>
      let others := dest.filter (fun c => c != x)
      (s.sendAll (others.map (fun c => s.answerFrame g 0 c h.1.relay h.1.gen false))).sendHeld h.1 x h.2 others) held keep
    (s1.sendAll [s1.resignFrame g 2 x x]).resigned g x x
  | _ => s

/-- The arbiter of X's board begins X's resignation (R245 steps 1 and 2). -/
def State.resignAsk (s0 : State) (g : Nat) (x : BitVec 16) : State :=
  if !s0.mem g x ∨ (s0.group g).leaving.any (fun y => y.1 == x) then s0
  else
    let s := if s0.arb g 1 = some x then
        each (fun level s => if s.arb g level == some x && s.sby g level == some s.me then s.takeOver g level else s) [1, 2, 3] s0
      else s0
    let dest := ((s.boardOthers g).filter (fun c => c != x)).filter (s.live g)
    let s1 := s.modGroup g (fun y => { y with leaving := y.leaving ++ [(x, dest, [])] })
    (s1.sendAll (dest.map (fun c => s1.resignFrame g 1 x c))).resignDone g x

/-- A participant answers the arbiter's question about a chip (R245 step 2): ANSWER and contribution for each generation that
it holds, and RESIGN again, which ends its answer (log 41). -/
def State.resignAnswer (s : State) (g : Nat) (x dest : BitVec 16) : State :=
  let s1 := s.modGroup g (fun y => { y with asked := (y.asked ++ [x]).eraseDups })
  let s2 := each (fun (h : Lvl × BitVec 2048) s =>
    (s.sendAll [s.answerFrame g 0 dest h.1.relay h.1.gen false]).sendHeld h.1 x h.2 [dest]) (s1.heldAll g x) s1
  s2.sendAll [s2.resignFrame g 1 x dest]

/-- Change the resignation of a chip that this arbiter leads. -/
def State.modLeaving (s : State) (g : Nat) (x : BitVec 16)
    (f : List (BitVec 16) → List (Nat × BitVec 32) → List (BitVec 16) × List (Nat × BitVec 32)) : State :=
  s.modGroup g (fun y => { y with leaving := y.leaving.map (fun z => if z.1 = x then (x, f z.2.1 z.2.2) else z) })

/-- A RESIGN frame is received (R245). -/
def State.resignIn (s : State) (f : Frame) : State :=
  let g := f.group.toNat
  let x : BitVec 16 := BitVec.ofNat 16 (f.num 0 2)
  let y := s.group g
  if !s.joined.contains g then s
  else match f.level.toNat with
    | 0 => s.resignAsk g x
    | 1 =>
      if y.leaving.any (fun z => z.1 == x && z.2.1.contains f.src) then
        (s.modLeaving g x (fun waits due => (waits.filter (fun c => c != f.src), due))).resignDone g x
      else if s.arb g 1 = some f.src then s.resignAnswer g x f.src else s
    | _ =>
      let near := sameBoard x s.me && sameBoard f.src s.me
      (if near then s.modGroup g (fun y => { y with expects := y.expects ++ y.coming.map (fun z => (x, z)), coming := [] }) else s).resigned
        g x f.src

/-- An ANSWER about a resignation is received (R245 steps 2 and 3): at the board's arbiter it says that a participant sends a
contribution, and at a participant that the arbiter does. -/
def State.resignAnswerIn (s : State) (g : Nat) (f : Frame) : State :=
  let gen := (f.obj.toNat, f.gen)
  match (s.group g).leaving.find? (fun y => y.2.1.contains f.src) with
  | some (x, _) => s.modLeaving g x (fun waits due => (waits, due ++ [gen]))
  | none => if s.arb g 1 = some f.src then s.modGroup g (fun y => { y with coming := (y.coming ++ [gen]).eraseDups }) else s

/-- One answer for one generation (R241 step 4): "released" keeps this chip from completing it before the result comes. "Not
released" for one that this chip has released is met with its result, and for one in flight here it is kept, so that the chip gets the
result that ends it. -/
def State.answerOne (s : State) (g level : Nat) (f : Frame) : State :=
  let o := f.obj.toNat
  match s.relayAt o with
  | none => s
  | some r =>
    if f.num 0 1 = 1 then
      if (f.gen - r.pgen).toNat ≤ 1 then s.modGroup g (fun x => { x with told := (x.told ++ [(o, f.gen)]).eraseDups }) else s
    else if f.gen + 1 ≠ r.pgen then
      if (s.group g).flying.contains (o, f.gen) then
        s.modGroup g (fun x => { x with unready := (x.unready ++ [(f.src, o, f.gen)]).eraseDups })
      else s
    else
      s.units [r.child] (.frame f) (fun s => match s.lvl o f.gen, s.barrier r.child with
        | some l, some b => s.releaseTo l level (s.resultOf r.child b) f.src
        | _, _ => s)

/-- An ANSWER is received (R241 step 4, R243, R245). -/
def State.answerIn (s : State) (f : Frame) : State :=
  let g := f.group.toNat
  let level := f.level.toNat
  if level = 0 then s.resignAnswerIn g f
  else if s.stale g level f.term then s
  else (s.noteTerm g level f.term).answerOne g level f

/-- Answers about a resignation are waited for no longer from a silent chip. -/
def State.leaveSilent (s : State) (g : Nat) : State :=
  let s1 := s.modGroup g (fun y => { y with leaving := y.leaving.map (fun z => (z.1, z.2.1.filter (s.live g), z.2.2)) })
  each (fun z s => s.resignDone g z.1) (s1.group g).leaving s1

/-- A chip is found silent (R240): it is reported, answers of it are waited for no longer, and its roles may pass on. -/
def State.chipSilent (s : State) (c : BitVec 16) : State :=
  if !s.quietTooLong c then s
  else
    let s1 := (s.modChip c (fun x => { x with silent := true })).reportAll c 2
    (each (fun g s => if (s.grp g).has c then ((s.checkAnswers g).succeed g).leaveSilent g else s) s1.joined s1).glockRecopy
      (s.sby 0 2)

end Sys2Proof.Machine
end

