-- ==== Sys2Proof/Machine/Timesync.lean ====
section
/-! DEFINITION. The exchanges of the timebase (R247, R248, R284, R333), and the probes of R391. -/
namespace Sys2Proof.Machine

/-! ### Exchanges (R247) -/

/-- Does a link to a chip carry quiet TIME marks, or none, in place of exchanges (R284)? -/
def State.markLink (s : State) (c : BitVec 16) : Bool :=
  sameBoard c s.me && (match (s.port (seatOf c)).state with
    | .quiet => true
    | .cold => true
    | _ => false)

/-- A new master is taken up: its first exchange is still to come (R248). -/
def State.takeMaster (s : State) (c : BitVec 16) : State :=
  if s.tsync.master = some c then s
  else { s with tsync := { s.tsync with master := some c, first := none, t1 := none, doneAt := s.now } }

/-- The follower's period has passed: it sends a request to its master (R247). An exchange over the tunnel wakes kingside for it
(R319); one over Shaut wakes no wing. -/
def State.timeDue (s : State) : State :=
  match s.timeMaster with
  | none => s
  | some (c, period) =>
    if s.now < s.tsync.last + period then s
    else if !sameBoard c s.me ∧ !s.active .k then s.wake .k 7 6
    else
      let s1 := s.takeMaster c
      let s2 : State := { s1 with tsync := { s1.tsync with last := s.now } }
      if s2.markLink c ∨ sameBoard c s.me ∧ !s2.fastOk (seatOf c) then s2
      else ({ s2 with tsync := { s2.tsync with t1 := some s.now } } : State).sendAll [s2.timeFrame c s.now 0 0]

/-! ### Offsets (R248) -/

/-- Is the offset beyond ±1 µs 2 ms after the first exchange with the master, or is no exchange completing for 1 ms
(Table 12.3)? -/
def State.timebaseOff (s : State) : Bool :=
  let y := s.tsync
  s.timeMaster.isSome && ((y.first.any (fun t => decide (t + 2000000 ≤ s.now)) && decide (1000 < y.offset.natAbs)) ||
    (y.master.isSome && decide (y.doneAt + 1000000 ≤ s.now)))

/-- TIMEBASE follows its condition (R330). -/
def State.timebaseNow (s : State) : State := if s.timebaseOff then s.condOn bTCU 5 else s.condOff bTCU 5

/-- What a bucket holds after `n` ticks (R114). -/
def State.bucketTick (s : State) (n key spent : Nat) : Nat :=
  let e := s.domain (key % 1024)
  spent - n * (if key / 1024 = 1 then e.rateK else e.rateQ)

/-- The buckets gain what `n` µs ticks of the timebase give (R114). -/
def State.gain (s : State) (n : Nat) : State :=
  { s with spent := each (fun x t => tset 0 t x.1 (s.bucketTick n x.1 x.2)) s.spent s.spent }

/-- Take one offset (R248): the first after join steps the timebase forward, over its µs ticks (R114), never back; later ones change its rate.
While the TCU is contained the timebase runs free (Table 12.5). -/
def State.correct (s : State) (offset : Int) (delay : Option Nat) : State :=
  if s.contained bTCU then s
  else
    let y := s.tsync
    let step := !y.stepped
    let now' := if step && decide (0 < offset) then s.now + offset.natAbs else s.now
    let y1 : Tsync := { y with
      state := if offset.natAbs ≤ 20 then 2 else 1, offset := offset, delay := delay.getD y.delay, stepped := true
      slew := if step then 0 else offset, first := some (y.first.getD now'), doneAt := now' }
    (({ s with now := now', tsync := y1 } : State).gain (now' / 1000 - s.now / 1000)).timebaseNow

/-- The first probe of a peer completes: the groups that wait for it may be UP (R391). -/
def State.probeDone (s : State) (i delay : Nat) : State :=
  let s1 := s.modCtx i (fun c => { c with probeT1 := none, probes := (delay :: c.probes).take 16 })
  each (fun g s => s.checkUp g) s1.joined s1

/-- A TIME frame is received (R247, R391): a request is answered at once; an answer corrects the timebase, or ends a probe. Half of an
odd sum is taken towards minus infinity (DESIGN CHOICE, log 89). -/
def State.timeIn (s : State) (f : Frame) : State :=
  let t1 := f.num 0 8
  let t2 := f.num 8 8
  let t3 := f.num 16 8
  if t2 = 0 ∧ t3 = 0 then s.sendAll [s.timeFrame f.src t1 s.now s.now]
  else
    let delay := ((s.now - t1) - (t3 - t2)) / 2
    let offset : Int := (((t2 : Int) - t1) + ((t3 : Int) - s.now)) / 2
    let probe := (s.ctxOf f.src).bind (fun i => if (s.ctx i).probeT1 = some t1 then some i else none)
    if s.tsync.master = some f.src ∧ s.tsync.t1 = some t1 ∧ s.timeMaster.any (fun m => m.1 == f.src) then
      ({ s with tsync := { s.tsync with t1 := none } } : State).correct offset (some delay)
    else match probe with
      | some i => s.probeDone i delay
      | none => s

/-- No exchange with the master completes for 1 ms (R333). -/
def State.exchangeTimeout (s : State) : State := s.timebaseNow

/-! ### Quiet marks (R284) -/

/-- The time master sends a mark on its QUIET links at each multiple of 16 µs of its timebase (R284). -/
def State.quietMarks (s : State) : State :=
  if s.now % 16000 ≠ 0 ∨ !s.isArb 0 1 ∨ !s.joined.contains 0 then s
  else each (fun k s =>
    if s.portOn k && (s.port k).state == .quiet && s.mem 0 (s.boardChip k) then s.sendQuiet k 4 else s) (List.range 16) s

/-- A mark is received (R284): its nominal time is the multiple of 16 µs nearest to the stamp. -/
def State.quietTime (s : State) (k seat : Nat) : State :=
  if !(s.port k).hears then s
  else
    let s1 := (s.leaveCold k).quietHeard k seat
    match s1.timeMaster with
    | some (c, _) =>
      if c = s1.boardChip seat ∧ seat = k then
        let nominal := (s1.now + 8000) / 16000 * 16000
        (s1.takeMaster c).correct ((nominal : Int) + s1.tsync.delay - s1.now) none
      else s1
    | none => s1

/-- A quiet ALIVE frame is received (R240, R280, R285): its sender is live, and in DETECT it counts, or shows a wrong seat. -/
def State.quietAlive (s : State) (k seat : Nat) : State :=
  let p := s.port k
  if !p.hears then s
  else
    let s1 := (s.leaveCold k).quietHeard k seat
    if p.state = .training ∧ p.phase = 0 then
      if seat = k then s1.modPort k (fun p => { p with aliveIn := p.aliveIn + 1 }) else s1.linkDown k 1
    else s1

/-! ### Probes (R391) -/

/-- A probe of a tunnel neighbour falls due (R391). -/
def State.probe (s : State) (i : Nat) : State :=
  let c := s.ctx i
  let near := s.joined.any (fun g => s.isNode g && (s.farNeighbours g).contains c.peer)
  if c.state ≠ .open ∨ s.now < c.probeAt + 1024000 ∨ !near ∨ !s.tunRuns then s
  else s.sendProbe i

end Sys2Proof.Machine
end

