-- ==== Sys2Proof/Machine/Frames.lean ====
section
/-! DEFINITION. Sync frames received: gathering, level frames, lane 3, and the dispatch by FTYPE (R233, R290, R293, R295 to
R300, R366). -/
namespace Sys2Proof.Machine

/-! ### Gathering (R300) -/

/-- A level frame is discarded and counted (R233, R299, R300). -/
def State.genErr (s : State) (w : Wing) : State :=
  (s.modWing w (fun x => { x with genErr := sat 0x3FF x.genErr })).raise (bCMB w) 0

/-- Does a gathering message take a frame? Frames of different levels do not mix (log 42). -/
def Gather.takes (x : Gather) (f : Frame) : Bool :=
  x.ftype == f.ftype && x.src == f.src && x.obj == f.obj.toNat && x.gen == f.gen && x.term == f.term &&
    x.level == f.level.toNat

/-- The payload of a whole message. -/
def Gather.payload (x : Gather) : BitVec 2048 :=
  BitVec.ofNat 2048 (leNat ((List.range (x.fcount + 1)).foldl (fun l i => l ++ ((tget none x.frags i).getD []).take 48) []))

/-- What comes of a fragment: it is discarded with its message, it is kept, or the message is whole (R300). -/
inductive Gathered where
  | bad
  | kept
  | whole (d : BitVec 2048)
  deriving DecidableEq, Repr

/-- Gather one fragment (R300). -/
def State.gatherIn (s : State) (f : Frame) : Gathered × State :=
  let old := s.gather.find? (fun x => x.takes f)
  let rest := s.gather.filter (fun x => !x.takes f)
  let n := f.fcount.toNat
  if n < f.frag.toNat ∨ old.any (fun x => x.fcount != n) then
    (.bad, ({ s with gather := rest } : State).genErr (wingOf f.obj.toNat))
  else
    let x : Gather := old.getD { ftype := f.ftype, level := f.level.toNat, src := f.src, obj := f.obj.toNat, gen := f.gen,
                                 term := f.term, fcount := n, frags := [] }
    let i := f.frag.toNat
    let y : Gather := if (tget none x.frags i).isSome then x else { x with frags := tset none x.frags i (some f.body) }
    if (List.range (n + 1)).all (fun j => (tget none y.frags j).isSome) then (.whole y.payload, { s with gather := rest })
    else (.kept, { s with gather := rest ++ [y] })

/-! ### Level frames (R233) -/

/-- A RELEASE message is taken (R237, R238, R241): from the tree A parent at L2 it is half 0 of the result, and otherwise the
whole. At an arbiter two answers "released" with different results raise ARBITER. -/
def State.releaseIn (s : State) (l : Lvl) (f : Frame) (d : BitVec 2048) : State :=
  let part := l.top == 2 && f.level == 2 && (s.place2 l.g).upA == some f.src
  match s.lctx l.key with
  | none => s
  | some x =>
    if part then
      if x.rel.isSome then s else s.modLctx l.key (fun y => { y with rel := some d })
    else
      let differs := x.whole && x.rel.any (fun a => a != d) && (s.group l.g).flying.contains (l.relay, l.gen)
      let s1 := s.modLctx l.key (fun y => if y.whole then y else { y with rel := some d, whole := true })
      if differs then s1.raise (bCMB (wingOf l.relay)) 3 else s1

/-- A resigned chip's contribution comes in its name (R245): at its board's arbiter it is what a holder announced, and words that
one holder lacked are filled in from another (log 41); elsewhere it is the whole that the arbiter sends. -/
def State.heldIn (s : State) (l : Lvl) (x : BitVec 16) (d : BitVec 2048) : State :=
  if (s.group l.g).leaving.any (fun z => z.1 == x) then
    let s1 := s.modLctx l.key (fun y =>
      match s.heldOf l y x with
      | none => y.add .l1 x d
      | some a => if l.allToAll then y else
          ({ y with parts := y.parts.filter (fun p => !p.sameAs .l1 x) } : LvlCtx).add .l1 x (l.combine l.words a d))
    (s1.modGroup l.g (fun y => { y with leaving := y.leaving.map (fun z =>
      if z.1 = x then (z.1, z.2.1, z.2.2.erase (l.relay, l.gen)) else z) })).resignDone l.g x
  else s.modLctx l.key (fun y => y.add .l1 x d)

/-- Has a contribution of a chip being resigned been announced here (R245)? -/
def State.announced (s : State) (g : Nat) (x : BitVec 16) (relay : Nat) (gen : BitVec 32) : Bool :=
  let y := s.group g
  y.expects.contains (x, relay, gen) || (y.asked.contains x && y.coming.contains (relay, gen)) ||
    y.leaving.any (fun z => z.1 == x && z.2.2.contains (relay, gen))

/-- Is a chip being resigned, or resigned, from a group here? -/
def State.leavingChip (s : State) (g : Nat) (x : BitVec 16) : Bool :=
  let y := s.group g
  y.asked.contains x || y.resigned.contains x || y.leaving.any (fun z => z.1 == x) || y.expects.any (fun z => z.1 == x)

/-- A whole level message is taken into its context (R235 to R238). -/
def State.levelMsg (s : State) (l : Lvl) (f : Frame) (d : BitVec 2048) : State :=
  let add (k : PartKind) : State := s.modLctx l.key (fun y => y.add k f.src d)
  let s1 := match f.ftype.toNat, f.level.toNat with
    | 0x10, 1 => if s.leavingChip l.g f.src then s.heldIn l f.src d else add .l1
    | 0x10, 2 => add .treeA
    | 0x10, _ => add .l3
    | 0x11, _ =>
      if l.top = 3 ∧ s.isArb l.g 2 ∧ (s.place2 l.g).rootB = some f.src then s.modLctx l.key (fun y => { y with half1 := some d })
      else add .treeB
    | 0x12, _ => add .rs
    | 0x19, _ => add .ag
    | 0x1A, _ => s.modLctx l.key (fun y => { y with half1 := some (y.half1.getD d) })
    | _, _ => s.releaseIn l f d
  s1.runLevels l.key

/-- A fall notice is taken and passed on (R239). -/
def State.fallIn (s : State) (l : Lvl) (f : Frame) : State :=
  let level := f.level.toNat
  if (s.lctx l.key).any (fun x => x.fell.contains level) then s
  else
    let dest := if s.isNode l.g ∧ 2 ≤ level ∧ ¬ sameBoard f.src s.me then (s.spread l.g).filter (fun c => c != f.src) else []
    ((s.modLctx l.key (fun x => { x with fell := x.fell ++ [level] })).sendAll (dest.map (fun c =>
      s.lvlFrame l.g 0x08 level c l.relay l.gen 0 0 (bodyOf [])))).fallChild l

/-- A frame that needs a context or an open relay cannot be taken in: it is refused and counted (R232, R293). -/
def State.noCtx (s : State) (w : Wing) : Bool × State :=
  (false, s.modWing w (fun x => { x with noCtx := sat 0x3FF x.noCtx }))

/-- A level frame reaches its relay's record (R232, R233): taken, ignored, discarded or refused. A fragment that is discarded with its
message is not taken, so that its sender sends it again (R300). -/
def State.levelTake (s : State) (o : Nat) (f : Frame) : Bool × State :=
  let w := wingOf o
  match s.relay o with
  | none => s.noCtx w
  | some r =>
    let g := r.group
    if g ≠ f.group.toNat then s.noCtx w
    else if s.stale g f.level.toNat f.term then (true, s)
    else
      let s1 := s.noteTerm g f.level.toNat f.term
      let d := (f.gen - r.pgen).toNat
      if 2 ^ 31 < d then (true, s1)
      else if 2 ≤ d then (true, s1.genErr w)
      else
        let s2 := s1.event 4 (bCMB w) f.ftype.toNat o f.gen.toNat
        match s2.lvl o f.gen with
        | none => s2.noCtx w
        | some l =>
          if f.ftype = 0x08 then (true, s2.fallIn l f)
          else if f.ftype = 0x10 ∧ f.level = 1 ∧ s2.leavingChip g f.src ∧ !s2.announced g f.src o f.gen then
            -- a chip being resigned is not counted by its own arrivals any more (R245, R246)
            ((s2.group g).resigned.contains f.src, s2)
          else match s2.takeLctx o g f.gen with
            | none => s2.noCtx w
            | some s3 => match s3.gatherIn f with
              | (.bad, s4) => (false, s4)
              | (.kept, s4) => (true, s4)
              | (.whole p, s4) => (true, s4.levelMsg l f p)

/-- A level frame that came in by wing `v` is received (R232, R233, R338). One for a wing that is not ACTIVE waits at the seam for it,
and is refused while the holding buffer is full (R32, R33); none crosses a contained seam. One whose record is absent or locked
waits for it (R116, R118, R353). -/
def State.levelFrame (s : State) (v : Wing) (f : Frame) : Bool × State :=
  let o := f.obj.toNat
  let w := wingOf o
  if !s.active w then
    if s.seamRoom w then (true, (s.toSeam w (.frame f)).wake w 3 0) else (false, s.wake w 3 0)
  else if v ≠ w ∧ s.contained bSEAM then (false, s)
  else if s.contained (bCMB w) then (false, s)
  else
    let s1 := s.crossFrom (some v) w
    match s1.resident o with
    | none => (true, s1.await o (.frame f))
    | some x =>
      if s1.rowBusy o x then (true, s1.park (.row w) (.frame f))
      else
        let s2 := (s1.keepResident o).readRows o x
        if s2.fileContained o then (false, s2)
        else
          let (ok, s3) := s2.levelTake o f
          (ok, s2.rewrite s3 o x)

/-! ### Lane 3 (R205, R295, R296, R366) -/

/-- What becomes of a lane 3 frame: executed, discarded or refused (R296, R366). -/
inductive Lane3 where
  | execute
  | discard
  | refuse
  deriving DecidableEq, Repr

/-- Judge a lane 3 frame by its number and its sender's BOOT_SEQ (R296, R366). -/
def State.judge3 (s : State) (f : Frame) : Lane3 :=
  let boot : BitVec 32 := BitVec.ofNat 32 (f.num 0x28 4)
  match (s.chip f.src).exec3 with
  | none => .execute
  | some (b, m) =>
    if b ≠ boot then .execute
    else
      let d := (f.seq3 - m).toNat
      if d = 1 then .execute else if d = 0 ∨ 32768 ≤ d then .discard else .refuse

/-- Record the number of a lane 3 frame that is executed. -/
def State.note3 (s : State) (f : Frame) : State :=
  s.modChip f.src (fun c => { c with exec3 := some (BitVec.ofNat 32 (f.num 0x28 4), f.seq3) })

/-- A REMOTE frame's operation (R205, R253): a command on the object, in the sending sequencer's domain. It has come by a wing's ports,
or by the tunnel port of kingside. -/
def remoteHeld (v : Wing) (f : Frame) : Held :=
  let (op, w) := remoteCmd (f.num 0 1 % 4) f.obj.toNat
  { mute := false, bad := false, charged := false, merged := false, mates := (0, 0), n := 0, came := 0, place := .window v, req := .remote f.src f.dom.toNat, op := op, w := w
    pos := 0x3FF }

/-- A GLOCK frame's effect (R174 to R176). -/
def State.glockFrameIn (s : State) (f : Frame) : State :=
  let n := f.obj.toNat % 64
  let i : BitVec 26 := BitVec.ofNat 26 (f.num 4 4)
  let prio := f.num 8 1
  match f.num 0 1 with
  | 0 => s.glockAsk n i (prio % 8) (decide (128 ≤ prio))
  | 1 => s.glockFreed n i
  | 2 => s.glockAnswered n i (prio % 8) (glockStatus (f.num 9 1))
  | 3 => s.glockOrphan n i
  | 4 => s.glockWithdrawn n i
  | _ => s

/-- The lock object that an arbiter's answer reaches: that of the request, or for a raised priority that of the lock that is held
here, or whose grant still waits to enter its record (R174, R175). -/
def State.grantObj (s : State) (f : Frame) : Option Nat :=
  let n := f.obj.toNat % 64
  let req (f : Frame) : Option Nat :=
    (s.glockReqOf n (BitVec.ofNat 26 (f.num 4 4)) (glockStatus (f.num 9 1))).map GlockReq.obj
  let waits (x : Work) : Option Nat := match x with
    | .frame g => if g.ftype = 0x21 ∧ g.num 0 1 = 2 ∧ g.obj.toNat % 64 = n ∧ glockStatus (g.num 9 1) ≠ .pending then req g else none
    | _ => none
  if f.ftype ≠ 0x21 ∨ f.num 0 1 ≠ 2 then none
  else if glockStatus (f.num 9 1) = .pending then
    ((s.glockHeld n).map Prod.fst).or ((s.seam.map SeamUnit.item ++ s.onHold.map Prod.snd).findSome? waits)
  else req f

/-- A lane 3 frame's effect, once it is to be executed; `origin` is the wing by which it has come and from which it may have to cross
the seam (R32, R39). -/
def State.run3 (s : State) (origin : Option Wing) (f : Frame) : State :=
  if f.ftype = 0x20 then s.work (.rerun (remoteHeld (origin.getD .k) f))
  else match s.grantObj f with
    | none => s.glockFrameIn f
    | some o =>
      let w := wingOf o
      if !s.active w ∨ s.mustWait origin w then (s.toSeam w (.frame f)).wake w 3 0
      else (s.crossFrom origin w).unit o (.frame f) (fun s => s.glockFrameIn f)

/-- A lane 3 frame is received by a wing; one of this chip to itself has no number. -/
def State.lane3 (s : State) (w : Wing) (f : Frame) : Bool × State :=
  if f.src = s.me then (true, s.run3 none f)
  else if s.contained (bCMB .k) then (false, s)
  else match s.judge3 f with
    | .execute => (true, (s.note3 f).run3 (some w) f)
    | .discard => (true, s)
    | .refuse => (false, s)

/-! ### All frames (R298, R299) -/

/-- Is an FTYPE one of Table 10.11? -/
def ftypeKnown (t : Nat) : Bool :=
  [0x01, 0x02, 0x03, 0x04, 0x05, 0x06, 0x07, 0x08, 0x10, 0x11, 0x12, 0x18, 0x19, 0x1A, 0x20, 0x21].contains t

/-- The wing that counts a frame of no relay: that of the port it came by, or kingside for the tunnel's. -/
def State.takeFrame (s : State) (w : Wing) (f : Frame) : Bool × State :=
  match f.ftype.toNat with
  | 0x01 => (true, s.helloIn f)
  | 0x02 => (true, s.aliveIn f)
  | 0x03 => (true, s.timeIn f)
  | 0x04 => if s.contained (bCMB w) then (false, s) else (true, s.takeoverIn f)
  | 0x05 => if s.contained (bCMB w) then (false, s) else (true, s.answerIn f)
  | 0x06 => (true, s.suspectIn (BitVec.ofNat 16 (f.num 0 2)) f.level f.group (f.num 2 1))
  | 0x07 => if s.contained (bCMB w) then (false, s) else (true, s.resignIn f)
  | 0x20 => s.lane3 w f
  | 0x21 => s.lane3 w f
  | t => if ftypeKnown t then s.levelFrame w f else (true, s.genErr w)

/-- A frame of a work list is taken again: one that parked for a wing or a context, or that this chip sent to itself. -/
def State.frameAgain (s : State) (f : Frame) : State :=
  if f.ftype.toNat = 0x21 then s.run3 none f
  else
    let (ok, s1) := s.takeFrame (wingOf f.obj.toNat) f
    if ok ∨ f.fcount.toNat < f.frag.toNat then s1
    else s1.modWing (wingOf f.obj.toNat) (fun x => { x with parked := x.parked ++ [f] })

/-- A frame's sender is heard (R240), unless a holder sends in a resigned chip's name. -/
def State.hearFrame (s : State) (carrier : BitVec 16) (f : Frame) : State :=
  let s1 := s.hears carrier
  if f.fwd then s1.hears f.src else s1

/-- A fast-mode frame is received on a port (R290 to R294): out of sequence it is as a bad one; one for another chip is
forwarded; one for this chip is taken or refused. It makes an IDLE wing ACTIVE at once, and is a wake of one that enters a sleep
(log 43). -/
def State.rxPort (s0 : State) (k : Nat) (e : Eof) (f : Frame) : State :=
  let w := shpWing k
  let s := if (s0.pwr w).state = .idle ∧ s0.receiving k then (s0.modPwr w (fun p => { p with exitFrom := .idle })).becomeActive w
           else if (s0.pwr w).state = .entering ∧ s0.receiving k then s0.wake w 5 (16 * k + 3) else s0
  if !s.receiving k then s
  else match s.acceptFrame k e f with
    | none => s.badFrame k
    | some s1 =>
      let s2 := s1.hearFrame (s1.boardChip k) f
      if f.dst ≠ s2.me then ((s2.forward k f).finishFrame k e f true).quiesceGo k
      else
        let (ok, s3) := s2.takeFrame w f
        (s3.finishFrame k e f ok).quiesceGo k

/-- A packet's effect by its TTYPE (Table 10.12): 1 DATA, 2 ACK, 3 OPEN, 4 OPEN_ACK. A packet that carries no frame counts as one of its
sender, too (R240; DESIGN CHOICE, log 95). -/
def State.packetIn (s : State) (ty : Nat) (p : Packet) : State :=
  let s1 := if (s.ctxOf p.src).isSome then s.hears p.src else s
  match ty with
  | 1 => State.rxData (fun s f => s.takeFrame .k f) s1 p
  | 2 => s1.rxAck p
  | 3 => s1.rxOpen p
  | _ => s1.rxOpenAck p

/-- A packet is received (R301, R40): one with a bad CRC is discarded; while kingside is not ACTIVE one waits in the front latch
and wakes it; a contained tunnel port discards it. -/
def State.rxPacket (s : State) (ty : Nat) (p : Packet) : State :=
  if !p.crcOk ∨ p.dst ≠ s.me ∨ !s.ready then s
  else if !s.active .k then
    ({ s with tun := { s.tun with front := some (s.tun.front.getD (ty, p)) } } : State).wake .k 6 0
  else if s.contained bTUN then s
  else s.packetIn ty p

/-- The packet in the front latch is taken (R40). -/
def State.takeFront (s : State) : State :=
  match s.tun.front with
  | none => s
  | some (ty, p) => ({ s with tun := { s.tun with front := none } } : State).rxPacket ty p

/-- Send a frame: to this chip it is taken at once. The context that a time exchange uses is one that a join would open (R302). -/
def State.dispatchFrame (s : State) (f : Frame) : State :=
  if f.dst = s.me then s.frameAgain f
  else
    let s1 := (s.sendFrame f).2
    if f.ftype = 0x03 then s1.reclass else s1

end Sys2Proof.Machine
end

