-- ==== Sys2Proof/Machine/Faults.lean ====
section
/-! DEFINITION. Fault reaction: leaving the safe state, recovery, grace, parity of the fault registers and reload, clear with
witness, interrupt lines and the alive pins (R329 to R348). -/
namespace Sys2Proof.Machine

/-! ### Leaving the safe state (Table 12.5) -/

/-- Held commands of a place go on. -/
def State.freeHeld (s : State) (p : Held → Bool) : State :=
  let l := s.held.filter p
  { s with held := s.held.filter (fun h => !p h), todo := s.todo ++ l.map (fun h => Work.rerun h) }

/-- Relays in HANDING present their arrival again. -/
def State.rehand (s : State) : State :=
  let get (o : Option Obj) : Bool := match o with
    | some { body := .relay r, .. } => r.handing
    | _ => false
  let l := (s.recs.filter (fun x => x.2.any (fun r => get r.obj))).map Prod.fst ++
    (s.backing.filter (fun x => (s.resident x.1).isNone && x.2.any (fun b => get b.obj))).map Prod.fst
  { s with todo := s.todo ++ l.map (fun o => Work.relayArrive o) }

/-- What a block does on leaving its safe state (Table 12.5). -/
def State.resumeBlock (s : State) (b : Nat) : State :=
  if b = bSEAM then
    let s1 := if s.active .q then s.seamGo .q else s
    let s2 := if s1.active .k then s1.seamGo .k else s1
    s2.freeHeld (fun h => match h.place with
      | .window w => s.active w && !s.contained (bING w)
      | _ => false)
  else if 4 ≤ b ∧ b < 12 then ((s.leaveHoldings.unpark (.file (b - 4))).rehand).work .levels
  else if b = 14 ∨ b = 15 then
    (each (fun k s => if shpWing k = wingOfBit (b == 15) then s.portStart k else s) (List.range 16) s).work .levels
  else if b = 16 ∨ b = 17 then s.freeHeld (fun h => match h.place with
    | .window w => w == wingOfBit (b == 17) && s.active w
    | .capture p => posWing p == wingOfBit (b == 17) && s.active (posWing p)
    | _ => false)
  else if b = 18 ∨ b = 19 then s.flushLeaves
  else if 20 ≤ b ∧ b < 36 then (if s.portOn (b - 20) then s.detect (b - 20) 0 else s.modPort (b - 20) (fun p => { p with state := .off }))
  else if b = bTUN then s.tunResume.takeFront.tunGo
  else s

/-- A contained block leaves its safe state. -/
def State.leaveSafe (s : State) (b : Nat) : State :=
  if !s.contained b then s
  else
    let (cause, s1) := s.draw 32
    ((s1.modBlk b (fun x => { x with fstate := .normal, reloading := false, cause := cause })).resumeBlock b).freeHeld
      (fun h => h.place == .caught b true || h.place == .caught b false)

/-- Is a source of severity CONTAIN or ESCALATE, or REGFAULT, set (R341)? -/
def State.severeSet (s : State) (b : Nat) : Bool :=
  (List.range 32).any (fun i => (s.blk b).stat.getLsbD i && decide (3 ≤ s.severity b i))

/-- Is an ESCALATE source set (R339)? -/
def State.escalateSet (s : State) (b : Nat) : Bool :=
  (List.range 32).any (fun i => (s.blk b).stat.getLsbD i && s.severity b i == 4)

/-- Does a contained block leave its safe state by a clear (R341): its exit is MANUAL, or it was contained with CAUSE 31
(R343)? -/
def Blk.byClear (x : Blk) : Bool := !x.exitImg || x.exitMan || x.cause == 31

/-- A block whose STAT has just changed leaves GRACE or its safe state when nothing holds it there (R339, R341). -/
def State.settleBlock (s : State) (b : Nat) : State :=
  match (s.blk b).fstate with
  | .grace => if s.escalateSet b then s else s.modBlk b (fun x => { x with fstate := .normal, graceEnd := 0 })
  | .contained => if s.severeSet b || !(s.blk b).byClear then s else s.leaveSafe b
  | _ => s

/-! ### Grace and recovery (R339, R342) -/

/-- A block's clock runs: its wing is ACTIVE, or it has none (R344). -/
def State.clocked (s : State) (b : Nat) : Bool := (blkWing b).all (fun w => s.active w)

/-- A grace timer expires (R339); in a block whose wing is not ACTIVE the containment waits for the wing's exit. -/
def State.graceExpiry (s : State) (b : Nat) : State :=
  if (s.blk b).expired s.now ∧ s.clocked b then s.contain b (s.blk b).graceBy else s

/-- A block's quiet period in ns (R334). -/
def Blk.quietNs (x : Blk) : Nat := x.quiet * (if x.quietMs then 1000000 else 1000)

/-- An AUTO block's quiet period passes (R342): it recovers, or its recovery limit makes its exit MANUAL. A block that was
contained with CAUSE 31 leaves under R341 alone (R343). -/
def State.autoRecovery (s : State) (b : Nat) : State :=
  let x := s.blk b
  if x.fstate ≠ .contained ∨ !x.exitImg ∨ x.exitMan ∨ x.cause = 31 ∨ x.stat.getLsbD 31 ∨ s.now < x.lastSet + x.quietNs then s
  else if x.rlimit ≤ x.rcount then s.modBlk b (fun x => { x with exitMan := true })
  else (s.modBlk b (fun x => { x with rcount := sat 0xFFFF x.rcount })).leaveSafe b

/-! ### Parity of the fault registers and reload (R343) -/

/-- Set every implemented bit of STAT with one fresh stamp (R343). -/
def Blk.setAllBits (x : Blk) (b : Nat) : Blk :=
  let l := (List.range 32).filter (fun i => (implemented b).getLsbD i)
  let n : BitVec 16 := x.sqn + 1
  { x with stat := x.stat ||| implemented b, sqn := n, aged := 0, stamps := l.foldl (fun t i => tset 0 t i n.toNat) x.stamps }

/-- A parity error in a block's fault registers is found (R343): REGFAULT sets and the block is contained with CAUSE 31. The IML
reloads it at once when the error lay in STAT or MASK alone. -/
def State.parityCheck (s : State) (b : Nat) : State :=
  let x := s.blk b
  let e := x.parityIn
  if e = 0 then s
  else
    let stat := e % 2 == 1
    let mask := e / 2 % 2 == 1
    let x1 : Blk := { x with parityIn := 0, mask := if mask then 0 else x.mask }
    let x2 := if stat then x1.setAllBits b else x1.setBit 31
    let s1 := (s.modBlk b (fun _ => x2.severe true s.now)).event 7 b 31 0 0
    let s2 := s1.contain b 31
    s2.modBlk b (fun y => { y with cause := 31, fstate := .reload, graceEnd := 0, reloading := decide (e / 4 % 2 = 0) })

/-- Parity is checked at every µs tick (R343). -/
def State.parityTick (s : State) : State := each (fun b s => s.parityCheck b) (List.range 37) s

/-- The default severity of a source (Table 12.3); IML HALT is fixed (R329). -/
def defaultSev (b src : Nat) : Nat :=
  if b = bSEAM then (if src < 2 then 3 else 0)
  else if b = bTCU then (if src = 1 then 1 else if src < 8 then 2 else 0)
  else if b = bIML then (if src < 4 then 2 else 0)
  else if b = bREP then (if src < 2 then 1 else if src < 5 then 2 else 0)
  else if b < 12 then
    (match src with
      | 0 => 1 | 1 => 1 | 2 => 2 | 3 => 2 | 4 => 1 | 5 => 3 | 6 => 3 | _ => 0)
  else if b < 14 then (if src < 3 then 2 else 0)
  else if b < 16 then (if src < 3 then 1 else if src < 5 then 2 else if src = 5 then 3 else 0)
  else if b < 18 then (if src < 2 then 1 else if src = 2 then 3 else 0)
  else if b < 20 then (if src = 0 then 2 else if src = 1 then 1 else 0)
  else if b < 36 then (match src with
      | 0 => 2 | 1 => 1 | 2 => 3 | _ => 0)
  else (match src with
      | 0 => 2 | 1 => 1 | 2 => 2 | 3 => 3 | _ => 0)

/-- A block's severities and exit fields from Tables 12.2 and 12.3 and the SEVERITY section (R332, R335). -/
def Blk.load (x : Blk) (b : Nat) (l : List SevEnt) : Blk :=
  let mine := l.filter (fun e => e.blk == b)
  let shp := decide (20 ≤ b ∧ b < 36)
  let sevs := (List.range 31).foldl (fun t i => tset 0 t i (defaultSev b i)) []
  let base : Blk := { x with
    sevs := sevs, graces := [], exitImg := shp, quiet := if shp then 10 else 1, quietMs := true, rlimit := if shp then 16 else 1 }
  mine.foldl (fun y e => { y with
    sevs := tset 0 y.sevs e.src e.sev, graces := tset 0 y.graces e.src e.grace, exitImg := e.auto, quiet := e.quiet
    quietMs := e.unitMs, rlimit := e.rlimit }) base

/-- The IML finishes the reload of a block (R343): it waits while the flash is released; one that fails sets REGFAULT again. -/
def State.reloaded (s : State) (b : Nat) (ok : Bool) : State :=
  let x := s.blk b
  if x.fstate ≠ .reload ∨ !x.reloading ∨ s.iml.released then s
  else if !ok then
    (s.modBlk b (fun x => { (x.setBit 31).severe true s.now with reloading := false })).event 7 b 31 0 0
  else
    let y := x.load b s.img.sevs
    let s1 := s.modBlk b (fun _ => { y with fstate := .contained, reloading := false, exitMan := decide (x.rlimit ≤ x.rcount) })
    s1.settleBlock b

/-! ### Clear with witness (R344 to R346) -/

/-- Is a stamp newer than a witness (R345)? -/
def Blk.newerThan (x : Blk) (src : Nat) (w : BitVec 16) : Bool :=
  let d := (BitVec.ofNat 16 (tget 0 x.stamps src) - w).toNat
  !x.aged.getLsbD src && decide (1 ≤ d ∧ d ≤ 32767)

/-- The bits of a mask that a witness clears (R345). -/
def Blk.clearable (x : Blk) (m : BitVec 32) (w : BitVec 16) : BitVec 32 :=
  (List.range 32).foldl (fun a i =>
    if m.getLsbD i && x.stat.getLsbD i && !x.newerThan i w then a ||| BitVec.twoPow 32 i else a) 0

/-- Clear bits of STAT. -/
def Blk.clearBits (x : Blk) (m : BitVec 32) : Blk :=
  { x with stat := x.stat &&& ~~~ m, aged := x.aged &&& ~~~ m, stamps := x.stamps.filter (fun y => !m.getLsbD y.1) }

/-- CLEAR_STATUS on a block (R330, R339, R341, R343, R345): a condition that is still true sets its bit again, and clearing
REGFAULT starts a reload. -/
def State.clearStatus (s0 : State) (b : Nat) (m : BitVec 32) (w : BitVec 16) : Res × State :=
  let s := s0.parityCheck b
  let hit := (s.blk b).clearable m w
  let s1 := s.modBlk b (fun x => x.clearBits hit)
  let again := (List.range 31).filter (fun i => hit.getLsbD i && s1.condTrue b i)
  let s2 := s1.setSources b again
  let s3 := if hit.getLsbD 31 && (s2.blk b).fstate == .reload then s2.modBlk b (fun x => { x with reloading := true }) else s2
  let s4 := s3.settleBlock b
  let st := (s3.blk b).stat
  (.ans (if st &&& m = 0 then .ok else .clearPartial) (st.zeroExtend 51), s4)

/-! ### Interrupts and alive pins (R331, R347, R348) -/

/-- Is a source pending (R331)? -/
def State.srcPending (s : State) (b src : Nat) : Bool :=
  let x := s.blk b
  x.stat.getLsbD src && (src == 31 || (decide (2 ≤ s.severity b src) && !x.mask.getLsbD src))

/-- A block's interrupt line (R331). -/
def State.irq (s : State) (b : Nat) : Bool := (List.range 32).any (fun i => s.srcPending b i)

/-- Does the wave of ALIVE_OUT run (R347)? -/
def State.aliveRuns (s : State) : Bool := s.ready && !s.inReset && (List.range 37).all (fun b => !s.contained b)

/-- The level of a pin at a time (R347): while its wave runs it changes every 25 cycles of CLK_AON, first at the start. -/
def AliveOut.level (x : AliveOut) (now : Nat) : Bool := if x.run && (now - x.at_) / 500 % 2 == 0 then !x.high else x.high

/-- The level of ALIVE_OUT (R347). -/
def State.aliveOut (s : State) : Bool := s.ready && s.trace.wave.level s.now

/-- The wave of ALIVE_OUT starts or stops with the containment of blocks, from the level that it has; before ALM_READY and in HALTED the
pin is low (R347). -/
def State.aliveNow (s : State) : State :=
  let x := s.trace.wave
  if x.run = s.aliveRuns then s
  else { s with trace := { s.trace with wave := { run := s.aliveRuns, at_ := s.now, high := s.ready && x.level s.now } } }

/-- FL_RESET_N rises 50 µs after PORESET_N (R44). -/
def State.flashNow (s : State) : State :=
  if 50000 ≤ s.now ∧ s.inReset = false ∧ s.pins.flResetN = false then { s with pins := { s.pins with flResetN := true } } else s

/-- An ALIVE_IN pin that has shown no edge. -/
def AliveIn.none : AliveIn := { seen := false, still := false, at_ := 0 }

/-- An edge on ALIVE_IN (R348). -/
def State.aliveEdge (s : State) (n : Nat) : State :=
  if !s.ready then s
  else ({ s with alive := tset .none s.alive n { seen := true, still := false, at_ := s.now } } : State).condOff bTCU (8 + n)

/-- A pin that has toggled shows no edge for 2 µs (R348). -/
def State.aliveStop (s : State) (n : Nat) : State :=
  let x := tget .none s.alive n
  if x.seen ∧ x.at_ + 2000 ≤ s.now then
    ({ s with alive := tset .none s.alive n { x with still := true } } : State).condOn bTCU (8 + n)
  else s

end Sys2Proof.Machine
end

