-- ==== Sys2Proof/Machine/Registers.lean ====
section
/-! DEFINITION. The register space: which register an offset maps, who may read it, what it reads and what a write does
(R11 to R15 and the register tables of every chapter). -/
namespace Sys2Proof.Machine

/-- The registers of the 1 MiB space; instances by wing, file, port, sequencer, block or index. -/
inductive Reg where
  | fault (b i : Nat)
  | seamOcc
  | ingLoad (w : Wing) | ingWin (w : Wing) | useSel (w : Wing) | use0 (w : Wing) | use1 (w : Wing) | use2 (w : Wing)
  | refuse (w : Wing)
  | wakeNote (w : Wing)
  | occ (f : Nat) | page (f : Nat) | grant (f : Nat) | strSel (f : Nat) | strHead (f : Nat) | strGen (f : Nat)
  | strCnt (f : Nat) | strName (f : Nat) | promo (f : Nat) | promoObj (f : Nat) | ledger (f : Nat) | ldgLast (f : Nat)
  | ldgLchk (f : Nat)
  | seqCtrl (k : Nat) | seqBase (k : Nat) | seqWobj (k j : Nat) | seqStat (k : Nat) | seqHalt (k : Nat)
  | seqWatch (k i : Nat) | seqLoop (k j : Nat) | seqAnchor (k j : Nat)
  | seqPage (w : Wing)
  | grpSel | grpStat | grpArb0 | grpArb1 | grpTerm
  | lvlErr (w : Wing)
  | suspSel | susp0 | susp1 | suspCtl | tsync
  | holdStat | holdCnt | holdLim
  | pwrStat | votes | nextEv (w : Wing) | ppol | pguard | pbeDeep | pwrCnt | wake (w : Wing) (i : Nat)
  | trCtl | trStat | trSel | trData | pc (n : Nat) | pcSel (n : Nat)
  | boot | readyTime | version | rel | chip | flash
  | scrub (w : Wing) | bankSel | bank | repSum
  | link (k : Nat) | qmask (k : Nat) | cnt0 (k : Nat) | cnt1 (k : Nat)
  | ctxSel | ctx0 | ctx1 | tunCnt | tunUse | hopSel | hop
  deriving DecidableEq, Repr

/-! ### Offsets -/

/-- The registers of a file's window (R126, R155, R191, R274). -/
def fileReg (f o : Nat) : Option Reg :=
  match o with
  | 0x40 => some (.occ f) | 0x44 => some (.page f) | 0x48 => some (.grant f) | 0x60 => some (.strSel f)
  | 0x64 => some (.strHead f) | 0x68 => some (.strGen f) | 0x6C => some (.strCnt f) | 0x70 => some (.strName f)
  | 0x80 => some (.promo f) | 0x84 => some (.promoObj f) | 0xA0 => some (.ledger f) | 0xA4 => some (.ldgLast f)
  | 0xA8 => some (.ldgLchk f)
  | _ => none

/-- The registers of a sequencer's window (R222). -/
def seqReg (k o : Nat) : Option Reg :=
  match o with
  | 0x00 => some (.seqCtrl k) | 0x04 => some (.seqBase k) | 0x08 => some (.seqWobj k 0) | 0x0C => some (.seqWobj k 1)
  | 0x10 => some (.seqStat k) | 0x14 => some (.seqHalt k) | 0x20 => some (.seqWatch k 0) | 0x24 => some (.seqWatch k 1)
  | 0x28 => some (.seqWatch k 2) | 0x2C => some (.seqWatch k 3) | 0x30 => some (.seqLoop k 0) | 0x34 => some (.seqLoop k 1)
  | 0x38 => some (.seqAnchor k 0) | 0x3C => some (.seqAnchor k 1)
  | _ => none

/-- The TCU's registers besides its fault registers (R254, R274, R328, R403, R404). -/
def tcuReg (o : Nat) : Option Reg :=
  match o with
  | 0x100 => some .suspSel | 0x104 => some .susp0 | 0x108 => some .susp1 | 0x10C => some .suspCtl | 0x110 => some .tsync
  | 0x140 => some .holdStat | 0x144 => some .holdCnt | 0x148 => some .holdLim | 0x180 => some .pwrStat
  | 0x184 => some .votes | 0x188 => some (.nextEv .q) | 0x18C => some (.nextEv .k) | 0x190 => some .ppol
  | 0x194 => some .pguard | 0x198 => some .pbeDeep | 0x19C => some .pwrCnt | 0x1A0 => some (.wake .q 0)
  | 0x1A4 => some (.wake .q 1) | 0x1A8 => some (.wake .q 2) | 0x1B0 => some (.wake .k 0) | 0x1B4 => some (.wake .k 1)
  | 0x1B8 => some (.wake .k 2) | 0x200 => some .trCtl | 0x204 => some .trStat | 0x208 => some .trSel | 0x20C => some .trData
  | 0x220 => some (.pc 0) | 0x224 => some (.pc 1) | 0x228 => some (.pc 2) | 0x22C => some (.pc 3)
  | 0x230 => some (.pcSel 0) | 0x234 => some (.pcSel 1) | 0x238 => some (.pcSel 2) | 0x23C => some (.pcSel 3)
  | _ => none

/-- The registers of a wing's ING and WAKE blocks (R42, R96, R126, R191). -/
def ingReg (w : Wing) (o : Nat) : Option Reg :=
  match o with
  | 0x40 => some (.ingLoad w) | 0x44 => some (.ingWin w) | 0x48 => some (.useSel w) | 0x4C => some (.use0 w)
  | 0x50 => some (.use1 w) | 0x54 => some (.use2 w) | 0x58 => some (.refuse w) | 0x8040 => some (.wakeNote w)
  | _ => none

/-- The registers of the other blocks (R42, R70, R254, R306, R362, Table 16.1). -/
def restReg (off : Nat) : Option Reg :=
  match off with
  | 0x00040 => some .seamOcc
  | 0x20000 => some .boot | 0x20004 => some .readyTime | 0x20008 => some .version | 0x2000C => some .rel
  | 0x20010 => some .chip | 0x20014 => some .flash
  | 0x30040 => some (.scrub .q) | 0x30044 => some (.scrub .k) | 0x30048 => some .bankSel | 0x3004C => some .bank
  | 0x30050 => some .repSum
  | 0x58000 => some (.seqPage .q) | 0x98000 => some (.seqPage .k)
  | 0x60120 => some (.lvlErr .q) | 0xA0120 => some (.lvlErr .k)
  | 0xA0100 => some .grpSel | 0xA0104 => some .grpStat | 0xA0108 => some .grpArb0 | 0xA010C => some .grpArb1
  | 0xA0110 => some .grpTerm
  | 0xE0100 => some .ctxSel | 0xE0104 => some .ctx0 | 0xE0108 => some .ctx1 | 0xE010C => some .tunCnt
  | 0xE0110 => some .tunUse | 0xE0120 => some .hopSel | 0xE0124 => some .hop
  | _ => none

/-- The registers of a Shaut port's window (R306). -/
def shpReg (k o : Nat) : Option Reg :=
  match o with
  | 0x40 => some (.link k) | 0x44 => some (.qmask k) | 0x48 => some (.cnt0 k) | 0x4C => some (.cnt1 k)
  | _ => none

/-- The register at an offset, if any (Table 1.6). -/
def regAt (off : Nat) : Option Reg :=
  match faultRegAt off with
  | some (b, i) => some (.fault b i)
  | none => match restReg off with
    | some r => some r
    | none =>
      if 0x10000 ≤ off ∧ off < 0x20000 then tcuReg (off - 0x10000)
      else if 0x40000 ≤ off ∧ off < 0x50000 then fileReg ((off - 0x40000) / 0x4000) (off % 0x4000)
      else if 0x50000 ≤ off ∧ off < 0x54000 then seqReg ((off - 0x50000) / 0x400) (off % 0x400)
      else if 0x70000 ≤ off ∧ off < 0x80000 then ingReg .q (off - 0x70000)
      else if 0x80000 ≤ off ∧ off < 0x90000 then fileReg (4 + (off - 0x80000) / 0x4000) (off % 0x4000)
      else if 0x90000 ≤ off ∧ off < 0x94000 then seqReg (16 + (off - 0x90000) / 0x400) (off % 0x400)
      else if 0xB0000 ≤ off ∧ off < 0xC0000 then ingReg .k (off - 0xB0000)
      else if 0xC0000 ≤ off ∧ off < 0xD0000 then shpReg ((off - 0xC0000) / 0x1000) (off % 0x1000)
      else none

/-! ### Codes -/

/-- State codes of TCU_PWRSTAT. -/
def PState.code : PState → Nat
  | .active => 0 | .idle => 1 | .entering => 2 | .adjourned => 3 | .deep => 4 | .exiting => 5 | .off => 6

/-- State codes of Table 7.6. -/
def SeqState.code : SeqState → Nat
  | .stopped => 0 | .waiting => 1 | .acting => 2 | .stopping => 3 | .done => 4 | .halted => 5

/-- Halt reasons of SEQ_STAT. -/
def SeqReason.code : SeqReason → Nat
  | .none => 0 | .actionRefused => 1 | .plyReserved => 2 | .plyRange => 3 | .pageCheck => 4 | .waitObject => 5
  | .ledgerFaulted => 6 | .contained => 7 | .arrayEcc => 8

/-- State codes of Table 8.3. -/
def GroupState.code : GroupState → Nat
  | .absent => 0 | .joining => 1 | .up => 2 | .failover => 3 | .refused => 4 | .resigned => 5

/-- State codes of TUN_CTX0. -/
def CtxState.code : CtxState → Nat
  | .closed => 0 | .opening => 1 | .open => 2 | .dead => 3

/-- State codes of Table 10.3. -/
def PortState.code : PortState → Nat
  | .off => 0 | .training => 1 | .quiet => 2 | .resuming => 3 | .fast => 4 | .cold => 5 | .down => 6 | .fenced => 7

/-- Stage codes of Table 2.8. -/
def Stage.code : Stage → Nat
  | .aonUp => 0 | .wingUp => 1 | .discovery => 2 | .load => 3 | .verify => 4 | .bist => 5 | .repair => 6 | .linkTrain => 7
  | .ready => 8 | .halted => 15

/-- FSTATE codes (R334). -/
def FState.code : FState → Nat
  | .normal => 0 | .grace => 1 | .contained => 2 | .reload => 3

/-- One bit of a register. -/
def bit (i : Nat) (b : Bool) : Nat := if b then 2 ^ i else 0

/-- A field of a register: its low bit and its width. -/
def fld (lo width x : Nat) : Nat := x % 2 ^ width * 2 ^ lo

/-! ### Reads -/

/-- Is a wing's admission deterministic (R26 to R28): ACTIVE at P0 or P1, and not draining for a step to a slower level? -/
def State.deterministic (s : State) (w : Wing) : Bool :=
  s.active w && decide ((s.pwr w).plvl ≤ 1) && !(s.wing w).draining

/-- The units allowed ahead at admission in a wing (R27, R28). -/
def State.admitLimit (s : State) (w : Wing) : Nat :=
  if s.deterministic w then (if (s.pwr w).plvl = 0 then 24 else 16)
  else 32

/-- A fault register (R334). -/
def State.readFault (s : State) (b i : Nat) : Nat :=
  let x := s.blk b
  match i with
  | 0 => x.stat.toNat
  | 1 => x.mask.toNat
  | 6 => fld 30 2 x.fstate.code + bit 29 x.exitImg + bit 28 (x.exitImg && !x.exitMan) + fld 16 5 x.cause +
      (match x.fstate with
        | .grace => Nat.min 0x3FF (((x.graceEnd + 999) / 1000 * 1000 + 999 - s.now) / 1000)
        | _ => 0)
  | 7 => bit 14 x.quietMs + fld 0 14 x.quiet
  | 8 => fld 16 16 x.rlimit + fld 0 16 x.rcount
  | 9 => fld 16 16 x.contCnt + x.sqn.toNat
  | j => (List.range 8).foldl (fun n m =>
      let src := 8 * (j - 2) + m
      if (implemented b).getLsbD src && src != 31 then n + fld (4 * m) 3 (tget 0 x.sevs src) else n) 0

/-- The straggler report that a file's selector shows (R155). -/
def State.shownReport (s : State) (f : Nat) : Option Straggler := tget none (s.file f).ring (s.file f).strReport

/-- The registers of a file (R126, R155, R191, R274). -/
def State.readFile (s : State) (f : Nat) : Reg → Nat
  | .occ _ => fld 16 14 (s.pinned f) + ((s.fileRecs f).filter (fun x => x.2.any (fun r => r.obj.isSome))).length
  | .page _ => fld 24 7 (s.file f).pageins.length + fld 16 8 (s.file f).wbCnt + (s.file f).missCnt
  | .grant _ => (s.file f).grants.length
  | .strSel _ => fld 4 3 (s.file f).strName + (s.file f).strReport
  | .strHead _ => match s.shownReport f with
    | some r => bit 31 true + fld 20 4 r.named.length + r.obj
    | none => 0
  | .strGen _ => ((s.shownReport f).map (fun r => r.gen.toNat)).getD 0
  | .strCnt _ => ((s.shownReport f).map (fun r => fld 16 13 r.missing + fld 0 13 r.arrived)).getD 0
  | .strName _ => match (s.shownReport f).bind (fun r => r.named[(s.file f).strName]?) with
    | some m => bit 26 m.relay + fld 0 20 m.who
    | none => 0
  | .promo _ => match (s.file f).promo with
    | some (eff, holder, _) => bit 31 true + fld 26 3 eff + holder.toNat
    | none => 0
  | .promoObj _ => match (s.file f).promo with
    | some (_, _, obj) => obj
    | none => 0
  | .ledger _ => fld 24 4 (s.file f).faultCnt + fld 16 8 (s.file f).lateCnt + (s.file f).poisonCnt
  | .ldgLast _ => match (s.file f).ldgLast with
    | some (fault, replays, obj, _) => bit 31 true + bit 30 fault + fld 28 2 replays + obj
    | none => 0
  | _ => match (s.file f).ldgLast with
    | some (_, _, _, c) => c
    | none => 0

/-- The registers of a sequencer (R222). -/
def State.readSeq (s : State) (k : Nat) (r : Reg) : Nat :=
  let e := s.seqEnt k
  let q := s.seq k
  match r with
  | .seqCtrl _ => bit 31 e.enabled + bit 30 e.autostart + fld 10 10 e.actPos + fld 0 10 e.dom
  | .seqBase _ => fld 0 20 e.objBase
  | .seqWobj _ j => if j = 0 then fld 16 12 e.w1 + fld 0 12 e.w0 else fld 16 12 e.w3 + fld 0 12 e.w2
  | .seqStat _ => fld 29 3 q.state.code + fld 25 4 q.reason.code + bit 24 (s.seqPaused k) + bit 23 q.pageWait +
      fld 20 3 q.wcond + fld 0 20 q.pc
  | .seqHalt _ => fld 8 20 q.haltObj + fld 5 2 q.haltSlot + fld 0 5 q.haltSt
  | .seqWatch _ i => ((q.watches.getD i none).getD 0).toNat
  | .seqLoop _ j => (q.loops.getD (2 * j + 1) 0).toNat * 65536 + (q.loops.getD (2 * j) 0).toNat
  | .seqAnchor _ j => if j = 0 then q.anchor % 2 ^ 32 else q.anchor / 2 ^ 32 % 2 ^ 32
  | _ => 0

/-- The registers of the selected group (R254). -/
def State.readGroup (s : State) (r : Reg) : Nat :=
  let g := s.grpSel
  let e := s.grp g
  let x := s.group g
  let arb (l : Nat) : Nat := if e.top < l then 0 else ((x.arbs.getD (l - 1) none).map BitVec.toNat).getD 0
  match r with
  | .grpStat =>
    let sby := (List.range 3).any (fun i => decide (i < e.top) && x.state != .absent && s.sby g (i + 1) == some s.me)
    let on := x.state != .absent
    fld 29 3 x.state.code + fld 27 2 e.top + bit 26 (on && s.isArb g 1) + bit 25 (on && s.isArb g 2) +
      bit 24 (on && s.isArb g 3) + bit 23 sby + bit 22 (on && s.isNode g) + fld 0 16 x.resigned.length
  | .grpArb0 => fld 16 16 (arb 2) + fld 0 16 (arb 1)
  | .grpArb1 => fld 0 16 (arb 3)
  | .grpTerm => fld 16 8 (x.terms.getD 2 0).toNat + fld 8 8 (x.terms.getD 1 0).toNat + (x.terms.getD 0 0).toNat
  | _ => g

/-- A signed number in 16 bits, saturating (TCU_TSYNC.OFFSET). -/
def sat16 (x : Int) : Nat := ((if x < -32768 then -32768 else if 32767 < x then 32767 else x) % 65536).toNat

/-- A wing's part of TCU_PWRSTAT, from its STATE field's bit 15 down. -/
def State.pwrHalf (s : State) (w : Wing) : Nat :=
  let p := s.pwr w
  fld 13 3 p.state.code + fld 11 2 p.plvl + fld 9 2 p.ceil + fld 6 3 p.ap

/-- The TCU's registers (R254, R274, R328). -/
def State.readTcu (s : State) (r : Reg) : Nat :=
  match r with
  | .suspSel => s.susp.sel
  | .susp0 => match tget none s.susp.table s.susp.sel with
    | some x => bit 31 true + fld 28 3 x.cause + fld 26 2 x.level.toNat + fld 16 8 x.group.toNat + x.chip.toNat
    | none => 0
  | .susp1 => match tget none s.susp.table s.susp.sel with
    | some x => fld 16 16 x.witness + Nat.min 0xFFFF ((s.now - x.madeAt) / 1000)
    | none => 0
  | .suspCtl => s.susp.overflow
  | .tsync => fld 30 2 (if s.timeMaster.isSome then s.tsync.state else 0) + Nat.min 0x3FFF s.tsync.delay * 2 ^ 16 + sat16 s.tsync.offset
  | .holdStat =>
    let g := (s.holds.recs.filter (fun h => h.granted.isSome)).length
    bit 31 s.holds.forced + fld 24 7 g + fld 16 7 (s.holds.recs.length - g) +
      (if s.holds.forced then Nat.min 0xFFFF ((s.now - s.holds.forcedAt) / 1000) else 0)
  | .holdCnt => fld 16 15 s.holds.barCnt + fld 8 8 s.holds.forcedCnt + fld 0 8 s.holds.overrunCnt
  | .holdLim => fld 0 16 s.img.power.waitLimit
  | .pwrStat => s.pwrHalf .k * 2 ^ 16 + s.pwrHalf .q
  | .votes => fld 16 10 (s.voteCount .k) + fld 0 10 (s.voteCount .q)
  | .nextEv w => match s.nextEvent w with
    | some (kind, t) => bit 31 true + fld 27 4 kind + Nat.min 0x7FFFFFF (t - s.now)
    | none => 0
  | .ppol => fld 10 2 s.img.power.deepestK + fld 8 2 s.img.power.pnomK + fld 2 2 s.img.power.deepestQ + fld 0 2 s.img.power.pnomQ
  | .pguard => fld 16 16 s.img.power.beAdj + fld 0 16 s.img.power.guard
  | .pbeDeep => fld 0 32 s.img.power.beDeep
  | .pwrCnt => fld 16 15 s.pwrc.adjCnt + fld 8 8 s.pwrc.abortCnt + fld 0 8 s.pwrc.lateRdy
  | .wake w i => match (s.pwr w).lastWake, i with
    | some x, 0 => bit 31 true + fld 27 4 x.source + fld 24 3 x.state.code + fld 21 3 x.ap + fld 11 10 x.detail + fld 0 11 x.exit
    | some x, 1 => x.time % 2 ^ 32
    | some x, _ => x.time / 2 ^ 32 % 2 ^ 32
    | none, 0 => fld 21 3 7
    | none, _ => 0
  | _ => 0

/-- The 128 bits of a trace record (Table 17.4). -/
def TraceRec.bits (r : TraceRec) : Nat :=
  r.time % 2 ^ 64 + fld 64 8 r.cls + fld 72 8 r.blk + fld 80 16 r.aux + fld 96 32 r.og

/-- The trace and counter registers (R402 to R404). -/
def State.readTrace (s : State) (r : Reg) : Nat :=
  let t := s.trace
  match r with
  | .trCtl => t.ctl.toNat
  | .trStat => bit 31 t.wrapped + bit 30 t.stopped + fld 16 12 t.dropped + fld 0 12 t.next
  | .trSel => t.selIdx
  | .trData => match tget none t.recs (t.selIdx / 4) with
    | some x => x.bits / 2 ^ (32 * (t.selIdx % 4)) % 2 ^ 32
    | none => 0
  | .pc n => tget 0 t.pc n
  | .pcSel n => tget 0 t.pcSel n
  | _ => 0

/-- The image loader's registers (R59 to R70). IML_VERSION.ROLLBACK_PROT reads 1 from WING_UP on (DESIGN CHOICE, log 97). -/
def State.readIml (s : State) (r : Reg) : Nat :=
  let i := s.iml
  match r with
  | .boot => fld 28 4 i.stage.code + bit 27 i.slotB + bit 26 i.dirCopy + bit 25 i.restarted + fld 20 4 i.failA +
      fld 16 4 i.failB + fld 8 8 i.halt + fld 4 4 i.flashMode
  | .readyTime => fld 0 32 i.readyUs
  | .version => bit 31 (i.stage != .aonUp && (s.rom.otpMode == 1 || s.rom.otpMode == 2)) + fld 16 10 i.minVersion + fld 0 9 i.secVersion
  | .rel => i.relVersion.toNat
  | .chip => i.chip.toNat
  | _ => bit 31 i.release + bit 30 i.released + fld 16 8 i.runtimeOnly + fld 8 5 (Nat.min 16 i.queue.length)

/-- The degraded banks of a wing. -/
def State.degradedIn (s : State) (w : Wing) : Nat :=
  ((List.range 64).filter (fun b => (s.bank w b).degraded)).length

/-- The spares of a bank in service, as a mask. -/
def Bank.usedMask (b : Bank) : Nat :=
  (List.range 8).foldl (fun n i => if (tget none b.used i).isSome then n + 2 ^ i else n) 0

/-- The repair unit's registers (R362). -/
def State.readRep (s : State) (r : Reg) : Nat :=
  match r with
  | .scrub w => fld 16 15 (s.wing w).passCnt + fld 0 16 (s.wing w).ceCnt
  | .bankSel => s.rep.bankSel
  | .bank =>
    let b := s.bank (wingOfBit (s.rep.bankSel / 64 % 2 == 1)) (s.rep.bankSel % 64)
    bit 31 b.degraded + fld 16 4 b.retired.length + fld 8 8 b.bad.toNat + b.usedMask
  | _ =>
    fld 30 2 (Nat.min 2 (s.degradedIn .k)) + fld 28 2 (Nat.min 2 (s.degradedIn .q)) + fld 16 12 s.rep.positions +
      fld 8 8 s.rep.repRuntime + Nat.min 0xFF (s.wq.remapQ.length + s.wk.remapQ.length)

/-- The registers of Shaut ports and of the tunnel port (R306, R391). -/
def State.readLinks (s : State) (r : Reg) : Nat :=
  match r with
  | .link k =>
    let p := s.port k
    fld 28 4 p.state.code + fld 24 4 p.why + bit 23 (s.viaNow k).isSome + fld 16 4 ((s.viaNow k).getD 0) + p.peerChip.toNat
  | .qmask k => (s.qmask k).1.toNat * 2 ^ 16 + (s.qmask k).2.toNat * 2
  | .cnt0 k => fld 16 8 (s.port k).downCnt + fld 0 16 (s.port k).retryCnt
  | .cnt1 k => fld 16 16 (s.port k).qbad + fld 0 16 (s.port k).qdrop
  | .ctxSel => s.tun.ctxSel
  | .ctx0 =>
    let c := s.ctx s.tun.ctxSel
    fld 30 2 c.state.code + bit 29 c.edge + fld 25 4 c.backoff + fld 16 9 c.unacked.length + c.peer.toNat
  | .ctx1 => (s.ctx s.tun.ctxSel).sndNxt.toNat * 2 ^ 16 + (s.ctx s.tun.ctxSel).rcvNxt.toNat
  | .tunCnt => fld 16 10 s.tun.fallback + fld 0 16 s.tun.retx
  | .tunUse => fld 22 10 (s.tun.ctxs.filter (fun x => x.2.state == .open)).length + fld 11 11 s.poolUsed + fld 0 11 s.tun.lost
  | .hopSel => s.tun.hopSel
  | .hop =>
    let c := s.ctx s.tun.hopSel
    bit 31 (!c.probes.isEmpty) + bit 30 c.edge + fld 25 5 c.probes.length +
      (match c.probes with
        | [] => 0
        | x :: t => Nat.min 0xFFFF (t.foldl Nat.min x))
  | _ => 0

/-- The registers of the ingress, wake, seam and combiner blocks (R42, R96, R126, R191, R222, R254). -/
def State.readWings (s : State) (r : Reg) : Nat :=
  match r with
  | .seamOcc =>
    fld 24 6 s.trace.peakQ + fld 16 6 s.trace.peakK + bit 15 (decide (s.seamHeld .q ≠ 0) && !s.active .q) +
      bit 14 (decide (s.seamHeld .k ≠ 0) && !s.active .k) + fld 8 6 (s.seamHeld .q) + fld 0 6 (s.seamHeld .k)
  | .ingLoad w => fld 30 2 (if s.deterministic w then 0 else 1) + fld 24 6 (if s.contained (bING w) then 0 else s.admitLimit w) + fld 0 16 (s.wing w).deferCnt
  | .ingWin w => fld 16 15 (s.wing w).lostCnt + fld 0 16 (s.wing w).badCnt
  | .useSel w => (s.wing w).useSel
  | .use0 w => fld 0 20 (s.useOf w (s.wing w).useSel).objs
  | .use1 w => fld 16 13 (s.useOf w (s.wing w).useSel).ops + fld 0 13 (s.useOf w (s.wing w).useSel).slots
  | .use2 w => fld 0 21 (s.useOf w (s.wing w).useSel).acc
  | .refuse w => fld 16 10 (s.wing w).lastDomain + fld 0 16 (s.wing w).crossCnt
  | .wakeNote w => fld 16 10 (s.wing w).lastPos + fld 0 16 (s.wing w).dropCnt
  | .seqPage w => fld 24 4 (Nat.min 8 (s.wing w).pageReads.length) + fld 16 8 (s.wing w).checkFail + fld 0 16 (s.wing w).pageMiss
  | .lvlErr w => fld 20 11 (s.wing w).remoteFail + fld 10 10 (s.wing w).genErr + fld 0 10 (s.wing w).noCtx
  | _ => 0

/-- What a register holds as domain 0 reads it. -/
def State.readRaw (s : State) (r : Reg) : Nat :=
  match r with
  | .fault b i => s.readFault b i
  | .occ f | .page f | .grant f | .strSel f | .strHead f | .strGen f | .strCnt f | .strName f | .promo f | .promoObj f
  | .ledger f | .ldgLast f | .ldgLchk f => s.readFile f r
  | .seqCtrl k | .seqBase k | .seqStat k | .seqHalt k => s.readSeq k r
  | .seqWobj k _ | .seqWatch k _ | .seqLoop k _ | .seqAnchor k _ => s.readSeq k r
  | .grpSel | .grpStat | .grpArb0 | .grpArb1 | .grpTerm => s.readGroup r
  | .trCtl | .trStat | .trSel | .trData => s.readTrace r
  | .pc _ | .pcSel _ => s.readTrace r
  | .boot | .readyTime | .version | .rel | .chip | .flash => s.readIml r
  | .scrub _ => s.readRep r
  | .bankSel | .bank | .repSum => s.readRep r
  | .link _ | .qmask _ | .cnt0 _ | .cnt1 _ => s.readLinks r
  | .ctxSel | .ctx0 | .ctx1 | .tunCnt | .tunUse | .hopSel | .hop => s.readLinks r
  | .seamOcc => s.readWings r
  | .ingLoad _ | .ingWin _ | .useSel _ | .use0 _ | .use1 _ | .use2 _ | .refuse _ | .wakeNote _ | .seqPage _ | .lvlErr _ =>
    s.readWings r
  | _ => s.readTcu r

/-- May a domain see a register (R126, R155, R191, R222, R254, R274, R306, R328, R334, R362, R403, R404)? -/
def State.regVisible (s : State) (r : Reg) (d : Nat) : Bool :=
  d == 0 || (match r with
    | .seamOcc => true
    | .ingLoad _ | .ingWin _ => true
    | .boot | .readyTime | .version | .rel | .chip | .flash => true
    | .seqCtrl k | .seqBase k | .seqStat k | .seqHalt k => (s.seqEnt k).dom == d
    | .seqWobj k _ | .seqWatch k _ | .seqLoop k _ | .seqAnchor k _ => (s.seqEnt k).dom == d
    | .grpSel | .grpStat | .grpArb0 | .grpArb1 | .grpTerm => (s.grp s.grpSel).valid && (s.grp s.grpSel).owner == d
    | _ => false)

/-- An access to a fault register that carries parity finds an error in its block (R343). -/
def State.regAccess (s : State) (r : Reg) : State :=
  match r with
  | .fault b i => if i < 9 then s.parityCheck b else s
  | _ => s

/-- The 32 bits that a register reads as to a domain. -/
def State.readReg (s : State) (d off : Nat) : Nat :=
  match regAt off with
  | none => 0
  | some r => if s.regVisible r d then s.readRaw r % 2 ^ 32 else 0

/-- READ_REG (R11, R345): a STAT register's answer carries the witness. -/
def readRegBody (c : Ctx) (s0 : State) : Res × State :=
  let off := c.w.arg.toNat
  match regAt off with
  | none => (okv 0, s0)
  | some r =>
    let s := s0.regAccess r
    let wit := match r with
      | .fault b 0 => if c.dom = 0 then (s.blk b).sqn.toNat * 2 ^ 32 else 0
      | _ => 0
    (okv (s.readReg c.dom off + wit), s)

/-! ### Writes -/

/-- Has a register a field that the service domain may write (R13, R14)? -/
def Reg.writable : Reg → Bool
  | .fault _ i => i == 1
  | .ingLoad _ | .ingWin _ | .useSel _ | .refuse _ | .wakeNote _ | .page _ | .strSel _ | .ledger _ | .seqPage _ | .grpSel
  | .lvlErr _ | .suspSel | .suspCtl | .holdCnt | .pwrCnt | .trCtl | .trSel | .pcSel _ | .flash | .scrub _ | .bankSel | .cnt0 _
  | .ctxSel | .tunCnt | .hopSel => true
  | _ => false

/-- Change the trace unit. -/
def State.modTrace (s : State) (f : Trace → Trace) : State := { s with trace := f s.trace }

/-- A write of TCU_TRCTL (R403): ENABLE from 0 to 1 clears WRAPPED, STOPPED, DROPPED and NEXT. -/
def Trace.control (t : Trace) (v : BitVec 32) : Trace :=
  if v.getLsbD 31 && !t.ctl.getLsbD 31 then
    { t with ctl := v, wrapped := false, stopped := false, dropped := 0, next := 0, lapped := false, trig := none }
  else { t with ctl := v }

/-- The IML gives up the flash (R67): a boot record still to be appended comes first. -/
def State.releaseFlash (s : State) : State :=
  let s1 : State := { s with iml := { s.iml with release := true } }
  if s.iml.released ∨ !s.iml.bootDone then s1
  else ({ s1 with iml := { s1.iml with released := true } } : State).emit .flResetPulse

/-- The data mode that discovery chooses (R44, R45): 2 octal, 1 quad, 0 none. -/
def flashModeOf (rom : Rom) (x : Sfdp) : Nat :=
  if !x.present then 0
  else if rom.allowOctal && x.octalTable && x.octalSeq then 2
  else if rom.allowQuad && x.quad && (!x.qeNeeded || x.qeSet) then 1
  else 0

/-- The IML takes the flash back (R67): it resets it and repeats discovery; queued records are then written. Discovery that
finds no data mode leaves mode 0 (log 73). -/
def State.reclaimFlash (s : State) : State :=
  let s1 : State := { s with iml := { s.iml with release := false, released := false } }
  if s.iml.released then
    ({ s1 with iml := { s1.iml with flashMode := flashModeOf s.rom s.iml.sfdp } } : State).emit .flResetPulse
  else s1

/-- Free entries of the suspect table (TCU_SUSPCTL). -/
def State.clearSuspects (s : State) (all sel : Bool) : State :=
  let u := s.susp
  let t := if all then [] else if sel then tset none u.table u.sel none else u.table
  { s with susp := { u with table := t, overflow := if all then 0 else u.overflow } }

/-- A write by the service domain to the fields of a register that it may write (R13, R14). -/
def State.writeRaw (s : State) (r : Reg) (v : BitVec 32) : State :=
  let n := v.toNat
  let clr := v.getLsbD 31
  let when (b : Bool) (t : State) : State := if b then t else s
  match r with
  | .fault b _ => s.modBlk b (fun x => { x with mask := v.truncate 31 })
  | .ingLoad w => when (v.getLsbD 16) (s.modWing w (fun x => { x with deferCnt := 0 }))
  | .ingWin w => when clr (s.modWing w (fun x => { x with lostCnt := 0, badCnt := 0 }))
  | .useSel w => s.modWing w (fun x => { x with useSel := n % 1024 })
  | .refuse w => when clr (s.modWing w (fun x => { x with crossCnt := 0 }))
  | .wakeNote w => when clr (s.modWing w (fun x => { x with dropCnt := 0 }))
  | .page f => when clr (s.modFile f (fun x => { x with missCnt := 0, wbCnt := 0 }))
  | .strSel f => s.modFile f (fun x => { x with strName := n / 16 % 8, strReport := n % 16 })
  | .ledger f => when clr (s.modFile f (fun x => { x with faultCnt := 0, lateCnt := 0, poisonCnt := 0 }))
  | .seqPage w => when clr (s.modWing w (fun x => { x with pageMiss := 0, checkFail := 0 }))
  | .grpSel => { s with grpSel := n % 256 }
  | .lvlErr w => when clr (s.modWing w (fun x => { x with remoteFail := 0, genErr := 0, noCtx := 0 }))
  | .suspSel => { s with susp := { s.susp with sel := n % 64 } }
  | .suspCtl => s.clearSuspects clr (v.getLsbD 30)
  | .holdCnt => when clr { s with holds := { s.holds with barCnt := 0, forcedCnt := 0, overrunCnt := 0 } }
  | .pwrCnt => when clr { s with pwrc := { s.pwrc with adjCnt := 0, abortCnt := 0, lateRdy := 0 } }
  | .trCtl => s.modTrace (fun t => t.control v)
  | .trSel => s.modTrace (fun t => { t with selIdx := n % 16384 })
  | .pcSel i => s.modTrace (fun t => { t with pcSel := tset 0 t.pcSel i (n % 16), pc := tset 0 t.pc i 0 })
  | .flash => if clr then s.releaseFlash else s.reclaimFlash
  | .scrub w => when clr (s.modWing w (fun x => { x with passCnt := 0, ceCnt := 0 }))
  | .bankSel => { s with rep := { s.rep with bankSel := n % 128 } }
  | .cnt0 k => when clr (s.modPort k (fun p => { p with downCnt := 0, retryCnt := 0, qbad := 0, qdrop := 0 }))
  | .ctxSel => { s with tun := { s.tun with ctxSel := n % 512 } }
  | .tunCnt => when clr { s with tun := { s.tun with fallback := 0, retx := 0, lost := 0 } }
  | .hopSel => { s with tun := { s.tun with hopSel := n % 512 } }
  | _ => s

/-- Does the access to a MASK register find a parity error in it, which zeroes it so that the written value is lost (R15,
R343)? -/
def State.maskLost (s : State) (r : Reg) : Bool :=
  match r with
  | .fault b i => i == 1 && (s.blk b).parityIn / 2 % 2 == 1
  | _ => false

/-- WRITE_REG (R11, R14, R15). -/
def writeRegBody (c : Ctx) (s0 : State) : Res × State :=
  match regAt c.w.arg.toNat with
  | none => (okv 0, s0)
  | some r =>
    let s := s0.regAccess r
    if c.dom = 0 ∧ r.writable then (okv 0, if s0.maskLost r then s else s.writeRaw r (c.w.data.truncate 32))
    else (no .refusedState, s)

/-- CLEAR_STATUS (R345). -/
def clearStatusBody (c : Ctx) (s : State) : Res × State :=
  match faultRegAt c.w.arg.toNat with
  | some (b, _) => s.clearStatus b (c.w.data.extractLsb' 0 32) (c.w.data.extractLsb' 32 16)
  | none => (malformed 6, s)

end Sys2Proof.Machine
end

