-- ==== Sys2Proof/Machine/Repair.lean ====
section
/-! DEFINITION. SRAM protection and field repair: scrubbing, the row watch, live remap, retirement, degraded banks, and the
records that the IML writes to the flash (R66, R67, R349 to R362). -/
namespace Sys2Proof.Machine

/-! ### Repair records (R67, R359, R360) -/

/-- Does the IML hold records back: the flash is released, or the IML contained (R67, Table 12.5)? -/
def State.holdsRecords (s : State) : Bool := s.iml.released || s.contained bIML

/-- A record is not written (R67, R360): the repair stays in force until PORESET_N and is counted. -/
def State.runtimeOnly (s : State) : State :=
  ({ s with rep := { s.rep with repRuntime := sat 0xFF s.rep.repRuntime } } : State).raise bIML 1

/-- A repair record goes to the IML (R67, R353, R355): one that meets a full queue is not written. -/
def State.sendRecord (s : State) (type : Nat) (w : Wing) (bank row spare : Nat) (obj0 obj1 : Option Nat) : State :=
  if s.holdsRecords ∧ 16 ≤ s.iml.queue.length then
    ({ s with iml := { s.iml with runtimeOnly := sat 0xFF s.iml.runtimeOnly } } : State).runtimeOnly
  else
    let r : RepRec := { type := type, wing := w, bank := bank, row := row, spare := spare, rseq := s.rep.rseq,
                        boot := s.iml.bootSeq, time := s.now, obj0 := obj0, obj1 := obj1 }
    { s with iml := { s.iml with queue := s.iml.queue ++ [r] }, rep := { s.rep with rseq := (s.rep.rseq + 1) % 2 ^ 32 } }

/-- The records of a ledger that still have effect, in order (R360). -/
def inEffect (l : List RepRec) : List RepRec :=
  let same (a b : RepRec) : Bool := a.wing == b.wing && a.bank == b.bank
  let deg (r : RepRec) : Bool := l.any (fun x => x.type == 3 && same x r)
  let ret (r : RepRec) : Bool := l.any (fun x => x.type == 2 && same x r && x.row == r.row)
  l.filter (fun r => r.type == 3 || (r.type == 2 && !deg r) || (r.type == 1 && !deg r && !ret r))

/-- The record at the front of the queue could not be written (R360). -/
def State.dropRecord (s : State) : State :=
  ({ s with iml := { s.iml with queue := s.iml.queue.drop 1 } } : State).runtimeOnly

/-- Write the first waiting record at the next position of the copy in use (R360). A failed program may or may not have
taken the position: FREE VALUE (log 4). -/
def State.writeRecord (s : State) (ok : Bool) : State :=
  match s.iml.queue with
  | [] => s
  | r :: t =>
    if ok then
      ({ s with iml := { s.iml with queue := t }
                rep := { s.rep with records := s.rep.records ++ [r], positions := s.rep.positions + 1 } }).emit
        (.repairRecord s.rep.copyB s.rep.positions r.word)
    else
      let (used, s1) := s.draw 2
      (({ s1 with rep := { s1.rep with positions := s1.rep.positions + used } } : State).raise bIML 0).dropRecord

/-- The IML appends a repair record, compacting the ledger first when the copy in use is full or none is valid (R360). -/
def State.appendRecord (s : State) (ok compactOk : Bool) : State :=
  if s.iml.queue.isEmpty ∨ !s.ready ∨ s.holdsRecords then s
  else if s.rep.positions = 0 ∨ 2048 ≤ s.rep.positions then
    if compactOk then
      let l := inEffect s.rep.records
      let s1 : State := { s with rep := { s.rep with
        records := l, positions := 1 + l.length, copyB := !s.rep.copyB, copyGen := (s.rep.copyGen + 1) % 2 ^ 32 } }
      (s1.emit (.compacted s1.rep.copyB (ledgerHeader s1.rep.copyGen :: l.map RepRec.word))).writeRecord ok
    else ((s.raise bIML 0).raise bIML 2).dropRecord
  else s.writeRecord ok

/-! ### Retirement and degradation (R355 to R357) -/

/-- Withdraw units of the member array or accumulators as they are freed (Table 13.2). -/
def lostBlock (w : Wing) (base size : Nat) : Block := { wing := w, base := base, size := size, lost := true }

/-- Withdraw accumulators of a wing. -/
def State.loseAccs (s : State) (w : Wing) (l : List Nat) : State :=
  let new := l.filter (fun a => !s.ablocks.any (fun b => b.lost && b.wing == w && b.base == a))
  { s with ablocks := s.ablocks ++ new.map (fun a => lostBlock w a 1) }

/-- The record slots of a record row, and the wing-local file (Table 13.1). -/
def rowSlots (bank row : Nat) : Nat × Nat := (1024 * (bank % 8) + 2 * row, 1024 * (bank % 8) + 2 * row + 1)

/-- The open object whose record stands in a slot of a file. -/
def State.slotObj (s : State) (f i : Nat) : Option Nat :=
  ((s.fileRecs f).find? (fun x => x.2.any (fun r => r.slot == i && r.obj.isSome))).map Prod.fst

/-- Mark an object SLOW (Table 13.2): it is unpinned and COLD from now on. -/
def State.markSlow (s : State) (o : Nat) : State :=
  let s1 := s.modObj o (fun x => { x with slow := true, pinned := false, cold := true })
  { s1 with rep := { s1.rep with slowObjs := insKey s1.rep.slowObjs o } }

/-- The pages whose frames have left the page cache are lost (Table 13.2). -/
def State.dropFrames (s : State) : State :=
  let gone := (s.pages.filter (fun x => s.frameLost (tget 0 s.pageFrame x.1))).map Prod.fst
  each (fun g s => { s with pages := tset [] s.pages g [], pageFrame := tset 0 s.pageFrame g 0 }) gone s

/-- A row of resident plies goes out of service (Table 13.2): it is to be copied to the displacement area, which holds at
most 512 rows of a wing (R356). A row of a degraded bank for which the area has no room stays in service (DESIGN CHOICE, log 96). -/
def State.losePlyRow (s : State) (w : Wing) (bank row : Nat) : State :=
  let pr := 512 * (bank - 56) + row
  let x := s.wing w
  if s.img.plies.length ≤ 32768 * w.num + 8 * pr ∨ x.displaced.contains pr ∨ x.dispQ.contains pr ∨
      512 ≤ x.displaced.length + x.dispQ.length then s
  else s.modWing w (fun y => { y with dispQ := y.dispQ ++ [pr] })

/-- The blocks of a wing are contained when its second bank degrades (R340, R357). The spec gives the cause no code: FREE
VALUE (log 4). -/
def State.wingFault (s : State) (w : Wing) : State :=
  let s1 := s.raise bREP 4
  each (fun b s => if blkWing b = some w then (let (c, t) := s.draw 32; t.contain b c) else s) (List.range 37) s1

/-- The effect on the arrays of a bank's degradation (Table 13.2). -/
def State.degradeEffect (s : State) (w : Wing) (b : Nat) : State :=
  if b < 32 then s.sweep (4 * w.num + b / 8)
  else if b < 48 then s.loseAccs w ((List.range 256).map (fun i => 256 * (b - 32) + i))
  else if b < 56 then { s with mblocks := s.mblocks ++ [lostBlock w (16384 * (b - 48)) 16384] }
  else each (fun r s => s.losePlyRow w b r) (List.range 512) s.dropFrames

/-- A bank is marked degraded and its record sent (R355): its watch entries are freed and it takes no further remaps. -/
def State.degradeMark (s : State) (w : Wing) (b : Nat) : State :=
  let s1 := (s.modBank w b (fun x => { x with degraded := true })).modWing w (fun x => { x with
    watch := x.watch.filter (fun y => y.bank != b), remapQ := x.remapQ.filter (fun y => y.1 != b) })
  (s1.raise bREP 3).sendRecord 3 w b 0 0 none none

/-- A bank is degraded (R355, R357). Before ALM_READY it is only marked (R361). -/
def State.degrade (s : State) (w : Wing) (b : Nat) : State :=
  if (s.bank w b).degraded then s
  else if !s.ready then s.degradeMark w b
  else
    let s2 := (s.degradeMark w b).degradeEffect w b
    if s2.degradedIn w = 2 then s2.wingFault w else s2

/-- The effect on the arrays of a row's retirement (Table 13.2). -/
def State.retireEffect (s : State) (w : Wing) (b r : Nat) : State :=
  if b < 32 then
    let f := 4 * w.num + b / 8
    let (i, j) := rowSlots b r
    (each (fun o s => s.markSlow o) ((s.slotObj f i).toList ++ (s.slotObj f j).toList) s).sweep f
  else if b < 48 then s.loseAccs w [256 * (b - 32) + r / 2]
  else if b < 56 then { s with mblocks := s.mblocks ++ [lostBlock w (16384 * (b - 48) + 32 * r) 32] }
  else (s.dropFrames).losePlyRow w b r

/-- Does a row of a ply bank hold resident plies of the image? -/
def State.residentRow (s : State) (w : Wing) (b r : Nat) : Bool :=
  decide (56 ≤ b) && decide (b < 64) && decide (32768 * w.num + 8 * (512 * (b - 56) + r) < s.img.plies.length)

/-- The rows of resident plies that a wing has displaced or is to displace (R356). Before ALM_READY none has been copied, and the rows
that are marked retired or lie in degraded banks count. -/
def State.displacedRows (s : State) (w : Wing) : Nat :=
  if s.ready then (s.wing w).displaced.length + (s.wing w).dispQ.length
  else ((List.range 8).flatMap (fun i =>
    let x := s.bank w (56 + i)
    (if x.degraded then List.range 512 else x.retired).filter (fun r => s.residentRow w (56 + i) r))).length

/-- Does a wing's displacement area have no room for a row, so that its retirement degrades the bank (R356)? -/
def State.areaFull (s : State) (w : Wing) (b r : Nat) : Bool := s.residentRow w b r && decide (512 ≤ s.displacedRows w)

/-- A row is marked retired and its record sent (R355). -/
def State.retireMark (s : State) (w : Wing) (b r : Nat) : State :=
  let f := 4 * w.num + b / 8
  let objs := if b < 32 then (s.slotObj f (rowSlots b r).1, s.slotObj f (rowSlots b r).2) else (none, none)
  let s1 := s.modBank w b (fun y => { y with retired := y.retired ++ [r] })
  (s1.raise bREP 2).sendRecord 2 w b r 0 objs.1 objs.2

/-- A row is retired (R355); a ply row beyond the 512 that a wing may displace degrades its bank (R356). -/
def State.retireRow (s : State) (w : Wing) (b r : Nat) : State :=
  if s.areaFull w b r then s.degrade w b else (s.retireMark w b r).retireEffect w b r

/-! ### Queueing and live remap (R353, R355) -/

/-- The spare that serves a row. -/
def Bank.spareOf (b : Bank) (r : Nat) : Option Nat := (List.range 8).find? (fun i => tget none b.used i == some r)

/-- Mark a spare bad. -/
def Bank.spoil (b : Bank) (i : Nat) : Bank := { b with bad := b.bad ||| BitVec.twoPow 8 i }

/-- The spares of a bank that are neither used nor bad, lowest first (R353). -/
def Bank.usable (b : Bank) : List Nat :=
  (List.range 8).filter (fun i => (tget none b.used i).isNone && !b.bad.getLsbD i)

/-- A row is queued for remapping (R351, R355): the spare that serves it is marked bad, and a row that has been remapped three
times is retired. -/
def State.queueRow (s : State) (w : Wing) (b r : Nat) : State :=
  let x := s.bank w b
  if x.degraded ∨ x.retired.contains r ∨ (s.wing w).remapQ.contains (b, r) then s
  else
    let s1 := s.modWing w (fun y => { y with watch := y.watch.filter (fun z => !(z.bank == b && z.row == r)) })
    let s2 := match x.spareOf r with
      | some i => s1.modBank w b (fun y => y.spoil i)
      | none => s1
    if 3 ≤ tget 0 x.remaps r then s2.retireRow w b r
    else s2.modWing w (fun y => { y with remapQ := y.remapQ ++ [(b, r)] })

/-- A bank whose row moves to a spare, off the one that served it. -/
def Bank.move (b : Bank) (r i : Nat) : Bank :=
  let off := match b.spareOf r with
    | some j => tset none b.used j none
    | none => b.used
  { b with used := tset none off i (some r), remaps := tmod 0 b.remaps r (fun n => n + 1) }

/-- A row is remapped to the first spare whose copy reads back right; `badSpares` spares before it do not (R353). -/
def State.remapRow (s : State) (w : Wing) (b r badSpares : Nat) : State :=
  let l := (s.bank w b).usable
  let s1 := s.modBank w b (fun x => (l.take badSpares).foldl (fun x i => x.spoil i) x)
  match l[badSpares]? with
  | none => s1.degrade w b
  | some i => ((s1.modBank w b (fun x => x.move r i)).raise bREP 1).sendRecord 1 w b r i none none

/-- A row that is copied is corrected; a word that cannot be is copied as read (R352, R353). -/
def State.copyRow (s : State) (w : Wing) (b r : Nat) : State :=
  let x := s.rowFind w (512 * b + r)
  let s1 := s.countWords w x
  { s1 with upsets := tset .clean s1.upsets (rowKey w (512 * b + r)) (.make 0 x.lostAt) }

/-- The next queued row of a wing is remapped, and what waited for it goes on (R353). -/
def State.liveRemap (s : State) (w : Wing) (badSpares : Nat) : State :=
  if !s.up w ∨ s.contained bREP then s
  else match (s.wing w).remapQ with
    | [] => s
    | (b, r) :: t =>
      ((((s.modWing w (fun x => { x with remapQ := t })).stir w).copyRow w b r).remapRow w b r badSpares).unpark (.row w)

/-! ### The row watch (R351) -/

/-- The watch entry that a new row replaces: the lowest count, oldest first. -/
def lowestWatch : List Watch → Option Watch
  | [] => none
  | x :: t => match lowestWatch t with
    | some y => if y.count < x.count then some y else some x
    | none => some x

/-- A corrected error is counted against a row (R351): once between two scrub visits, by the second of them or by an access. -/
def State.countRow (s : State) (w : Wing) (b r : Nat) (scrub : Bool) : State :=
  let x := s.bank w b
  if x.degraded ∨ x.retired.contains r ∨ (s.wing w).watch.any (fun y => y.bank == b && y.row == r && y.since) then s
  else
    let l := (s.wing w).watch
    match l.find? (fun y => y.bank == b && y.row == r) with
    | some y =>
      if 1 ≤ y.count then s.queueRow w b r
      else s.modWing w (fun z => { z with watch := z.watch.map (fun v => if v = y then { v with count := 1, quiet := 0, since := !scrub } else v) })
    | none =>
      let kept := if l.length < 32 then l else match lowestWatch l with
        | some y => l.erase y
        | none => l
      s.modWing w (fun z => { z with watch := kept ++ [{ bank := b, row := r, count := 1, quiet := 0, since := !scrub }] })

/-- A scrub visit comes to a row (R351). -/
def State.visitRow (s : State) (w : Wing) (b r : Nat) : State :=
  let seen (y : Watch) : Watch := if y.bank = b ∧ y.row = r then { y with since := false } else y
  s.modWing w (fun x => { x with watch := x.watch.map seen })

/-- A visit that counts nothing: an entry whose row has gone 4 passes without a count is freed (R351). -/
def State.quietRow (s : State) (w : Wing) (b r : Nat) : State :=
  let age (y : Watch) : Watch := if y.bank = b ∧ y.row = r ∧ !y.since then { y with quiet := y.quiet + 1 } else y
  s.modWing w (fun x => { x with watch := (x.watch.map age).filter (fun y => decide (y.quiet < 4)) })

/-! ### Uncorrectable words (R352) -/

/-- What an operation-table entry belongs to (R352). -/
inductive OpUser where
  | obj (o : Nat)
  | seq (k : Nat)
  | hold (p : Nat)
  deriving DecidableEq, Repr

/-- Every open object with its number, resident or paged out. -/
def State.allObjs (s : State) : List (Nat × Obj) :=
  s.recs.filterMap (fun x => (x.2.bind Resident.obj).map (fun o => (x.1, o))) ++
    s.backing.filterMap (fun x => if (s.resident x.1).isSome then none else (x.2.bind Backing.obj).map (fun o => (x.1, o)))

/-- The object to which an accumulator of a wing belongs: its own, or a staging block's. -/
def State.accOwner (s : State) (w : Wing) (a : Nat) : Option Nat :=
  ((s.allObjs.find? (fun x => wingOf x.1 == w && decide (x.2.body.bases.2 ≤ a ∧ a < x.2.body.bases.2 + x.2.body.needs.2))).map
    Prod.fst).orElse (fun _ =>
  ((s.stages.find? (fun x => wingOf (x.1 / 1024) == w && x.2.any (fun g => g.acc == a))).map (fun x => x.1 / 1024)).orElse
    (fun _ => ((List.range 8).filter (fun f => wingOfFile f == w)).findSome? (fun f =>
      (((s.file f).combineQ ++ (s.file f).promoted).find? (fun y => y.acc == some a)).map Operand.obj)))

/-- The object to which a member entry of a wing belongs. -/
def State.memberOwner (s : State) (w : Wing) (e : Nat) : Option Nat :=
  (s.allObjs.find? (fun x => wingOf x.1 == w && decide (x.2.body.bases.1 ≤ e ∧ e < x.2.body.bases.1 + x.2.body.needs.1))).map
    Prod.fst

/-- The relays of a wing's level contexts. -/
def State.ctxRelays (s : State) (w : Wing) : List Nat :=
  s.lctxs.filterMap (fun x => x.2.bind (fun c => if wingOf c.relay == w then some c.relay else none))

/-- The users of a wing's operation table (R112, R212, R232, R268, R352). -/
def State.opUsers (s : State) (w : Wing) : List OpUser :=
  (s.slots.filterMap (fun x => x.2.bind (fun r =>
    if r.qwing == w && r.ready.isNone && r.entry.isNone then
      some (match r.obj with
        | some o => OpUser.obj o
        | none => OpUser.hold (x.1 / 8))
    else none))) ++
  (s.held.filterMap (fun h => if h.op.onObject && wingOf h.w.obj.toNat == w then (match h.place with
    | .file o => some (OpUser.obj o)
    | .aside => some (OpUser.obj h.w.obj.toNat)
    | _ => none) else none)) ++
  ((List.range 8).filter (fun f => wingOfFile f == w)).flatMap (fun f => (s.file f).pageins.map OpUser.obj) ++
  (s.ctxRelays w).map OpUser.obj ++
  ((List.range 32).filter (fun k => seqWing k == w && (s.seq k).running)).map OpUser.seq ++
  (s.holds.recs.filterMap (fun h => match h.who, h.granted with
    | .pos p, some _ => if posWing p == w then some (OpUser.hold p) else none
    | _, _ => none))

/-- A hold slot of a position becomes READY with ABORTED (R352), also one that had its grant or whose grant has been collected. -/
def State.abortHoldSlot (s : State) (p : Nat) (h : HoldRec) : State :=
  let w := posWing p
  match s.slot p h.slot with
  | none => (s.bindSlot p h.slot none .tcu w h.dom 0 none).complete w p h.slot .aborted 0
  | some r =>
    if r.home ≠ .tcu then s
    else if r.ready.isNone then s.complete w p h.slot .aborted 0
    else (s.setSlot p h.slot (some { r with ready := some (.aborted, 0) })).announce w [(p, h.slot)]

/-- A position's hold entry fails (R352): the request is withdrawn or the hold ends, and its slot is READY with ABORTED. -/
def State.holdLost (s : State) (p : Nat) : State :=
  match s.holdOf (.pos p) with
  | none => s
  | some h => ((s.abortHoldSlot p h).dropPosHold p).raise bTCU 7

/-- An uncorrectable word in an entry of a user. -/
def State.userLost (s : State) : OpUser → State
  | .obj o => s.raise (bFIL (fileOf o)) 5
  | .seq k => s.stopSeq k .arrayEcc 0 0 0
  | .hold p => s.holdLost p

/-- The page in a frame of the page cache is dropped. -/
def State.dropFrame (s : State) (j : Nat) : State :=
  let gone := (s.pages.filter (fun x => tget 0 s.pageFrame x.1 == j)).map Prod.fst
  each (fun g s => { s with pages := tset [] s.pages g [], pageFrame := tset 0 s.pageFrame g 0 }) gone s

/-- Uncorrectable words of a row of ply memory (R352): a resident ply reads as a reserved encoding; a frame is dropped. A ply has two of
the row's words. -/
def State.plyLost (s : State) (w : Wing) (pr : Nat) (lost : BitVec 16) : State :=
  let i := 32768 * w.num + 8 * pr
  if s.img.plies.length ≤ i then s.dropFrame (i / 64)
  else if (s.wing w).displaced.contains pr then s
  else { s with img := { s.img with plies := each (fun j l =>
      if lost.getLsbD (2 * j) || lost.getLsbD (2 * j + 1) then updAt l (i + j) (fun _ => BitVec.allOnes 128) else l) (List.range 8) s.img.plies } }

/-- The owners of the entries that lost words of a row belong to, but for records and plies (R352): a word of accumulators belongs to one
of them, and a word of the member array holds two entries. Which level context has a free accumulator, and which entry of the operation
table a word belongs to, is a FREE VALUE (log 4). -/
def State.lostUsers (s : State) (w : Wing) (n : Nat) (lost : BitVec 16) : List OpUser :=
  let b := n / 512
  let r := n % 512
  let words := (List.range 16).filter (fun k => lost.getLsbD k)
  if b < 48 then
    match s.accOwner w (256 * (b - 32) + r / 2) with
    | some o => [.obj o]
    | none => ((s.ctxRelays w)[Config.freePick s.free % (hi 1 (4096 - s.accsUsed w))]?).toList.map OpUser.obj
  else if b < 56 then
    (words.flatMap (fun k => (s.memberOwner w (16384 * (b - 48) + 32 * r + 2 * k)).toList ++
      (s.memberOwner w (16384 * (b - 48) + 32 * r + 2 * k + 1)).toList)).eraseDups.map OpUser.obj
  else if n < 33792 then words.filterMap (fun k => (s.opUsers w)[Config.freePick (s.free + k) % 4096]?)
  else []

/-- Uncorrectable words in a row, by array (R352): reported to the owners of their entries. Words of free entries are written with zero,
and an entry of the operation table or the wait-slot store is written anew. -/
def State.rowLost (s : State) (w : Wing) (n : Nat) (lost : BitVec 16) : State :=
  let b := n / 512
  if b < 32 then s.raise (bFIL (4 * w.num + b / 8)) 5
  else if 56 ≤ b ∧ b < 64 then s.plyLost w (n - 28672) lost
  else
    let l := s.lostUsers w n lost
    let s1 := each (fun u s => s.userLost u) l { s with free := s.free + 16 }
    if l.isEmpty ∨ 64 ≤ b then { s1 with upsets := tset .clean s1.upsets (rowKey w n) .clean } else s1

/-- What an access of a unit found in a row goes to the row watch (R351); a row with an uncorrectable word is queued for remapping at once
(R352). -/
def State.rowFound (s : State) (w : Wing) (n : Nat) (x : RowFind) : State :=
  if 64 ≤ n / 512 ∨ x = .clean then s
  else if x.lost then s.queueRow w (n / 512) (n % 512) else s.countRow w (n / 512) (n % 512) false

/-! ### Scrubbing (R350) -/

/-- Does a wing's scrub engine run (R350, R321, Table 12.5)? -/
def State.scrubs (s : State) (w : Wing) : Bool :=
  !s.contained bREP && (s.up w || ((s.pwr w).state == .entering && (s.pwr w).ap == 0))

/-- The rows of a wing that a scrub pass visits (Table 13.1, R350). -/
def scrubRows : Nat := 34048

/-- A scrub visit has found something in a row, `x` of it new: it writes corrected words back, and lost ones stay until they are written
(R350 to R352). -/
def State.scrubFind (s : State) (w : Wing) (n : Nat) (x : RowFind) : State :=
  let b := n / 512
  let y := x.plus (s.rowFind w n)
  let s1 : State := { s with upsets := tset .clean s.upsets (rowKey w n) (.make 0 y.lostAt) }
  let s2 := if y.words = 0 then s1 else (s1.countWords w y).raise bREP 0
  if y.lost then
    let s3 := if x.lost || !(decide (56 ≤ b) && decide (b < 64)) then s2.rowLost w n y.lostAt else s2
    if b < 64 then s3.queueRow w b (n % 512) else s3
  else if b < 64 then s2.countRow w b (n % 512) true
  else s2

/-- The scrub engine visits its next row (R350 to R352). -/
def State.scrubRow (s : State) (w : Wing) (x : RowFind) : State :=
  if !s.scrubs w then s
  else
    let n := (s.wing w).scrubAt
    let last := n + 1 == scrubRows
    let b := n / 512
    let r := n % 512
    let s1 := s.modWing w (fun y => { y with
      scrubAt := if last then 0 else n + 1
      passCnt := if last then sat 0x7FFF y.passCnt else y.passCnt })
    if x = .clean ∧ s.rowFind w n = .clean then (if b < 64 then (s1.quietRow w b r).visitRow w b r else s1)
    else (s1.scrubFind w n x).visitRow w b r

/-! ### The displacement area (R356, R378) -/

/-- A retired row of resident plies is copied out (R356); an access that fails twice is as a failed check (R378). -/
def State.displace (s : State) (w : Wing) (row : Nat) (err : Bool) : State :=
  if !(s.wing w).dispQ.contains row ∨ !s.ready ∨ !s.active w then s
  else
    let s1 := s.modWing w (fun x => { x with
      dispQ := x.dispQ.filter (fun y => y != row), displaced := x.displaced ++ [row]
      checkFail := if err then sat 0xFF x.checkFail else x.checkFail })
    if err then ({ s1 with badPages := insKey s1.badPages (15360 + 4096 * w.num + row) } : State).raise (bSEQ w) 2
    else s1.emit (.rowWrite w row)

/-! ### Boot records (R66, R67) -/

/-- Is a boot record due (R66)? -/
def State.bootRecordDue (s : State) : Bool :=
  !s.iml.bootDone && (s.ready || (s.iml.stage == .halted && s.iml.dir.isSome)) && !s.holdsRecords

/-- The boot record of this start-up (Table 2.10). -/
def State.bootRecord (s : State) : BootRec :=
  let i := s.iml
  { bootSeq := i.bootSeq, slot := if i.slotB then 1 else 0, dirCopy := if i.dirCopy then 1 else 0, restarted := i.restarted
    failA := i.failA, failB := i.failB, halt := i.halt, flashMode := i.flashMode, secVersion := i.secVersion
    minVersion := i.minVersion, relVersion := i.relVersion, buildId := i.buildId
    readyUs := if s.ready then i.readyUs else 0xFFFFFFFF }

/-- The boot record area is scanned (R66): where the next record goes, and its BOOT_SEQ. -/
def State.scanBoot (s : State) (b0 b1 : List (BitVec 256)) : State :=
  let (n, second, pos) := scanBoots b0 b1
  { s with iml := { s.iml with scanned := true, bootSeq := n, bootSector := second, bootNext := pos } }

/-- The IML appends the start-up's boot record (R66): an area that REPAIR has not scanned is scanned first, and the other
sector is erased when the one in use is full; a release that waited for the record follows (R67). -/
def State.appendBoot (s : State) (ok : Bool) (b0 b1 : List (BitVec 256)) : State :=
  if !s.bootRecordDue then s
  else
    let s0 := if s.iml.scanned then s else s.scanBoot b0 b1
    let s1 : State := if 128 ≤ s0.iml.bootNext then
        ({ s0 with iml := { s0.iml with bootSector := !s0.iml.bootSector, bootNext := 0 } } : State).emit
          (.sectorErase (!s0.iml.bootSector))
      else s0
    let s2 : State := { s1 with iml := { s1.iml with bootDone := true, bootNext := s1.iml.bootNext + 1 } }
    let s3 := if ok then s2.emit (.bootRecord s1.iml.bootSector s1.iml.bootNext s1.bootRecord.word) else s2.raise bIML 0
    if s3.iml.release then s3.releaseFlash else s3

end Sys2Proof.Machine
end

