-- ==== Sys2Proof/Machine/Image.lean ====
section
/-! DEFINITION. The boot directory and the Tasol image: header, sections, content checks, signature and version, and how a
preset becomes an object (R46 to R57, R97 to R125, R173, R194 to R198, R227, R276, R302, R327, R335, R336, R358). -/
namespace Sys2Proof

/-! ### The boot directory (R47) -/

/-- A directory copy read from its 64 bytes, with its DIR_SEQ; none when it is not valid (R47). -/
def parseDir (b : List Byte) (density : Nat) : Option (Nat × Machine.Directory) :=
  let offOk (o : Nat) : Bool := o % 0x1000 == 0 && decide (0x2000 ≤ o) && decide (o < density)
  let a := fieldNat b 0x08 4
  let c := fieldNat b 0x0C 4
  let r := fieldNat b 0x14 4
  let prefer := fieldNat b 0x10 1
  if fieldNat b 0 4 = 0x52445354 ∧ (crc32c (b.take 0x3C)).toNat = fieldNat b 0x3C 4 ∧ offOk a ∧ offOk c ∧ offOk r ∧
      prefer ≤ 1 ∧ fieldNat b 0x11 1 = 0 ∧ fieldNat b 0x18 36 = 0 then
    some (fieldNat b 0x04 4, { slotA := a, slotB := c, preferB := prefer == 1, chipId := BitVec.ofNat 16 (fieldNat b 0x12 2),
                               bootRec := r, density := density })
  else none

/-- The directory copy in use, and whether it is copy 1 (R47). -/
def chooseDir (d0 d1 : Option (Nat × Machine.Directory)) : Option (Bool × Machine.Directory) :=
  match d0, d1 with
  | some (a, x), some (b, y) => if a < b then some (true, y) else some (false, x)
  | some (_, x), none => some (false, x)
  | none, some (_, y) => some (true, y)
  | none, none => none

/-! ### The header and its sections (R50, R51) -/

/-- The header checks of R50 for a slot at an offset. -/
def ImageHdr.ok (h : ImageHdr) (off density hostId : Nat) : Bool :=
  h.magic == 0x4C534154 && h.format == 2 && h.hdrSize == 0x200 && h.imageSize % 0x1000 == 0 &&
    decide (0x2000 ≤ h.imageSize) && decide (h.imageSize ≤ 0x2000000) && decide (off + h.imageSize ≤ density) &&
    h.targetRev == 0x0B && h.hostId == hostId && decide (h.secVersion ≤ 511) && h.reservedZero

/-- The section entries from a number on, each at or behind `lo` (R51). -/
def sectionsFrom (size : Nat) : Nat → Nat → List SecEnt → Bool
  | n, _, [] => n == 9
  | n, lo, e :: t => e.type == n && e.flags == 0 && e.offset % 64 == 0 && decide (lo ≤ e.offset) &&
      decide (e.offset + e.length ≤ size) && sectionsFrom size (n + 1) (e.offset + e.length) t

/-- The section checks of R51. -/
def ImageHdr.sectionsOk (h : ImageHdr) : Bool := sectionsFrom h.imageSize 1 0x200 h.sections

/-! ### Content (R53) -/

/-- Does a list repeat an element? -/
def dup {α : Type} [DecidableEq α] : List α → Bool
  | [] => false
  | x :: t => t.contains x || dup t

/-- Do two object ranges meet? An empty range meets none. -/
def DomainEnt.overlaps (a b : DomainEnt) : Bool :=
  a.enabled && b.enabled && a.objSize != 0 && b.objSize != 0 && decide (a.objBase < b.objBase + b.objSize) && decide (b.objBase < a.objBase + a.objSize)

/-- Do the ranges of a list of domains keep apart (R98)? -/
def apart : List DomainEnt → Bool
  | [] => true
  | a :: t => t.all (fun b => !a.overlaps b) && apart t

/-- A domain entry's fields lie in their ranges (Table 4.1, R98); the range, the depths and the weight of a disabled domain are
not looked at (log 56). -/
def DomainEnt.ok (e : DomainEnt) : Bool :=
  decide (e.refuseLimit < 65536) && decide (e.objQ ≤ 524288) && decide (e.objK ≤ 524288) && e.accQ % 256 == 0 &&
    e.accK % 256 == 0 && decide (e.accQ ≤ 1048576) && decide (e.accK ≤ 1048576) && decide (e.wslotQ ≤ 6144) &&
    decide (e.wslotK ≤ 6144) && decide (e.opsQ ≤ 4096) && decide (e.opsK ≤ 4096) && decide (e.seqRun ≤ 32) &&
    (!e.enabled || (decide (1 ≤ e.weight) && decide (e.weight ≤ 255) && decide (e.rateQ ≤ e.depthQ) &&
      decide (e.rateK ≤ e.depthK) && e.objBase % 16 == 0 && e.objSize % 16 == 0 && decide (e.objBase + e.objSize ≤ 2 ^ 20)))

/-- Is a domain of an image enabled? -/
def ImageBody.domainOn (i : ImageBody) (d : Nat) : Bool := (i.domains[d]?).any (fun e => e.enabled)

/-- The position checks of R53. -/
def ImageBody.positionsOk (i : ImageBody) : Bool :=
  i.posmap.all (fun p => !p.enabled || (i.domainOn p.dom && (i.posmap[p.schedPos]?).any (fun q => q.enabled))) &&
    i.posmap.any (fun p => p.enabled && p.dom == 0) && i.posmap.all (fun p => decide (p.dom < 1024))

/-- An index of a ply of an image is valid, and the ply checks of R196 hold. -/
def ImageBody.pliesOk (i : ImageBody) : Bool :=
  decide (i.plies.length ≤ 65536) && i.plyBacking % 0x1000 == 0 && decide (i.paged ≤ 15360) &&
    i.pageCheck.length == i.paged && (i.paged == 0 || decide (48 ≤ 1024 - (i.plies.length + 63) / 64)) &&
    i.plies.all (fun p => !plyReserved p && (plyEnd p || i.plyValid (plyNext p)))

/-- The sequencer checks of R196. -/
def ImageBody.seqsOk (i : ImageBody) : Bool :=
  i.seqs.length == 32 && i.seqs.all (fun e => !e.enabled ||
    (i.domainOn e.dom && (i.posmap[e.actPos]?).any (fun p => p.enabled && p.dom == e.dom) && i.plyValid e.startPly)) &&
    (List.range 1024).all (fun d => decide ((i.seqs.filter (fun e => e.enabled && e.autostart && e.dom == d)).length ≤
      ((i.domains[d]?).map DomainEnt.seqRun).getD 0))

/-- The link table and wake mask checks of R276 and R327, for a chip's seat. -/
def ImageBody.linksOk (i : ImageBody) (seat : Nat) : Bool :=
  i.links.length == 16 && i.power.qmask.length == 16 && (List.range 16).all (fun k => k == seat ||
    (i.links[k]?).any (fun e =>
      decide (e.txPreset ≤ 15) && decide (1 ≤ e.retryLimit) && decide (e.retryLimit ≤ 15) &&
      (e.quietAfter == 0 || (decide (20 ≤ e.quietAfter) && decide (e.quietAfter < 65536))) && decide (e.coldLease ≤ 1000) &&
      (!e.enabled || (i.power.qmask[k]?).any (fun m => m.1.getLsbD k && m.2.getLsbD 2))))

/-- Does a chip participate in a group entry's group (R226)? -/
def GroupEnt.part (e : GroupEnt) (c : Nat) : Bool :=
  e.valid && e.seats.getLsbD (c % 16) && (decide (e.top < 2) || e.boards.getLsbD (c / 16 % 256)) &&
    (decide (e.top < 3) || e.clusters.getLsbD (c / 4096))

/-- The fields of a group entry lie in their ranges (Table 8.2, R53, R227); of an entry that is not VALID only FALL_L3 is
looked at. -/
def GroupEnt.ok (e : GroupEnt) : Bool :=
  (e.fallL3 == 0 || decide (20 ≤ e.fallL3)) && (!e.valid || (decide (1 ≤ e.top) && decide (e.top ≤ 3) &&
    (if e.top = 1 then e.arity == 0 && e.boards == 0 else decide (2 ≤ e.arity) && decide (e.arity ≤ 16)) &&
    (e.top == 3 || e.clusters == 0) && decide (e.fallL1 < 65536) && decide (e.fallL2 < 65536) && decide (e.fallL3 < 65536) &&
    e.arbL1.all (fun x => decide (x < 16)) &&
    e.arbL2.all (fun x => decide (x < 256)) && e.arbL3.all (fun x => decide (x < 16))))

/-- The group and peer checks of R53, R227 and R302, for a chip. -/
def ImageBody.groupsOk (i : ImageBody) (chip : Nat) : Bool :=
  decide (i.groups.length ≤ 256) && decide (i.peers.length ≤ 512) && i.peers.all (fun p => decide (p.rto ≤ 1000)) &&
    i.groups.all (fun e => e.ok && (!e.valid || i.domainOn e.owner)) &&
    (i.groups[0]?).any (fun e => e.valid && e.owner == 0 && e.part chip)

/-- The privileged sources, the only ones with ESCALATE (R53, R329): CMB ARBITER and GLOCK, TUN TRANSPORT, TCU TIMEBASE. -/
def privileged (b src : Nat) : Bool :=
  ((b == 14 || b == 15) && (src == 3 || src == 4)) || (b == 36 && src == 3) || (b == 1 && src == 5)

/-- One SEVERITY entry is in range (R335, R336). -/
def SevEnt.ok (e : SevEnt) : Bool :=
  decide (e.blk < 37) && decide (e.src < 31) && (Machine.implemented e.blk).getLsbD e.src && !(e.blk == 2 && e.src == 3) &&
    decide (e.sev ≤ 4) && (e.sev != 4 || privileged e.blk e.src) && decide (1 ≤ e.rlimit) && decide (e.rlimit < 65536) &&
    (if e.sev = 4 then decide (1 ≤ e.grace) && decide (e.grace ≤ 1000) else e.grace == 0) && decide (1 ≤ e.quiet) &&
    (if e.unitMs then decide (e.quiet ≤ 1000) else decide (e.quiet < 16384))

/-- The SEVERITY checks of R336. -/
def ImageBody.sevsOk (i : ImageBody) : Bool :=
  i.sevs.all SevEnt.ok && !dup (i.sevs.map (fun e => (e.blk, e.src))) &&
    i.sevs.all (fun a => i.sevs.all (fun b => a.blk != b.blk ||
      (a.auto == b.auto && a.rlimit == b.rlimit && a.quiet == b.quiet && a.unitMs == b.unitMs)))

/-- The POWER checks of R327; the masks are a part of the link checks. -/
def PowerEnt.ok (p : PowerEnt) : Bool :=
  decide (p.deepestQ ≤ 2) && decide (p.deepestK ≤ 2) && decide (p.pnomQ ≤ 3) && decide (p.pnomK ≤ 3) &&
    decide (100 ≤ p.guard) && decide (p.guard < 65536) && decide (p.beAdj < 65536) && decide (p.beDeep ≤ 1000000000) &&
    decide (100 ≤ p.waitLimit) && decide (p.waitLimit < 65536)

/-- Do two areas of the flash, offset and size, keep apart? -/
def areasApart (a b : Nat × Nat) : Bool := decide (a.1 + a.2 ≤ b.1) || decide (b.1 + b.2 ≤ a.1)

/-- The REPAIRPTR checks of R358, with the sizes of this slot's image and of the other's (Table 2.1). A slot takes at least one sector
(log 10). -/
def RepairEnt.ok (r : RepairEnt) (d : Machine.Directory) (slotB : Bool) (size other : Nat) : Bool :=
  let rest := Nat.max 0x1000 other
  let region := (r.region, 0x20000)
  let inside (c : Nat) : Bool := decide (r.region ≤ c) && decide (c + 0x10000 ≤ r.region + 0x20000)
  inside r.copy0 && inside r.copy1 && areasApart (r.copy0, 0x10000) (r.copy1, 0x10000) && r.region % 0x1000 == 0 &&
    r.copy0 % 0x1000 == 0 && r.copy1 % 0x1000 == 0 && r.dispQ % 0x1000 == 0 && r.dispK % 0x1000 == 0 &&
    [(0, 0x2000), (d.slotA, if slotB then rest else size), (d.slotB, if slotB then size else rest), (d.bootRec, 0x2000)].all
      (areasApart region)

/-- The counts of an image are the fixed ones where R53 fixes them, and every preset could be read. -/
def Image.countsOk (m : Image) : Bool :=
  (m.sec 1).count == 1024 && (m.sec 2).count == 768 && (m.sec 7).count == 1 && (m.sec 8).count == 1 &&
    m.body.presets.length == (m.sec 3).count

/-! ### Presets (R125) -/

/-- The command word with which OPEN would make a preset (Table 4.11). -/
def Preset.word (p : Preset) : CmdW :=
  let mk (ty a d : Nat) : CmdW :=
    { slot := 0, prio := 0, tag := 0, wait := false, eager := false, staged := false, notify := false
      obj := BitVec.ofNat 20 p.obj, arg := BitVec.ofNat 20 (ty * 2 ^ 16 + (if p.cold then 2 ^ 15 else 0) + a)
      data := BitVec.ofNat 64 d }
  let b2 (x : Bool) : Nat := if x then 1 else 0
  match p.body with
  | .barrier mc code pw fall abort hold => mk 1 (mc + 2 ^ 13 * b2 abort + 2 ^ 14 * b2 hold) (code + 256 * pw + 2 ^ 32 * fall)
  | .semaphore n => mk 2 0 n
  | .lock _ => mk 3 0 0
  | .token cap cr givers => mk 4 givers (cap + 2 ^ 32 * cr)
  | .flag set => mk 5 (b2 set) 0
  | .ledger eager n win => mk 6 (n + 2 ^ 13 * b2 eager) win
  | .relay child level group => mk 7 (level + 4 * group) child

/-- Do a preset's fields fit their places? -/
def PresetBody.fits : PresetBody → Bool
  | .barrier mc code pw fall _ _ => decide (mc < 8192) && decide (code < 256) && decide (pw < 64) && decide (fall < 2 ^ 32)
  | .semaphore n => decide (n < 2 ^ 32)
  | .lock g => g.all (fun n => decide (n < 64))
  | .token cap cr givers => decide (cap < 2 ^ 32) && decide (cr < 2 ^ 32) && decide (givers < 8192)
  | .flag _ => true
  | .ledger _ n win => decide (n < 8192) && decide (win < 128)
  | .relay child level group => decide (child < 2 ^ 20) && decide (level < 4) && decide (group < 256)

/-- A member as a list entry. -/
def Member.ent (m : Member) : Machine.Ent := { arr := false, adv := false, res := false, relay := m.relay, who := m.who }

end Sys2Proof

namespace Sys2Proof.Machine

/-- A body with its list. -/
def Body.withList (b : Body) (l : List Ent) : Body :=
  match b with
  | .barrier b => .barrier { b with members := l }
  | .token t => .token { t with givers := l }
  | .ledger l' => .ledger { l' with consumers := l }
  | b => b

/-- A lock preset's binding to a global lock (R173). -/
def Body.withGlobal (b : Body) (p : PresetBody) : Body :=
  match b, p with
  | .lock l, .lock g => .lock { l with global := g }
  | b, _ => b

/-- May a relay preset open on its CHILD (R230)? A chip is in the group when it participates in it. -/
def State.relayPreset (s : State) (d : Nat) (r : Relay) : Bool :=
  (s.img.groups[r.group]?).any (fun e => e.part s.iml.chip.toNat && e.owner == d && e.top == r.level) &&
    (match s.obj r.child with
     | some { owner := o, body := .barrier b, .. } =>
       o == d && b.parent.isNone && decide (levelSize b.combine b.pwords ≤ levelLimit r.level)
     | _ => false)

/-- May a preset's entries be bound (R106, R234)? -/
def State.listPreset (s : State) (obj : Nat) (b : Body) (l : List Ent) : Bool :=
  let isBarrier := b.typeCode == 1
  l.length == b.needs.1 && !repeats l && l.all (fun e =>
    if e.relay then
      isBarrier && decide (e.who < 2 ^ 20) && (s.listedIn e.who).isNone && (s.relay e.who).all (fun r => r.child != obj)
    else decide (e.who < 768) && s.mayUse (s.domOf e.who) obj)

/-- The record slot that a preset takes: FREE VALUE among the free slots of the file (log 4). Repairs withdraw slots only from ALM_READY
on (R361). -/
def State.bootSlot (s : State) (f : Nat) : Option Nat :=
  findSlot (s.fileRecs f) (fun _ => false) 8192 (Config.freePick s.free % 8192)

/-- Load one preset as OPEN, BIND_MEMBERS and PIN would (R125); none when one of them would refuse it. -/
def State.loadPreset (s : State) (p : Preset) : Option State :=
  let b0 := (openBodyOf p.word).withGlobal p.body
  let relayOk := match b0 with
    | .relay r => s.relayPreset p.owner r
    | _ => true
  if 2 ^ 20 ≤ p.obj ∨ (s.resident p.obj).isSome ∨ !s.owns p.owner p.obj ∨ !p.body.fits ∨ (openReason p.word).isSome ∨ !relayOk ∨
      (p.pin ∧ 7680 ≤ s.pinned (fileOf p.obj)) then none
  else match s.bootSlot (fileOf p.obj) with
    | none => none
    | some i =>
      let s1 : State := { s with
        free := s.free + 1
        recs := tset none s.recs p.obj (some { slot := i, obj := none, touched := false, evicting := false }) }
      match s1.allocate p.obj p.owner b0 with
      | .error _ => none
      | .ok (b1, s2) =>
        let l := p.members.map Member.ent
        if !s2.listPreset p.obj b1 l then none
        else some ((s2.setObj p.obj (some { owner := p.owner, pinned := p.pin, cold := p.cold, slow := false
                                            body := b1.withList l })).joinChild p.obj b1)

/-- Load presets in section order (R125). -/
def State.loadPresets (s : State) : List Preset → Option State
  | [] => some s
  | p :: t => match s.loadPreset p with
    | none => none
    | some s1 => s1.loadPresets t

/-- Load grant entries as GRANT would take them (R110, R125). -/
def State.loadGrants (s : State) : List (Nat × Nat) → Option State
  | [] => some s
  | (o, d) :: t => match s.obj o with
    | none => none
    | some x =>
      let c : Ctx := { pos := 0, dom := x.owner, inw := .q, req := .slot 0, op := .grant
                       w := { seqWord o 0 with arg := BitVec.ofNat 20 (d % 1024) } }
      match grantBody c s with
      | (.ans .ok _, s1) => s1.loadGrants t
      | _ => none

/-- The position map of an image. -/
def ImageBody.posTable (i : ImageBody) : Table PosEnt :=
  ((List.range i.posmap.length).zip i.posmap).filter (fun x => x.2 != PosEnt.disabled)

/-- The state with an image's tables in place and its presets resident (R52, R54, R58); none when R125 refuses one. -/
def State.loadBody (s : State) (i : ImageBody) : Option State :=
  let s0 : State := { s with
    img := i, posmap := ImageBody.posTable i, recs := [], files := [], use := [], mblocks := [], ablocks := [], accs := [] }
  (s0.loadPresets i.presets).bind (fun s1 => s1.loadGrants i.grants)

/-- Is an image's content accepted (R53)? -/
def State.contentOk (s : State) (d : Directory) (slotB : Bool) (m : Image) (other : Nat) : Bool :=
  let i := m.body
  let glocks := i.presets.any (fun p => match p.body with
    | .lock (some _) => true
    | _ => false)
  m.sizesOk && m.countsOk && m.bodyZero (seatOf s.iml.chip) && i.backQ % 0x1000 == 0 && i.backK % 0x1000 == 0 && i.domains.all DomainEnt.ok && apart i.domains && i.positionsOk && i.pliesOk && i.seqsOk &&
    i.linksOk (seatOf s.iml.chip) && i.groupsOk s.iml.chip.toNat && i.sevsOk && i.power.ok && i.repair.ok d slotB m.hdr.imageSize other &&
    !(glocks && (i.groups[0]?).any (fun e => e.top == 1)) && i.grants.all (fun g => decide (g.2 < 1024)) &&
    (s.loadBody i).isSome

/-- The minimum version of an OTP field: its bits that read 0 (R57). -/
def minVersion (x : BitVec 512) : Nat := ((List.range 512).filter (fun i => !x.getLsbD i)).length

end Sys2Proof.Machine
end

