-- ==== Sys2Proof/Machine/Boot.lean ====
section
/-! DEFINITION. Reset and start-up: the stages from AON_UP to READY, restarts, and HALTED (R43 to R70, R359 to R361, R380,
R398). -/
namespace Sys2Proof.Machine

/-! ### Reset (R64, R380, R395) -/

/-- A port after PORESET_N: what its loopback and margining instruments hold stays, but margining ends as the link leaves FAST (R393,
R401). -/
def Port.kept (p : Port) : Port :=
  { Port.reset with loop := p.loop, loopRes := p.loopRes, marginRes := p.marginRes, abortAt := p.abortAt }

/-- The ports after PORESET_N. -/
def keptPorts (t : Table Port) : Table Port :=
  each (fun k u => tset Port.reset u k (tget Port.reset t k).kept) (List.range 16) []

/-- The effect of a PORESET_N assertion on everything outside the test access (R380, R395): what the flash, the stacked
memory, the ROM and the test access hold stays. -/
def State.poreset (s : State) : State :=
  { State.reset with
    pending := s.pending, free := s.free, out := s.out, rom := s.rom, backing := s.backing, ports := keptPorts s.ports
    tap := { s.tap with mbist := false }
    iml := { Iml.reset with porLow := s.iml.porLow, sfdp := s.iml.sfdp }
    wq := { WingSt.reset with pwr := { Pwr.reset with ceil := s.wq.pwr.ceil } }
    wk := { WingSt.reset with pwr := { Pwr.reset with ceil := s.wk.pwr.ceil } } }

/-- PORESET_N asserts (R380). -/
def State.assertReset (s : State) : State := ({ s with iml := { s.iml with porLow := true } } : State).poreset

/-- Start-up begins at AON_UP (R59); HOLD_BOOT is taken here (R398). -/
def State.startUp (s : State) : State :=
  { s with now := 0, iml := { s.iml with stage := .aonUp, holdStop := s.tap.holdBoot } }

/-- PORESET_N releases (R59, R398). -/
def State.releaseReset (s : State) : State :=
  if !s.iml.porLow then s
  else
    let s1 : State := { s with iml := { s.iml with porLow := false } }
    if s1.inReset then s1 else s1.startUp

/-! ### HALTED (R66, R69) -/

/-- A wing without power (Table 11.2, Table 15.1). -/
def State.wingOff (s : State) (w : Wing) : State :=
  (s.modPwr w (fun p => { p with state := .off, hand := .none, regEn := false, oscEn := false, memLvl := 3 })).stateEvent PState.off.code

/-- The block enters HALTED with a halt code (R69): the wings are powered down. -/
def State.halt (s : State) (code : Nat) : State :=
  let s1 : State := { s with iml := { s.iml with
    stage := .halted, halt := code, staged := none, trying := none } }
  ((s1.wingOff .q).wingOff .k).raise bIML 3

/-! ### AON_UP and WING_UP (R59, R60) -/

/-- A wing's regulator is enabled at P1 (R59). -/
def State.raiseWing (s : State) (w : Wing) : State :=
  s.modPwr w (fun p => { p with regEn := true, regLvl := 1, hand := .reg, reqAt := s.now })

/-- Is start-up at a stage? -/
def State.at_ (s : State) (st : Stage) : Bool := !s.inReset && s.iml.stage == st

/-- AON_UP completes (Tables 2.8 and 2.11). -/
def State.aonDone (s : State) (romOk : Bool) : State :=
  if !s.at_ .aonUp then s
  else if !romOk then s.halt 6
  else
    let s1 : State := { s with iml := { s.iml with stage := .wingUp } }
    (s1.raiseWing .q).raiseWing .k

/-- Have a wing's regulator, oscillator and arrays come up in start-up? -/
def Pwr.risen (p : Pwr) : Bool := p.state == .off && p.hand == .none && p.regEn && p.oscEn && p.memLvl == 0

/-- Both wings are ACTIVE at P1 (R59); a boot hold stops start-up here (R398). -/
def State.wingsUp (s : State) : State :=
  if !s.at_ .wingUp ∨ !(s.pwr .q).risen ∨ !(s.pwr .k).risen then s
  else
    let up (p : Pwr) : Pwr := { p with state := .active, plvl := 1, target := 1 }
    let s1 := (((s.modPwr .q up).stateEvent 0).modPwr .k up).stateEvent 0
    if s1.iml.holdStop && s1.tap.holdBoot then s1 else { s1 with iml := { s1.iml with stage := .discovery } }

/-- Is start-up held at the end of WING_UP (R398)? -/
def State.bootHeld (s : State) : Bool := s.at_ .wingUp && s.active .q && s.active .k

/-- Does a ready signal stay absent 10 ms after its enable (R60)? -/
def Pwr.dead (p : Pwr) (now : Nat) : Bool := p.hand != .none && decide (p.reqAt + 10000000 ≤ now)

/-- A wing does not come up (R60). -/
def State.wingTimeout (s : State) : State :=
  if s.at_ .wingUp && ((s.pwr .q).dead s.now || (s.pwr .k).dead s.now) then s.halt 4 else s

/-! ### DISCOVERY (R44 to R48) -/

/-- DISCOVERY completes (R44, R47 to R49). -/
def State.discover (s : State) (x : Sfdp) (dir0 dir1 : List Byte) : State :=
  if !s.at_ .discovery then s
  else
    let mode := flashModeOf s.rom x
    let s1 : State := { s with pins := { s.pins with flResetN := true }, iml := { s.iml with flashMode := mode, sfdp := x } }
    if mode = 0 then s1.halt 3
    else match chooseDir (parseDir dir0 x.density) (parseDir dir1 x.density) with
      | none => s1.halt 2
      | some (copy, d) =>
        { s1 with iml := { s1.iml with
          stage := .load, dir := some d, dirCopy := copy, chip := d.chipId, trying := some d.preferB } }

/-! ### Repairs in start-up (R361, R399) -/

/-- A row in which a start-up test found errors is remapped, or retired when it has been remapped three times (R353, R355,
R361); retirement takes effect from ALM_READY. `l` names the spares that do not read back right, from row 512 on. -/
def State.bootFix (s : State) (l : List RowId) (x : RowId) : State :=
  let b := s.bank x.wing x.bank
  if b.degraded ∨ b.retired.contains x.row then s
  else
    let s1 := match b.spareOf x.row with
      | some i => s.modBank x.wing x.bank (fun y => y.spoil i)
      | none => s
    if 3 ≤ tget 0 b.remaps x.row then
      (if s1.areaFull x.wing x.bank x.row then s1.degrade x.wing x.bank else s1.retireMark x.wing x.bank x.row)
    else s1.remapRow x.wing x.bank x.row
      ((s1.bank x.wing x.bank).usable.takeWhile (fun i => l.contains { x with row := 512 + i })).length

/-- Remap the rows that a start-up test named. -/
def State.fixKnown (s : State) : State :=
  let l := s.rep.bistRows
  each (fun x s => s.bootFix l x) (l.filter (fun x => decide (x.row < 512))) { s with rep := { s.rep with bistRows := [] } }

/-- The IML zeroes the arrays and the staged tables (R58, R61). -/
def State.zeroArrays (s : State) : State :=
  { s with
    img := ImageBody.empty, posmap := [], recs := [], files := [], use := [], mblocks := [], ablocks := [], accs := [], blks := []
    iml := { s.iml with staged := none, slotB := false, secVersion := 0, relVersion := 0, buildId := 0 } }

/-! ### LOAD and VERIFY (R49 to R58) -/

/-- The result code of a slot. -/
def Iml.result (i : Iml) (slotB : Bool) : Nat := if slotB then i.failB else i.failA

/-- Record a slot's result (R49). -/
def Iml.setResult (i : Iml) (slotB : Bool) (code : Nat) : Iml :=
  if slotB then { i with failB := code } else { i with failA := code }

/-- A slot fails a check (R49, R58): the other slot is tried when it has not been, else the block halts. -/
def State.slotFails (s : State) (slotB : Bool) (code : Nat) : State :=
  let s1 := s.zeroArrays
  let s2 : State := { s1 with iml := s1.iml.setResult slotB code }
  if s2.iml.result (!slotB) = 0 then { s2 with iml := { s2.iml with stage := .load, trying := some (!slotB) } }
  else s2.halt 1

/-- The offset of a slot. -/
def Directory.offset (d : Directory) (slotB : Bool) : Nat := if slotB then d.slotB else d.slotA

/-- What LOAD finds of a slot: the code of the first check that fails, or the image (R50, R51, R53). -/
def State.loadCheck (s : State) (d : Directory) (slotB : Bool) (r : SlotRead) : Except Nat Image :=
  match r with
  | .readError => .error 2
  | .image m other =>
    if !m.hdr.ok (d.offset slotB) d.density s.rom.hostId then .error 3
    else if !m.hdr.sectionsOk then .error 4
    else if !s.contentOk d slotB m other then .error 8
    else .ok m

/-- LOAD completes (R49 to R54, R58); rows that MBIST found are remapped when it begins (R399). -/
def State.loadSlot (s : State) (r : SlotRead) : State :=
  if !s.at_ .load then s
  else match s.iml.dir, s.iml.trying with
    | some d, some b =>
      let s1 := s.fixKnown
      match s1.loadCheck d b r with
      | .error code => s1.slotFails b code
      | .ok m => { s1 with iml := { s1.iml with stage := .verify, staged := some m } }
    | _, _ => s

/-- Does OTP_MODE ask for the version check (R57)? The reserved value 3 acts as 0 (DESIGN CHOICE, log 97). -/
def Rom.otpOn (rom : Rom) : Bool := rom.otpMode == 1 || rom.otpMode == 2

/-- The minimum version that the OTP gives, none when this read or an earlier one of the start-up failed; 0 without
anti-rollback (R57). -/
def State.otpMinimum (s : State) (o : OtpRead) : Option Nat :=
  if s.rom.otpOn then
    (match o with
      | .failed => none
      | .field x => if s.iml.otpBad then none else some (minVersion x))
  else some 0

/-- The IML reads the version field, with the instructions of the ROM (R56, R57); a failed read is kept. -/
def State.readOtp (s : State) (o : OtpRead) : State :=
  if s.rom.otpOn then
    let r := s.rom
    let closed (x : BitVec 8) : Option (BitVec 8) := if r.otpMode = 2 then some x else none
    ({ s with iml := { s.iml with otpBad := s.iml.otpBad || o == .failed, minVersion := (s.otpMinimum o).getD s.iml.minVersion } }
      : State).emit (.otpRead (closed r.otpEnter) r.otpRead r.otpAddr (closed r.otpExit))
  else { s with iml := { s.iml with minVersion := 0 } }

/-- The result of VERIFY's checks (R55, R57): the code of the first that fails. -/
def verifyCode (rom : Rom) (m : Image) (min : Option Nat) : Option Nat :=
  if sha384 m.hdr.pubkey ≠ rom.rootDigest then some 5
  else if !ecdsaP384 m.hdr.pubkey m.hdr.sigR m.hdr.sigS m.digest then some 6
  else match min with
    | none => some 7
    | some n => if m.hdr.secVersion < n then some 7 else none

/-- The image-set registers of every block are loaded (R332, R335). -/
def State.loadBlocks (s : State) (l : List SevEnt) : State :=
  each (fun b s => s.modBlk b (fun x => x.load b l)) (List.range 37) s

/-- VERIFY completes (R52 to R58): the staged tables are committed, or the slot fails. -/
def State.verifySlot (s : State) (o : OtpRead) : State :=
  if !s.at_ .verify then s
  else match s.iml.staged, s.iml.trying with
    | some m, some b =>
      let s1 := s.readOtp o
      match verifyCode s.rom m (s.otpMinimum o) with
      | some code => s1.slotFails b code
      | none => match s1.loadBody m.body with
        | none => s1.slotFails b 8
        | some s2 =>
          let i := s2.iml.setResult b 1
          ({ s2 with iml := { i with
              stage := .bist, staged := none, slotB := b, secVersion := m.hdr.secVersion, relVersion := m.hdr.relVersion
              buildId := m.hdr.buildId } } : State).loadBlocks m.body.sevs
    | _, _ => s

/-! ### BIST and REPAIR (R61, R66, R359 to R361) -/

/-- Uncorrectable words in BIST or REPAIR, each named by its row (R61): known repairs are applied and start-up restarts from
LOAD on the same slot, once; a second word of one start-up halts it. -/
def State.badWords (s : State) (bad : List RowId) : State :=
  if s.iml.restarted ∨ 2 ≤ bad.length then s.halt 5
  else
    let b := s.iml.slotB
    let s1 := (({ s with rep := { s.rep with bistRows := s.rep.bistRows ++ bad } } : State).fixKnown).zeroArrays
    let i := s1.iml.setResult b 0
    { s1 with iml := { i with restarted := true, stage := .load, trying := some b } }

/-- BIST completes (R59, R61). -/
def State.bistDone (s : State) (corrected bad : List RowId) : State :=
  if !s.at_ .bist then s
  else
    let s1 : State := { s with rep := { s.rep with bistRows := corrected } }
    if bad.isEmpty then { s1 with iml := { s1.iml with stage := .repair } } else s1.badWords bad

/-- Insert a record by RSEQ, behind equal ones. -/
def insRec (l : List RepRec) (r : RepRec) : List RepRec :=
  match l with
  | [] => [r]
  | x :: t => if r.rseq < x.rseq then r :: x :: t else x :: insRec t r

/-- One record is applied (R360, R361): one that names a spare already used, or a row of a degraded bank, is skipped. -/
def State.applyRecord (s : State) (r : RepRec) : State :=
  let b := s.bank r.wing r.bank
  let slow (o : Option Nat) (s : State) : State := match o with
    | some o => s.markSlow o
    | none => s
  if b.degraded then s
  else if r.type = 3 then s.modBank r.wing r.bank (fun x => { x with degraded := true })
  else if r.type = 2 then
    slow r.obj1 (slow r.obj0 (if b.retired.contains r.row then s
      else s.modBank r.wing r.bank (fun x => { x with retired := x.retired ++ [r.row] })))
  else if (tget none b.used r.spare).isSome ∨ b.bad.getLsbD r.spare then s
  else
    let b1 := match b.spareOf r.row with
      | some j => if j < r.spare then b.spoil j else b
      | none => b
    s.modBank r.wing r.bank (fun _ => b1.move r.row r.spare)

/-- Give the records that wait their RSEQ and BOOT_SEQ, which REPAIR has established (R66, R360). -/
def renumberRecs (boot : Nat) : Nat → List RepRec → List RepRec
  | _, [] => []
  | n, r :: t => { r with rseq := n, boot := boot } :: renumberRecs boot ((n + 1) % 2 ^ 32) t

/-- Train every enabled port (R285). -/
def State.trainAll (s : State) : State := each (fun k s => if s.portOn k && (s.port k).loop.isNone then s.detect k 0 else s) (List.range 16) s

/-- The ledger and the boot record area have been read (R66, R359 to R361). Records applied before a restart (R61) are in effect already. -/
def State.readLedger (s : State) (c0 c1 b0 b1 : List (BitVec 256)) : State :=
  let gens := [c0.head?.bind headerGen, c1.head?.bind headerGen].filterMap id
  let use := copyInUse c0 c1
  let l := (use.map (fun x => x.2.2)).getD []
  let recs := l.filterMap repRecOf
  let next := (freeFrom 2048 (lastValid 0 l + 1) (l.drop (lastValid 0 l + 1))).getD 2048
  let s1 : State := { s with
    rep := { s.rep with positions := if use.isSome then next else 0, copyB := (use.map Prod.fst).getD true
                        copyGen := gens.foldl hi 0, records := recs, rseq := recs.foldl (fun n r => hi n (r.rseq + 1)) 0 % 2 ^ 32 } }
  let new := recs.filter (fun r => !s.rep.records.contains r)
  let s2 := (each (fun r s => s.applyRecord r) (new.foldl insRec []) (s1.scanBoot b0 b1)).fixKnown
  { s2 with
    rep := { s2.rep with rseq := (s1.rep.rseq + s2.iml.queue.length) % 2 ^ 32 }
    iml := { s2.iml with queue := renumberRecs s2.iml.bootSeq s1.rep.rseq s2.iml.queue } }

/-- REPAIR completes (R61, R66, R361); `bad` is the row of an uncorrectable word that its reads met. -/
def State.repairDone (s : State) (c0 c1 b0 b1 : List (BitVec 256)) (bad : Option RowId) : State :=
  if !s.at_ .repair then s
  else
    let s1 := s.readLedger c0 c1 b0 b1
    if bad.isSome then s1.badWords bad.toList else ({ s1 with iml := { s1.iml with stage := .linkTrain } } : State).trainAll

/-! ### READY (R59, R62, R114, R214, R308, R315, R361) -/

/-- At ALM_READY every enabled position holds both votes (R315). -/
def State.allVotes (s : State) : State :=
  each (fun p s => if (s.posEnt p).enabled then (s.setVote .q p true).setVote .k p true else s) (List.range 768) s

/-- The effects of a wing's repairs on the arrays come into force (R361, R399). -/
def State.repairEffects (s : State) (w : Wing) : State :=
  let s1 := each (fun b s =>
    let x := s.bank w b
    if x.degraded then s.degradeEffect w b
    else each (fun r s => s.retireEffect w b r) x.retired s) (List.range 64) s
  if 2 ≤ s1.degradedIn w then s1.wingFault w else s1

/-- The presets of SLOW objects are not resident (R121, R355): their records go to their backing locations at once (log 55). -/
def State.slowPresets (s : State) : State :=
  each (fun o s => match s.resident o with
    | some { obj := some x, .. } => (s.writeOut o (some x)).putBack o (some x)
    | _ => s) s.rep.slowObjs s

/-- Each file starts to free the 32 record slots that it keeps ahead of need (R119). -/
def State.sweepAll (s : State) : State := each (fun f s => each (fun _ s => s.sweep f) (List.range 32) s) (List.range 8) s

/-- LINK_TRAIN ends and ALM_READY rises. -/
def State.becomeReady (s : State) : State :=
  if !s.at_ .linkTrain then s
  else
    let s1 : State := { s with spent := [], iml := { s.iml with stage := .ready, trying := none, readyUs := s.now / 1000 } }
    let s2 := ((((s1.allVotes).repairEffects .q).repairEffects .k).slowPresets).sweepAll
    (((s2.throttleAck .q).startStep .q).throttleAck .k).startStep .k |>.autostart

end Sys2Proof.Machine
end

