-- ==== Sys2Proof/Machine/TestAccess.lean ====
section
/-! DEFINITION. Test access: the TAP and the instruments of the 1687 network (R393 to R401). -/
namespace Sys2Proof.Machine

/-- Change the test access. -/
def State.modTap (s : State) (f : Tap → Tap) : State := { s with tap := f s.tap }

/-! ### Instructions (R394 to R396) -/

/-- The instruction that an 8-bit code of the instruction register stands for (Table 17.1). -/
def tapInstr (code : BitVec 8) : TapInstr :=
  match code.toNat with
  | 0x00 => .extest
  | 0x01 => .samplePreload
  | 0x02 => .idcode
  | 0x10 => .ijtag
  | 0x11 => .wrapSel
  | _ => .bypass

/-- The code of an instruction (Table 17.1). -/
def TapInstr.code : TapInstr → BitVec 8
  | .extest => 0x00
  | .samplePreload => 0x01
  | .idcode => 0x02
  | .ijtag => 0x10
  | .wrapSel => 0x11
  | .bypass => 0xFF

/-- What the instruction register captures (R394). -/
def irCapture : BitVec 8 := 0b00000001

/-- The identification register (Table 17.1). -/
def idcodeWord : BitVec 32 := 0xBA16174B

/-- The data register that an instruction selects, lowest bit first (Table 17.1). The lengths of the wrapper instruction registers are not
given; the top segment of the instrument network is the insertion bits (log 98). -/
def Tap.dataReg (t : Tap) : Option (List Bool) :=
  match t.ir with
  | .extest => some t.boundary
  | .samplePreload => some t.boundary
  | .idcode => some ((List.range 32).map idcodeWord.getLsbD)
  | .ijtag => some ((List.range 37).map t.sib.getLsbD)
  | .wrapSel => none
  | .bypass => some [t.bypass]

/-- An instruction is updated (R394, R395): leaving EXTEST while PORESET_N is high begins start-up again. -/
def State.setInstr (s : State) (i : TapInstr) : State :=
  let s1 := s.modTap (fun t => { t with ir := i })
  if s.tap.ir == TapInstr.extest && i != TapInstr.extest && !s.iml.porLow then s1.startUp else s1

/-- EXTEST is selected (R395). -/
def State.selectExtest (s : State) : State := (s.setInstr .extest).poreset

/-- BYPASS is selected: its one bit is captured as 0 (PRESUMED, log 98). -/
def State.selectBypass (s : State) : State := (s.setInstr .bypass).modTap (fun t => { t with bypass := false })

/-- SAMPLE_PRELOAD samples the balls (R394). -/
def State.sample (s : State) (balls : List Bool) : State := (s.setInstr .samplePreload).modTap (fun t => { t with boundary := balls })

/-- A wrapper scan test (R396): it needs wrapper access (Table 17.1), takes effect only in reset, and destroys the wrapped state. -/
def State.intest (s : State) : State := if s.tap.ir == TapInstr.wrapSel && s.iml.porLow then s.poreset else s

/-! ### The instrument network (R397) -/

/-- The instruments in the order of Table 17.2. -/
inductive Instrument where
  | regread
  | bootctl
  | mbist
  | loop (k : Nat)
  | margin (k : Nat)
  | pathdly
  | trace
  deriving DecidableEq, Repr

/-- An instrument's segment insertion bit. -/
def Instrument.sib : Instrument → Nat
  | .regread => 0
  | .bootctl => 1
  | .mbist => 2
  | .loop k => 3 + k
  | .margin k => 19 + k
  | .pathdly => 35
  | .trace => 36

/-- Is the instrument network selected (Table 17.1)? -/
def State.network (s : State) : Bool := s.tap.ir == TapInstr.ijtag

/-- An access to an instrument: its segment is inserted, and no other (log 98). Without the network selected it has no effect. -/
def State.scan (s : State) (i : Instrument) (f : State → State) : State :=
  if s.network then f (s.modTap (fun t => { t with sib := BitVec.twoPow 37 i.sib })) else s

/-! ### Boot hold (R398) -/

/-- Does a loopback run on a port? -/
def State.anyLoop (s : State) : Bool := s.ports.any (fun x => x.2.loop.isSome)

/-- A held start-up goes on from DISCOVERY once HOLD_BOOT is clear and no MBIST run or loopback is under way (R398). -/
def State.holdGo (s : State) : State :=
  if s.bootHeld && !s.tap.holdBoot && !s.tap.mbist && !s.anyLoop then
    { s with iml := { s.iml with stage := .discovery, holdStop := false } }
  else s

/-- A loopback ends and its port returns to its state rules (R400, R277): a contained one is FENCED (Table 12.5), and an enabled port that
has not been trained starts from DETECT. -/
def State.endLoop (s : State) (k : Nat) : State :=
  if (s.port k).loop.isNone then s
  else
    let s1 := s.modPort k (fun p => { p with loop := none })
    if s1.contained (bSHP k) then s1.modPort k (fun p => { p with state := .fenced })
    else if s1.portOn k && (s1.port k).state == PortState.off && (s1.iml.stage == .linkTrain || s1.ready) then s1.detect k 0 else s1

/-- HOLD_BOOT is written (R398, R400): a change ends loopbacks, but clearing it during a boot hold lets them complete. -/
def State.setHold (s : State) (b : Bool) : State :=
  if s.tap.holdBoot = b then s
  else
    let s1 := s.modTap (fun t => { t with holdBoot := b })
    if !b && s1.bootHeld then s1.holdGo else each (fun k s => s.endLoop k) (List.range 16) s1

/-- IJTAG is selected and BOOTCTL written (Table 17.2). -/
def State.selectIjtag (s : State) (b : Bool) : State := (s.setInstr .ijtag).scan .bootctl (fun s => s.setHold b)

/-- HOLD_BOOT is cleared (R398). -/
def State.clearHold (s : State) : State := s.scan .bootctl (fun s => s.setHold false)

/-- TRST_N low (R393): the TAP, its instruction register and the network are reset, so that a march, loopbacks and margining end and
HOLD_BOOT is 0. -/
def State.tapReset (s : State) : State :=
  let s1 := (s.setInstr .idcode).modTap (fun t => { t with
    bypass := false, sib := 0, holdBoot := false, boundary := [], mbist := false, mbistEnd := false, mbistRows := [], mbistSpares := []
    regData := 0, traceData := 0, pathdly := 0, mbistRefused := false, loopRefused := 0, marginRefused := 0 })
  let s2 := each (fun k s => (s.endLoop k).modPort k (fun p => { p with margin := none, marginRes := none, loopRes := none, abortAt := 16 }))
    (List.range 16) s1
  s2.holdGo

/-! ### REGREAD and PATHDLY (R397) -/

/-- The wing in whose power a register's offset lies, if any (Tables 0.5 and 12.2). -/
def regWing (off : Nat) : Option Wing :=
  if off < 0x40000 then none
  else if off < 0x80000 then some .q
  else if off < 0xC0000 then some .k
  else if off < 0xD0000 then some (shpWing ((off - 0xC0000) / 0x1000))
  else some .k

/-- Is a wing powered (Table 11.2)? -/
def Pwr.powered (p : Pwr) : Bool :=
  match p.state with
  | .active => true
  | .idle => true
  | .entering => true
  | .exiting => p.exitFrom == .idle || p.exitFrom == .entering
  | _ => false

/-- REGREAD reads a register as domain 0 does, with the witness of a STAT register (R397). -/
def State.regRead (s : State) (off : Nat) : State :=
  s.scan .regread (fun s =>
    let wit := match faultRegAt off with
      | some (b, 0) => (s.blk b).sqn.toNat * 2 ^ 32
      | _ => 0
    let on := (regWing off).all (fun w => (s.pwr w).powered)
    s.modTap (fun t => { t with regData := if on then BitVec.ofNat 48 (s.readReg 0 off + wit) else 0 }))

/-- PATHDLY counts its ring oscillators over 1 µs (R397). -/
def State.pathDelay (s : State) (count : Nat) : State := s.scan .pathdly (fun s => s.modTap (fun t => { t with pathdly := count }))

/-- The TRACE instrument reads a record of the trace buffer, or writes a control register (R397, R402). -/
def State.traceScan (s : State) (r : TraceReg) (value : BitVec 32) : State :=
  s.scan .trace (fun s => match r with
    | .ctl => s.writeRaw .trCtl value
    | .sel => s.writeRaw .trSel value
    | .data => s.modTap (fun t => { t with traceData := BitVec.ofNat 128 (((tget none s.trace.recs (value.toNat % 4096)).map TraceRec.bits).getD 0) }))

/-! ### MBIST (R399) -/

/-- A full march starts (R399): only during a boot hold. -/
def State.startMbist (s : State) : State :=
  s.scan .mbist (fun s =>
    if !s.bootHeld then s.modTap (fun t => { t with mbistRefused := true })
    else s.modTap (fun t => { t with mbist := true, mbistEnd := false, mbistRefused := false, mbistRows := [], mbistSpares := [] }))

/-- Does a march report PASS for a bank (R399)? -/
def Tap.pass (t : Tap) (w : Wing) (b : Nat) : Bool :=
  t.mbistEnd && (t.mbistRows ++ t.mbistSpares).all (fun x => x.wing != w || x.bank != b)

/-- Does one row stand before another by wing, bank and row? -/
def rowBefore (a b : RowId) : Bool :=
  decide ((a.wing.num * 64 + a.bank) * 512 + a.row < (b.wing.num * 64 + b.bank) * 512 + b.row)

/-- Insert a row into an ascending list. -/
def insRow (l : List RowId) (x : RowId) : List RowId :=
  match l with
  | [] => [x]
  | y :: t => if rowBefore x y then x :: y :: t else y :: insRow t x

/-- The march completes (R399): the arrays are zeroed, failed spares are marked bad, and failed rows are remapped when LOAD
begins. -/
def State.mbistDone (s : State) (rows spares : List RowId) : State :=
  if !s.tap.mbist then s
  else
    let s1 := s.modTap (fun t => { t with mbist := false, mbistEnd := true, mbistRows := rows, mbistSpares := spares })
    let s2 := each (fun x s => s.modBank x.wing x.bank (fun b => b.spoil x.row)) spares s1.zeroArrays
    ({ s2 with rep := { s2.rep with bistRows := rows.foldl insRow [] } } : State).holdGo

/-! ### Loopbacks (R400) -/

/-- A loopback starts on an OFF or DOWN port (R397, R400). -/
def State.startLoop (s : State) (k : Nat) (m : LoopMode) : State :=
  s.scan (.loop k) (fun s => match (s.port k).state with
    | .off | .down =>
      (s.modPort k (fun p => { p with loop := some m, loopRes := none })).modTap (fun t => { t with
        loopRefused := t.loopRefused &&& ~~~ (BitVec.twoPow 16 k) })
    | _ => s.modTap (fun t => { t with loopRefused := t.loopRefused ||| BitVec.twoPow 16 k }))

/-- A loopback stops with its counts (Table 17.3). -/
def State.stopLoop (s : State) (k errors sent rejected matched : Nat) : State :=
  if (s.port k).loop.isNone then s
  else ((s.modPort k (fun p => { p with loopRes := some (Nat.min 0xFFFFFFFF errors, sent, rejected, matched) })).endLoop k).holdGo

/-! ### Margining (R401) -/

/-- Does a point lie in the ranges of R401? ABORT_AT 0 leaves that field as it is. -/
def marginFits (phase threshold : Int) (dwell abortAt : Nat) : Bool :=
  decide (-32 ≤ phase) && decide (phase ≤ 32) && decide (-50 ≤ threshold) && decide (threshold ≤ 50) && decide (16 ≤ dwell) &&
    decide (dwell ≤ 30) && decide (abortAt ≤ 255)

/-- Receive margining of a FAST port moves to a point (R397, R401). One outside the ranges is REFUSED (DESIGN CHOICE, log 98). -/
def State.startMargin (s : State) (k : Nat) (phase threshold : Int) (dwell abortAt : Nat) : State :=
  s.scan (.margin k) (fun s =>
    if (s.port k).state == .fast && marginFits phase threshold dwell abortAt then
      (s.modPort k (fun p => { p with
        margin := some { phase := phase, threshold := threshold, dwell := dwell, headers := 0, crcs := 0, replays := 0 }
        marginRes := none, abortAt := if abortAt = 0 then p.abortAt else abortAt })).modTap (fun t => { t with
          marginRefused := t.marginRefused &&& ~~~ (BitVec.twoPow 16 k) })
    else s.modTap (fun t => { t with marginRefused := t.marginRefused ||| BitVec.twoPow 16 k }))

/-- A point's dwell ends, or its errors reach ABORT_AT (R401): the offset returns to zero, and the point has its counts. What the row
names adds to what the port has counted itself. -/
def State.endMargin (s : State) (k headers crcs replays : Nat) : State :=
  if (s.port k).margin.isNone then s
  else (s.marginCount k headers crcs replays).modPort k (fun p => match p.margin with
    | none => p
    | some m => { p with margin := none, marginRes := some (m.headers, m.crcs, m.replays, false) })

end Sys2Proof.Machine
end

