-- ==== Sys2Proof/Machine/Commands.lean ====
section
/-! DEFINITION. Commands of agents, sequencers and frames: where a command runs, its checks in the order of R79, admission and
the seam, waiting and re-entry, and the work that a step leaves to its end (R21 to R36, R71 to R95, R112 to R116). -/
namespace Sys2Proof.Machine

/-! ### Who gives a command, and where it runs -/

/-- The caller of a command (R80, R204, R205). -/
def State.callerOf (s : State) (h : Held) : Ctx :=
  let mk (pos dom : Nat) (w : Wing) : Ctx := { pos := pos, dom := dom, inw := w, req := h.req, op := h.op, w := h.w }
  match h.req with
  | .slot p => mk p (s.domOf p) (posWing p)
  | .win e => mk e.pos (s.domOf e.pos) e.win
  | .seq k _ => mk (s.seqEnt k).actPos (s.seqEnt k).dom (seqWing k)
  | .remote _ d => mk 0x3FF d (wingOf h.w.obj.toNat)

/-- The unit that executes a command (Table 1.4). -/
inductive Site where
  | port
  | pipe (file pipe : Nat)
  | regs (w : Wing)
  | always
  | tcu
  | seam
  deriving DecidableEq, Repr

/-- The pipe that owns an object (R19). -/
def Site.ofObj (obj : Nat) : Site := .pipe (fileOf obj) (pipeOf obj)

/-- The wing in whose clock a unit runs, if it is in one. -/
def Site.wing : Site → Option Wing
  | .pipe f _ => some (wingOfFile f)
  | .regs w => some w
  | _ => none

/-- The register port of an offset (Tables 1.4 and 1.6). -/
def regSite (off : Nat) : Site :=
  if off < 0x40000 then .always
  else if off < 0x80000 then .regs .q
  else if off < 0xC0000 then .regs .k
  else if off < 0xC8000 then .regs .q
  else .regs .k

/-- The unit that executes POLL or CANCEL_WAIT of a slot (R24, R25). -/
def State.slotSite (s : State) (p i : Nat) : Site :=
  if i = 7 then .regs (posWing p)
  else match s.slot p i with
    | none => .regs (posWing p)
    | some r => match r.home, r.obj with
      | .tcu, _ => .tcu
      | .wing _, some o => .ofObj o
      | .wing w, none => .regs w

/-- The unit that executes a command (R25). -/
def State.siteOf (s : State) (c : Ctx) : Site :=
  match c.op with
  | .nop => .port
  | .poll => s.slotSite c.pos c.w.slot.toNat
  | .cancelWait => s.slotSite c.pos c.w.slot.toNat
  | .seqStart => .regs (seqWing (c.w.arg.toNat % 32))
  | .seqStop => .regs (seqWing (c.w.arg.toNat % 32))
  | .readReg => regSite c.w.arg.toNat
  | .writeReg => regSite c.w.arg.toNat
  | .clearStatus => regSite c.w.arg.toNat
  | .vote => .tcu
  | .unvote => .tcu
  | .holdRequest => .tcu
  | .holdDone => .tcu
  | .reassign => .seam
  | .remap => .seam
  | _ => .ofObj c.obj

/-- Does a unit answer in deterministic mode (R26)? -/
def State.prompt (s : State) (x : Site) : Bool :=
  match x with
  | .port => true
  | .pipe f _ => s.deterministic (wingOfFile f)
  | .regs w => s.deterministic w
  | _ => false

/-! ### REASSIGN and REMAP (R122, R123) -/

/-- Has a position a bound slot, a held lock or an operation in flight (R122, R123, R212)? -/
def State.engaged (s : State) (p : Nat) : Bool :=
  (List.range 7).any (fun i => (s.slot p i).isSome) || !(s.locksHeld .q p).isEmpty || !(s.locksHeld .k p).isEmpty ||
    s.held.any (fun h => h.req.ofAgent && h.pos == p && h.admitted) || s.glockReqs.any (fun g => g.pos == p) ||
    (List.range 32).any (fun k => (s.seq k).running && (s.seqEnt k).actPos == p)

/-- REASSIGN (R122). -/
def reassignBody (c : Ctx) (s : State) : Res × State :=
  let p := c.w.arg.toNat % 1024
  let d := c.w.data.toNat % 1024
  let e := s.posEnt p
  if !e.enabled || !(s.domain d).enabled || e.dom == d || s.engaged p then (no .refusedState, s)
  else (okv 0, { s with posmap := tset PosEnt.disabled s.posmap p { e with dom := d } })

/-- A list entry after a REMAP from one position to another. -/
def Ent.moved (a b : Nat) (e : Ent) : Ent := if !e.relay && e.who == a then { e with who := b } else e

/-- A body whose list entries have been rewritten by REMAP. -/
def Body.moved (a b : Nat) : Body → Body
  | .barrier x => .barrier { x with members := x.members.map (Ent.moved a b) }
  | .token x => .token { x with givers := x.givers.map (Ent.moved a b) }
  | .ledger x => .ledger { x with consumers := x.consumers.map (Ent.moved a b) }
  | x => x

/-- An object after REMAP. -/
def Obj.moved (a b : Nat) (o : Obj) : Obj := { o with body := o.body.moved a b }

/-- The overflow count of a failed position's notices reaches the spare's queue (R123 step 4). -/
def State.takeOverflow (s : State) (p n : Nat) : State :=
  let q := s.noteQ p
  ({ s with notes := tset NoteQ.empty s.notes p { q with overflow := satAdd 0x7FFF q.overflow n } } : State).beat1 (posWing p) p .set 7

/-- The overflow count goes to the spare's wing as a unit of its own. -/
def State.carryOverflow (s : State) (origin : Wing) (p n : Nat) : State :=
  let w := posWing p
  if n = 0 then s
  else if origin == w && s.active w then s.takeOverflow p n
  else if s.seamOpen w then (s.crossing w).takeOverflow p n
  else (s.toSeam w (.overflow p n)).wake w 3 0

/-- A unit at the seam whose notice is for a position. -/
def SeamUnit.noteFor (a : Nat) (u : SeamUnit) : Bool :=
  match u.item with
  | .note p _ _ => p == a
  | .overflow p _ => p == a
  | _ => false

/-- A unit at the seam with its notice redirected. -/
def SeamUnit.redirect (a b : Nat) (u : SeamUnit) : SeamUnit :=
  match u.item with
  | .note p n by_ => if p = a then { u with item := .note b n by_ } else u
  | .overflow p n => if p = a then { u with item := .overflow b n } else u
  | _ => u

/-- Notices of a failed position go to the spare, in their order (R123 step 4), across the seam where its port lies in the other wing
(R188). Those that wait at the seam change their target; they need not cross when they came from the spare's wing. -/
def State.moveNotes (s : State) (a b : Nat) : State :=
  let q := s.noteQ a
  let v := posWing a
  let go (u : SeamUnit) (s : State) : State := match u.item with
    | .note _ n by_ => s.carryNote (posWing b) b n by_
    | .overflow _ n => s.carryOverflow (posWing b) b n
    | _ => s
  let s1 : State := { s with notes := tset NoteQ.empty s.notes a NoteQ.empty }
  let s2 := (each (fun n s => s.carryNote v b (some n) none) q.words s1).carryOverflow v b q.overflow
  if v = posWing b then { s2 with seam := s2.seam.map (SeamUnit.redirect a b) }
  else each go (s.seam.filter (SeamUnit.noteFor a)) { s2 with seam := s2.seam.filter (fun u => !u.noteFor a) }

/-- REMAP (R123, R316). -/
def remapBody (c : Ctx) (s : State) : Res × State :=
  let a := c.w.arg.toNat % 1024
  let b := c.w.data.toNat % 1024
  let ea := s.posEnt a
  let eb := s.posEnt b
  if !ea.enabled || !eb.spare || eb.enabled || s.engaged a then (no .refusedState, s)
  else
    let swap (x : PosEnt) : PosEnt := if x.schedPos = a then { x with schedPos := b } else x
    let m1 := tset PosEnt.disabled s.posmap b { eb with dom := ea.dom, schedPos := ea.schedPos, enabled := true }
    let m2 := m1.map (fun x => (x.1, swap x.2))
    let m3 := tmod PosEnt.disabled m2 a (fun e => { e with enabled := false })
    let rec_ (r : Resident) : Resident := { r with obj := r.obj.map (Obj.moved a b) }
    let back (r : Backing) : Backing := { r with obj := r.obj.map (Obj.moved a b) }
    let staged := s.stages.filter (fun x => x.1 % 1024 == a)
    let s1 : State := { s with
      posmap := m3
      recs := s.recs.map (fun x => (x.1, x.2.map rec_))
      backing := s.backing.map (fun x => (x.1, x.2.map back))
      stages := each (fun x t => tset none (tset none t x.1 none) (x.1 - a + b) x.2) staged s.stages }
    let s2 := each (fun w s => (s.setVote w b (s.vote w a)).setVote w a false) [Wing.q, Wing.k] s1
    (okv 0, s2.moveNotes a b)

/-! ### The bodies -/

/-- RESIGN (R157, R184, R244, R266). -/
def resignBody (c : Ctx) (s : State) : Res × State :=
  match s.relay c.obj with
  | some r => resignRelay c r s
  | none => resignLocal c s

/-- NOP (Table 3.3): the caller's identity and domain. -/
def nopBody (c : Ctx) (s : State) : Res × State := (okv ((s.identity c.pos).toNat + 2 ^ 26 * c.dom), s)

/-- What a command does once every check before the object's state has passed (R79 check 9). -/
def runBody (c : Ctx) (s : State) : Res × State :=
  match c.op with
  | .nop => nopBody c s
  | .open => openBody c s
  | .close => closeBody c s
  | .bindMembers => bindBody c s
  | .grant => grantBody c s
  | .pin => pinBody c s
  | .unpin => unpinBody c s
  | .arrive => arriveBody c s
  | .arriveWait => arriveBody c s
  | .wait => waitBody c s
  | .poll => pollBody c s
  | .cancelWait => cancelBody c s
  | .semPost => semPostBody c s
  | .semTake => semTakeBody c s
  | .semTry => semTryBody c s
  | .lockAcquire => acquireBody c s
  | .lockTry => acquireBody c s
  | .lockRelease => releaseBody c s
  | .lockHandoff => handoffBody c s
  | .tokenGive => tokenGiveBody c s
  | .tokenTake => tokenTakeBody c s
  | .tokenTry => tokenTryBody c s
  | .flagSet => flagSetBody c s
  | .flagClear => flagClearBody c s
  | .payloadWrite => payloadBody c s
  | .resultRead => resultBody c s
  | .ledgerPost => ledgerPostBody c s
  | .ledgerCheck => ledgerCheckBody c s
  | .ledgerRead => ledgerReadBody c s
  | .vote => voteBody c s
  | .unvote => unvoteBody c s
  | .holdRequest => holdRequestBody c s
  | .holdDone => holdDoneBody c s
  | .seqStart => seqStartBody c s
  | .seqStop => seqStopBody c s
  | .readReg => readRegBody c s
  | .writeReg => writeRegBody c s
  | .clearStatus => clearStatusBody c s
  | .resign => resignBody c s
  | .reassign => reassignBody c s
  | .remap => remapBody c s

/-! ### Holding and answering -/

/-- Put a command among those held, in the order in which they were first held. -/
def insertCame (h : Held) : List Held → List Held
  | [] => [h]
  | g :: t => if h.came < g.came then h :: g :: t else g :: insertCame h t

/-- Hold a command; one that has been admitted counts as an operation in flight of its domain, with an entry of the operation table
(R112). -/
def State.hold (s : State) (h : Held) (pl : Place) (charge : Bool) : State :=
  let w := wingOf h.w.obj.toNat
  let yes := charge && h.req.ofAgent && h.op.onObject && s.opFree w
  let s1 := if yes then s.takeOp w (s.callerOf h).dom else s
  let n := if h.place == pl && h.n != 0 then h.n else s1.seamNext
  let came := if h.came = 0 then s1.seamNext else h.came
  { s1 with held := insertCame { h with place := pl, charged := yes, mates := (0, 0), n := n, came := came } s1.held
            seamNext := s1.seamNext + 1 }

/-- Is a command a deterministic-mode one that a fault held on its path (R27)? -/
def Held.isCaught (h : Held) : Bool :=
  match h.place with
  | .caught _ false => true
  | _ => false

/-- The positions that a REASSIGN or a REMAP moves (R122, R123). -/
def Held.moves (h : Held) : List Nat :=
  match h.op with
  | .reassign => [h.w.arg.toNat % 1024]
  | .remap => [h.w.arg.toNat % 1024, h.w.data.toNat % 1024]
  | _ => []

/-- A staged arrival presented before a reset notice has ended without claiming its block: the block goes as the notice would have it (R87,
R140), unless another such arrival is still to come. -/
def State.endStaged (s : State) (h : Held) : State :=
  let o := h.w.obj.toNat
  if h.mute && h.w.staged && h.op.arrives && (s.stage o h.pos).any (fun g => !g.claimed) &&
      !s.held.any (fun g => g.pos == h.pos && g.mute && g.w.staged && g.op.arrives && g.w.obj == h.w.obj) then s.dropStage o h.pos
  else s

/-- A slot-path command is answered DEFERRED past check 4. -/
def State.deferHeld (s : State) (h : Held) (p cause : Nat) (late : Bool) : State :=
  (s.deferSlot p h.w.tag cause true late h.mute).endStaged h

/-- Give the answer of a command. While that of a REASSIGN or REMAP waits for lane L, it moves its positions still (R124). -/
def State.answer (s : State) (h : Held) (late : Bool) (st : Status) (v : BitVec 51) : State :=
  match h.req with
  | .slot p =>
    if h.mute then s.muteGrant p h.w.obj.toNat st
    else if h.isCaught then s.deliverCaught p h.w.tag st v
    else if late then s.toLaneL p { Late.plain { status := st, tag := h.w.tag, value := v } with moves := h.moves }
    else s.deliver h.req h.w.tag h.w.obj.toNat false false st v
  | q => s.deliver q h.w.tag h.w.obj.toNat late h.mute st v

/-- Answer a command, or let it wait where the slot path would answer DEFERRED (R92, R206). -/
def State.finish (s : State) (h : Held) (late : Bool) (r : Res) : State :=
  match r with
  | .ans st v => (s.answer h late st v).endStaged h
  | .later => s
  | .defer cause => match h.req with
    | .slot p => s.deferHeld h p cause late
    | _ => s.hold h .aside true

/-- The mask of a position's slots 0 to 6 that are not FREE (Table 3.5, log 22). -/
def State.boundMask (s : State) (p : Nat) : Nat :=
  (List.range 7).foldl (fun m i => if (s.slot p i).isSome then m + 2 ^ i else m) 0

/-- Check 8 of R79: the slot is free, and the quota of its wing allows it. -/
def State.slotCheck (s : State) (p i : Nat) (qw : Wing) (d : Nat) : Option Res :=
  if (s.slot p i).isSome then some (.ans .noSlot (BitVec.ofNat 51 (s.boundMask p)))
  else if !s.slotsOk qw d then some (quota 2)
  else none

/-- The opcodes that only domain 0 may use (R77). -/
def serviceOnly : Op → Bool
  | .resign => true
  | .reassign => true
  | .remap => true
  | .clearStatus => true
  | _ => false

/-- Is the path of a later command the same as an earlier one's (R30, R206)? -/
def Req.samePath (a b : Req) : Bool :=
  match a, b with
  | .win e, .win f => e.pos == f.pos
  | .seq k _, .seq j _ => k == j
  | .remote c _, .remote c' _ => c == c'
  | _, _ => false

/-- Did a held command come before another: was it held first? -/
def Held.cameBefore (g h : Held) : Bool := h.came == 0 || decide (g.came < h.came)

/-- Do two commands of one path keep their order: on one object, or operations that one chip has sent (R30, R205)? -/
def Held.keepsOrder (g h : Held) : Bool :=
  g.req.samePath h.req && g.op.onObject && h.op.onObject && !g.bad && (g.w.obj == h.w.obj || (match h.req with
    | .remote _ _ => true
    | _ => false))

/-- Must a command wait behind an earlier one of its own path (R30, R83, R205, R206)? -/
def State.mustFollow (s : State) (h : Held) : Bool := s.held.any (fun g => g.keepsOrder h && g.cameBefore h && g.admitted)

/-- Checks 8 and 9 of R79 for a command on an object whose record is at hand. -/
def State.runHere (s : State) (h : Held) (c : Ctx) (late : Bool) : State :=
  let obj := c.obj
  let w := wingOf obj
  if (s.obj obj).isNone && c.op != .open then s.finish h late (no .notFound)
  else match (if c.op = .wait then s.waitFormat c else none) with
    | some r => s.finish h late (malformed r)
    | none => match (if c.op.waits then s.slotCheck c.pos c.w.slot.toNat w c.dom else none) with
      | some r => s.finish h late r
      | none =>
        -- the OPS quota comes first at check 9 (DESIGN CHOICE, log 78)
        if h.req.ofAgent && !s.opsOkWith h.mates.1 w c.dom then s.finish h late (quota 3)
        else
          let (r, s1) := runBody c s
          s1.finish h late r

/-- A command whose record is not at hand (R116). -/
def State.runMiss (s : State) (h : Held) (late fresh : Bool) : State :=
  let obj := h.w.obj.toNat
  let s1 := if fresh then s.countMiss obj else s
  match h.req, s1.miss obj with
  | .slot p, some s2 => s2.deferHeld h p 5 late
  | .slot p, none => s1.deferHeld h p 1 late
  | _, some s2 => s2.hold h (.file obj) true
  | _, none => s1.hold h .aside true

/-- A command that needs a row which a remap has locked (R353). -/
def State.runLocked (s : State) (h : Held) (late : Bool) : State :=
  match h.req with
  | .slot p => s.deferHeld h p 6 late
  | _ => s.hold h .aside true

/-- A command whose record is at hand reads it (R20) and goes on, unless the read contains its file (R352, Table 12.5). -/
def State.runRead (s : State) (h : Held) (c : Ctx) (late : Bool) (x : Resident) : State :=
  let s1 := (s.keepResident c.obj).readRows c.obj x
  if s1.fileContained c.obj then s1.finish h late (.ans .aborted (BitVec.ofNat 51 c.obj))
  else s1.rewrite (s1.runHere h c late) c.obj x

/-- Does a command find no entry of the operation table (R112)? PAYLOAD_WRITE looks for its own at R139. -/
def State.opFull (s : State) (h : Held) : Bool :=
  h.req.ofAgent && h.op.onObject && h.op != .payloadWrite && !s.opFreeWith h.mates.2 (wingOf h.w.obj.toNat)

/-- A command on an object, from its admission on. `fresh` is set when it reaches its pipe for the first time. -/
def State.runObj (s : State) (h : Held) (c : Ctx) (late fresh : Bool) : State :=
  let obj := c.obj
  let s0 := if fresh && !h.merged then s.perf 1 else s
  if s0.opFull h then (match h.req with
    | .slot p => s0.deferHeld h p 1 late
    | _ => s0.hold h .aside false)
  else if !s0.mayUse c.dom obj then s0.finish h late (no .notFound)
  else if serviceOnly c.op && c.dom != 0 then s0.finish h late (no .refusedState)
  else if s0.fileContained obj then s0.finish h late (.ans .aborted (BitVec.ofNat 51 obj))
  else match s0.resident obj with
    | some x =>
      if s0.rowBusy obj x then s0.runLocked h late
      else s0.runRead h c late x
    | none => s0.runMiss h late fresh

/-- A POLL or CANCEL_WAIT in a pipe is a unit of it (R20, R25), which reads the record of the object that its slot is bound to. -/
def State.slotUnit (s : State) (c : Ctx) (fresh : Bool) : State :=
  match s.siteOf c, (s.slot c.pos c.w.slot.toNat).bind SlotRec.obj with
  | .pipe _ _, some o =>
    let s1 := if fresh then s.perf 1 else s
    (match s1.resident o with
      | some x => s1.readRows o x
      | none => s1)
  | _, _ => s

/-- A command on no object, from check 6 of R79 on. -/
def State.runPlain (s0 : State) (h : Held) (c : Ctx) (late fresh : Bool) : State :=
  let s := s0.slotUnit c fresh
  if serviceOnly c.op && c.dom != 0 then s.finish h late (no .refusedState)
  else match (if c.op.waits then s.slotCheck c.pos c.w.slot.toNat (posWing c.pos) c.dom else none) with
    | some r => s.finish h late r
    | none =>
      let (r, s1) := runBody c s
      s1.finish h late r

/-- A command reaches its unit: check 5 of R79 and all behind it. -/
def State.runCmd (s0 : State) (h : Held) (late fresh : Bool) : State :=
  let c := s0.callerOf h
  let s := match (s0.siteOf c).wing with
    | some w => s0.stir w
    | none => s0
  if s.mustFollow h then s.hold h .aside true
  else if c.op.onObject then s.runObj h c late fresh
  else s.runPlain h c late fresh

/-! ### The seam (R31 to R33) -/

/-- Has a command waited at the seam? -/
def Held.atSeam (h : Held) : Bool :=
  match h.place with
  | .seam _ _ => true
  | _ => false

/-- A command that has been admitted goes to its unit, or waits for the unit's wing (R32, R337). -/
def State.cross (s : State) (h : Held) (late fresh : Bool) : State :=
  let c := s.callerOf h
  match (s.siteOf c).wing with
  | none => s.runCmd h late fresh
  | some w =>
    if w != c.inw && s.contained bSEAM then s.hold h (s.seamPlace w) true
    else if s.active w then (if w != c.inw && !h.atSeam then s.crossing w else s).runCmd h late fresh
    else (s.hold h (s.seamPlace w) true).wake w 3 0

/-! ### The slot path (R26 to R28, R34, R79, R81) -/

/-- Take a rate token of a domain in a wing (R114): none when the bucket is empty. -/
def State.takeToken (s : State) (w : Wing) (d : Nat) : Option State :=
  let e := s.domain d
  if byWing w e.rateQ e.rateK = 0 then some s
  else if byWing w e.depthQ e.depthK ≤ tget 0 s.spent (wd w d) then none
  else some { s with spent := tmod 0 s.spent (wd w d) (fun n => n + 1) }

/-- Checks 1 to 3 of R79: an answer, or the state with the token taken. -/
def State.entryChecks (s : State) (h : Held) (c : Ctx) : Except (Res × State) State :=
  if !(s.posEnt c.pos).enabled then .error (no .notFound, s)
  else match s.takeToken c.inw c.dom with
    | none => .error (quota 6, s)
    | some s1 =>
      if h.bad then .error (malformed 1, s1)
      else match formatReason c.op c.w c.onWindow (s.identity c.pos) with
        | some r => .error (malformed r, s1)
        | none => .ok s1

/-- Does a held command count against the limit of R28: one that is past its capture stage, but no deterministic-mode command
that a fault holds (R27)? -/
def Held.late (h : Held) : Bool :=
  match h.place with
  | .capture _ => false
  | .caught _ late => late
  | _ => true

/-- The slot-path commands of a position that are outstanding in late mode (R28). -/
def State.outstanding (s : State) (p : Nat) : Nat :=
  ((s.lane p).queue.filter (fun l => !l.caught)).length + (s.held.filter (fun h => h.req == .slot p && h.late)).length

/-- Is a position being reassigned or remapped, or a spare, by a command that has been admitted and not answered (R124)? -/
def State.moving (s : State) (p : Nat) : Bool :=
  s.held.any (fun g => !g.bad && g.admitted && g.moves.contains p) ||
    s.lanes.any (fun x => x.2.queue.any (fun l => l.moves.contains p))

/-- Check 4 of R79 on the slot path: the cause of a DEFERRED answer (R27, R28, R33, R124, Table 12.5). `was` is set for a command
from a capture stage. DESIGN CHOICE (log 71): the spec does not order causes 2 and 3; a late-mode command that is a third
outstanding one, or finds 32 units ahead, is answered cause 2 also when the seam's holding buffer is full. -/
def State.admission (s : State) (c : Ctx) (ahead : Nat) (was : Bool) : Option Nat :=
  let x := s.siteOf c
  let late := was || !s.prompt x
  let cross := x.wing.any (fun w => w != c.inw)
  if s.contained (bING c.inw) ∨ s.moving c.pos then some 1
  else if cross && s.contained bSEAM then some 3
  else if x = .port then none
  else if late then
    if 2 ≤ s.outstanding c.pos ∨ 32 ≤ ahead then some 2
    else match x.wing with
      | some w => if !s.active w && !s.seamRoom w then some 3 else none
      | none => none
  else match x.wing with
    | some w => if s.admitLimit w ≤ ahead then some 1 else none
    | none => none

/-- Does an earlier arrival's unit absorb a slot-path arrival (R22): one on the same object with the same ARG value, which was
still ahead of it at the pipe when it was presented, and with no other command on the object between them? -/
def absorbs (l : List (Nat × BitVec 20 × Nat)) (w : CmdW) (ahead : Nat) : Bool :=
  l.any (fun x => x.1 == w.obj.toNat && x.2.1 == w.arg && decide (x.2.2 < ahead))

/-- The arrival units of a pipe after one more slot-path unit on an object: each has one more behind it, and one on that
object absorbs no more unless the unit joined it. -/
def unitsAfter (l : List (Nat × BitVec 20 × Nat)) (op : Op) (w : CmdW) (joined : Bool) : List (Nat × BitVec 20 × Nat) :=
  let l1 := (l.filter (fun x => decide (x.2.2 < 31) && (joined || x.1 != w.obj.toNat))).map (fun x => (x.1, x.2.1, x.2.2 + 1))
  if op.arrives && !joined then l1 ++ [(w.obj.toNat, w.arg, 0)] else l1

/-- A command on an object joins the units of its pipe (R20, R22). -/
def State.joinUnits (s : State) (h : Held) (ahead : Nat) : Held × State :=
  if !h.op.onObject then (h, s)
  else
    let key := 2 * fileOf h.w.obj.toNat + pipeOf h.w.obj.toNat
    let l := tget [] s.trace.groups key
    let joined := h.op.arrives && absorbs l h.w ahead
    ({ h with merged := joined },
     { s with trace := { s.trace with groups := tset [] s.trace.groups key (unitsAfter l h.op h.w joined) } })

/-- The block that holds an earlier slot-path command of the position on the same object, which a later one does not pass
(R30). -/
def State.caughtBy (s : State) (h : Held) : Option Nat :=
  s.held.findSome? (fun g => if g.req == h.req && g.op.onObject && h.op.onObject && g.w.obj == h.w.obj then
    (match g.place with
      | .caught b _ => some b
      | _ => none) else none)

/-- Decode a slot-path command (R79): checks 1 to 4, then its unit. `caught` names a block on its path that enters its safe
state, or has a fault, while the command is under way: in deterministic mode it is then held there (R27). -/
def State.decode (s : State) (h : Held) (ahead : Nat) (caught : Option Nat) (was : Bool) : State :=
  let c := s.callerOf h
  match s.entryChecks h c with
  | .error (r, s1) => s1.finish h was r
  | .ok s1 => match s1.admission c ahead was with
    | some cause => s1.deferSlot c.pos h.w.tag cause true was h.mute
    | none =>
      let x := s1.siteOf c
      let late := was || !s1.prompt x
      let s2 := if late && x != .port then s1.perf 3 else s1
      let (h1, s3) := s2.joinUnits h ahead
      match (if late || x == .port then none else caught).or (s3.caughtBy h) with
      | some b => s3.hold h1 (.caught b late) true
      | none => s3.cross h1 late true

/-- A slot-path command as it is presented. -/
def slotHeld (p : Nat) (mates : Nat × Nat) (op : Op) (bad : Bool) (w : CmdW) : Held :=
  { mute := false, bad := bad, charged := false, merged := false, mates := mates, n := 0, came := 0, place := .capture p, req := .slot p
    op := op, w := w, pos := p }

/-- A command presented in a position's command slot (R34, R63, Table 15.1). -/
def State.presentSlot (s : State) (p ahead : Nat) (caught : Option Nat) (mates : Nat × Nat) (op : Op) (bad : Bool) (w : CmdW) : State :=
  let h := slotHeld p mates op bad w
  if 768 ≤ p then s
  else if !s.ready || s.inReset then s.deferSlot p w.tag 7 false false false
  else if s.active (posWing p) then s.decode h ahead caught false
  else if 2 ≤ (s.held.filter (fun g => g.place == .capture p)).length then s.deferSlot p w.tag 4 false false false
  else (s.hold h (.capture p) false).wake (posWing p) 1 p

/-! ### The queued path (R80, R92 to R95) -/

/-- The home of a slot that NOTIFY binds and the wing whose quota it counts in (R24, R95). -/
def State.notifyHome (s : State) (c : Ctx) : Home × Wing :=
  match s.siteOf c with
  | .pipe f _ => (.wing (wingOfFile f), wingOfFile f)
  | .regs w => (.wing w, w)
  | .tcu => (.tcu, c.inw)
  | _ => (.wing c.inw, c.inw)

/-- NOTIFY binds its slot when the port takes the write (R95), also when its position has been reset since: its answer then reaches no
entry (R87). -/
def State.bindNotify (s : State) (c : Ctx) (e : EntryId) (mute : Bool) : Except Res State :=
  if !c.w.notify then .ok s
  else
    let (home, qw) := s.notifyHome c
    let i := c.w.slot.toNat
    match s.slotCheck c.pos i qw c.dom with
    | some r => .error r
    | none =>
      let obj := if c.op.onObject then some c.obj else none
      let s1 := s.bindSlot c.pos i obj home qw c.dom (BitVec.ofNat 51 (obj.getD 0)) (some e)
      .ok (if mute then s1 else s1.modEntry e (fun x => { x with flight := some i }))

/-- Must the window port leave a command on the mesh (R33, R124, Table 12.5)? -/
def State.windowStuck (s : State) (c : Ctx) : Bool :=
  s.moving c.pos || (s.siteOf c).wing.any (fun w => (w != c.inw && s.contained bSEAM) || (!s.active w && !s.seamRoom w))

/-- Must a write stay on the mesh behind an earlier one of its position on the same object (R30, R83)? -/
def State.behind (s : State) (h : Held) : Bool :=
  !h.bad && s.held.any (fun g => g.keepsOrder h && g.cameBefore h && (match g.place with
    | .window _ => true
    | _ => false))

/-- Is a command of the same response entry still under way (R94)? One presented before a reset notice meets only others
presented before it (R87). -/
def State.entryBusy (s : State) (h : Held) (e : EntryId) : Bool :=
  if h.mute then s.held.any (fun g => g.mute && g.req == h.req && g.admitted) || s.glockReqs.any (fun g => g.mute && g.try_ == some e)
  else (s.entry e).inFlight

/-- A command window port takes a SUBMIT write (R92, R94, R95); `queue` units stand ahead of it at its pipe (R22). -/
def State.takeWin (s : State) (h : Held) (e : EntryId) (queue : Nat) : State :=
  let c := s.callerOf h
  if s.windowStuck c || s.behind h then s.hold h (.window e.win) false
  else if s.entryBusy h e then
    (if h.mute then s else s.modEntry e (fun x => { x with lost := true })).modWing e.win (fun x => { x with
      lostCnt := sat 0x7FFF x.lostCnt })
  else
    let s1 := if h.mute then s else s.modEntry e (fun x => { x with inFlight := true })
    match s1.entryChecks h c with
    | .error (r, s2) => s2.finish h true r
    | .ok s2 => match s2.bindNotify c e h.mute with
      | .error r => s2.finish h true r
      | .ok s3 =>
        let (h1, s4) := s3.joinUnits h queue
        s4.cross h1 true true

/-- A queued-path command as it is presented. -/
def winHeld (win : Wing) (p : Nat) (mates : Nat × Nat) (op : Op) (bad : Bool) (w : CmdW) : Held :=
  { mute := false, bad := bad, charged := false, merged := false, mates := mates, n := 0, came := 0, place := .window win, op := op, w := w
    pos := p
    req := .win { win := win, pos := p, t := w.tag.toNat % 4 } }

/-- A discarded SUBMIT write is counted, and raises BAD_WRITE (R80, R92, Table 12.3). -/
def State.badSubmit (s : State) (w : Wing) : State :=
  if s.inReset then s else (s.modWing w (fun x => { x with badCnt := sat 0xFFFF x.badCnt })).raise (bING w) 1

/-! ### Re-entry -/

/-- A held command goes on (R32, R34, R92, R116). -/
def State.rerun (s0 : State) (h0 : Held) : State :=
  let s := if h0.charged then s0.dropOp (wingOf h0.w.obj.toNat) (s0.callerOf h0).dom else s0
  let h : Held := { h0 with charged := false }
  match h.place, h.req with
  | .capture p, _ =>
    if !s.active (posWing p) || s.contained (bING (posWing p)) then s.hold h h.place false else s.decode h 0 none true
  | .window w, .win e =>
    if !s.active w || s.contained (bING w) then s.hold h h.place false else s.takeWin h e 0
  | .window v, .remote _ _ =>
    let w := wingOf h.w.obj.toNat
    if s.mustWait (some v) w then (s.hold h (s.seamPlace w) true).wake w 3 0
    else
      let (h1, s1) := (s.crossFrom (some v) w).joinUnits h 0
      s1.cross h1 true true
  | .seam _ _, _ => s.cross h true true
  | .caught b _, _ => if s.contained b && !(decide (4 ≤ b) && decide (b < 12)) then s.hold h h.place true else s.cross h true true
  | _, _ => s.cross h true false

/-- Try a held command again: when it must still wait where it waits, nothing changes. -/
def State.tryHeld (s : State) (h : Held) : State :=
  let s1 := ({ s with held := s.held.erase h } : State).rerun h
  if !s.held.contains h then s
  else if s1.held.any (fun g => g.place == h.place && g.n == h.n && g.came == h.came) then s else s1

/-- Commands that wait aside at a command's unit, and came before it, re-enter ahead of a queued-path unit that reaches the unit
(R92). -/
def State.retryFor (s : State) (h : Held) : State :=
  let site := s.siteOf (s.callerOf h)
  match h.req with
  | .win _ => each (fun g s => s.tryHeld g) (s.held.filter (fun g => g.place == .aside && (h.n == 0 || decide (g.n < h.n)) &&
      g.req.ofAgent && s.siteOf (s.callerOf g) == site)) s
  | _ => s

/-- A queued-path command that was held aside, or on the mesh, is tried again (R33, R92). -/
def State.resumeWin (s : State) (win : Wing) (p t : Nat) : State :=
  match s.held.find? (fun h => h.req == .win { win := win, pos := p, t := t } && (match h.place with
    | .aside => true
    | .window _ => true
    | _ => false)) with
  | some h => (s.retryFor h).tryHeld h
  | none => s

/-- A command submitted at a command window (R63, R80, R92, R94). -/
def State.presentWin (s : State) (win : Wing) (p queue : Nat) (mates : Nat × Nat) (op : Op) (bad : Bool) (w : CmdW) : State :=
  let h := winHeld win p mates op bad w
  let e : EntryId := { win := win, pos := p, t := w.tag.toNat % 4 }
  let no7 : Resp := { status := .deferred, tag := w.tag, value := 7 }
  if 768 ≤ p then s.badSubmit win
  else if !s.ready || s.inReset then
    let x := s.entry e
    let s1 := s.modEntry e (fun x => { x with resp := some no7, isDone := true, lost := x.lost || x.isDone })
    if x.isDone then s1.modWing win (fun y => { y with lostCnt := sat 0x7FFF y.lostCnt }) else s1
  else if !s.active win then (s.hold h (.window win) false).wake win 2 p
  else if s.contained (bING win) then s.hold h (.window win) false
  else (s.retryFor h).takeWin h e queue

/-- Errors come into a row (R349 to R352). A ply in it that can no longer be read is a reserved encoding from now on. -/
def State.strikeRow (s : State) (y : RowId × RowFind) : State :=
  let n := 512 * y.1.bank + y.1.row
  let s1 : State := { s with upsets := tmod .clean s.upsets (rowKey y.1.wing n) (fun x => y.2.plus x) }
  if 56 ≤ y.1.bank ∧ y.1.bank < 64 ∧ y.2.lost then s1.plyLost y.1.wing (n - 28672) y.2.lostAt else s1

/-- A unit whose entry in the seam's holding buffer fails parity is answered ABORTED (Table 12.3, ENTRY_PARITY). A ply is fetched again,
and a unit that nobody awaits is lost (DESIGN CHOICE, log 99). -/
def State.loseEntry (s : State) (n : Nat) : State :=
  match s.held.find? (fun h => h.atSeam && h.n == n) with
  | some h =>
    let s1 : State := { s with held := s.held.erase h }
    let s2 := if h.charged then s1.dropOp (wingOf h.w.obj.toNat) (s1.callerOf h).dom else s1
    (s2.finish { h with charged := false } true (.ans .aborted (BitVec.ofNat 51 h.w.obj.toNat))).raise bSEAM 0
  | none => match s.seam.find? (fun u => u.n == n) with
    | some u =>
      let s1 : State := { s with seam := s.seam.erase u }
      (match u.item with
        | .act k a => s1.seqAnswer k a 0 .aborted
        | .note _ _ (some (k, a)) => s1.seqAnswer k a 0 .aborted
        | .ply k => s1.work (.ply k)
        | .met k => s1.work (.met k)
        | _ => s1).raise bSEAM 0
    | none => s

/-- What has come into the hardware before a command is presented takes effect (R333, R343, R349 to R352). -/
def State.strike (s : State) (x : Strikes) : State :=
  let bit (i : Nat) : Nat := if i = 0 then 1 else if i = 1 then 2 else 4
  let s1 := each (fun y s => s.strikeRow y) x.rows s
  let s2 := each (fun n s => s.loseEntry n) x.entries s1
  let s3 := match x.credit with
    | none => s2
    | some true => s2.condOn bSEAM 1
    | some false => s2.condOff bSEAM 1
  let s4 := each (fun (y : Nat × Nat) s => s.modBlk y.1 (fun b => { b with parityIn := b.parityIn ||| bit y.2 })) x.regs s3
  each (fun (y : Nat × Nat) s => s.raise y.1 y.2) x.parity s4

/-- The wing through whose ports or window a command enters. -/
def srcWing (x : Src) : Wing :=
  match x.path with
  | .win v => v
  | _ => posWing x.pos

/-- The command as it is presented on its path. -/
def srcHeld (x : Src) (op : Op) (w : CmdW) : Held :=
  match x.path with
  | .slot _ => slotHeld x.pos x.mates op false w
  | .caught _ _ => slotHeld x.pos x.mates op false w
  | .win v => winHeld v x.pos x.mates op false w

/-- A command presented on either path. -/
def State.present (s0 : State) (x : Src) (op : Op) (bad : Bool) (w : CmdW) : State :=
  let s := (if x.strikes = Strikes.none then s0 else s0.strike x.strikes).stir (srcWing x)
  match x.path with
  | .slot ahead => s.presentSlot x.pos ahead none x.mates op bad w
  | .caught ahead b => s.presentSlot x.pos ahead (some b) x.mates op bad w
  | .win v => s.presentWin v x.pos x.queue x.mates op bad w

/-- Is a held command one of a sequencer or a frame that waits aside? -/
def Held.inner (h : Held) : Bool := h.place == .aside && !h.req.ofAgent

/-- Actions of sequencers and remote operations that wait aside are tried again, in their order (R206, log 2). -/
def State.resumeInner (s : State) : State := each (fun h s => s.tryHeld h) (s.held.filter Held.inner) s

/-! ### Sequencer actions (R206) -/

/-- An action of a sequencer's current ply is issued. -/
def State.runAct (s : State) (k a : Nat) : State :=
  let q := s.seq k
  match q.state, q.cur with
  | .acting, some p | .stopping, some p =>
    match s.actionOf k p a with
    | .cmd op w =>
      let h : Held := { mute := false, bad := false, charged := false, merged := false, mates := (0, 0), n := 0, came := 0, place := .aside
                        req := .seq k a, op := op, w := w, pos := (s.seqEnt k).actPos }
      -- how many units stand ahead of it at its pipe is a FREE VALUE (R22, log 4)
      let (queue, s1) := if op.arrives then s.draw 33 else (0, s)
      let (h1, s2) := s1.joinUnits h queue
      s2.cross h1 true true
    | .wake x => s.wakeAction k a x
    | .holdDone => match s.holdDone (.seq k) with
      | (.ans st _, s1) => s1.seqAnswer k a 0 st
      | (_, s1) => s1
    | .remote chip op obj => s.remoteAction k a chip op obj
  | _, _ => s

/-! ### The end of a step -/

/-- The commands that wait for a record go on, and other units behind them. -/
def State.freePage (s : State) (obj : Nat) : State :=
  (s.freeHeld (fun h => match h.place with
    | .file o => o == obj
    | _ => false)).unpark (.record obj)

/-- Do one piece of work that a pass has left. -/
def State.runWork (s : State) (x : Work) : State :=
  match x with
  | .complete o => s.checkComplete o false
  | .parent o => s.parentGo o
  | .relayArrive o => s.relayArrive o
  | .level key => s.runLevels key
  | .holdsEnded => s.holdsSettle
  | .handover => s.handover
  | .rerun h => (s.retryFor h).rerun h
  | .act k a => s.runAct k a
  | .send f => s.dispatchFrame f
  | .linkDown k => s.linkLost k
  | .front => s.tunResume.takeFront
  | .frame f => s.frameAgain f
  | .levels => s.rekick
  | .note p n by_ => s.takeNote p n by_
  | .put k f => s.putFrame k f
  | .ply k => s.plyCross k
  | .paged obj => s.freePage obj
  | .fall obj => s.flagFallAt obj
  | .walk obj pos => s.secondWalk obj pos
  | .combine obj => s.finishCombine obj
  | .fold f => s.foldNext f
  | .met k => s.metCross k
  | .deadline relay gen level => s.levelDeadline relay gen level
  | .withdraw obj pos slot => s.withdrawNow obj pos slot
  | .orphan obj pos => s.orphanLock obj pos
  | .rowFound w n x => s.rowFound w n x
  | .overflow pos n => s.takeOverflow pos n
  | .sendBy origin f => if f.dst = s.me then s.frameAgain f else (s.sendFrom origin f).2
  | .lvlFall relay gen => s.lvlFall relay gen
  | .noteOn obj => s.noteOn obj
  | .answers g level dest => s.sendAnswers g level dest
  | .resend g chip => s.nodeResend g chip

/-- Do the work that is left, in the order in which it arose, with fuel. -/
def settleGo : Nat → State → State
  | 0, s => s
  | n + 1, s => match s.todo with
    | [] => s
    | x :: t => settleGo n (({ s with todo := t } : State).runWork x)

/-- The highest occupancies of the seam's holding buffers (SEAM_OCC). -/
def State.seamPeaks (s : State) : State := { s with trace := (s.trace.peak .q (s.seamHeld .q)).peak .k (s.seamHeld .k) }

/-- End a step: all work is done and none is left, and the pins follow. The fuel is more than any pass leaves (log 44). -/
def State.settle (s : State) : State := (({ settleGo 65536 s with todo := [] } : State).seamPeaks.aliveNow).flashNow

end Sys2Proof.Machine
end

