-- ==== Sys2Proof/Machine/Agents.lean ====
section
/-! DEFINITION. The rows of agent commands, one meaning each: the command is presented on its path (R71 to R96). -/
namespace Sys2Proof.Machine

/-- What a step that always goes on answers. -/
abbrev Answer := Host.Outcome State Fault Refusal

/-- Present a command and end the step. -/
def State.give (s : State) (x : Src) (op : Op) (bad : Bool) (w : CmdW) : State := (s.present x op bad w).settle

/-- GRANT's word, ARG[10] as the row has it (R110, R111). -/
def grantWord (w : CmdW) (revoke : Bool) : CmdW :=
  { w with arg := BitVec.ofNat 20 (w.arg.toNat / 2048 * 2048 + w.arg.toNat % 1024 + (if revoke then 1024 else 0)) }

/-- NOP (R74). -/
def execNop (src : Src) (w : CmdW) (s : State) : Answer := .next (s.give src .nop false w)

/-- OPEN (R103, R104). -/
def execOpen (src : Src) (w : CmdW) (s : State) : Answer := .next (s.give src .open false w)

/-- CLOSE (R107, R108). -/
def execClose (src : Src) (w : CmdW) (s : State) : Answer := .next (s.give src .close false w)

/-- BIND_MEMBERS (R106). -/
def execBindMembers (src : Src) (w : CmdW) (s : State) : Answer := .next (s.give src .bindMembers false w)

/-- GRANT (R110). -/
def execGrant (src : Src) (w : CmdW) (s : State) : Answer := .next (s.give src .grant false (grantWord w false))

/-- GRANT with ARG[10] at 1 (R111). -/
def execGrantRevoke (src : Src) (w : CmdW) (s : State) : Answer := .next (s.give src .grant false (grantWord w true))

/-- PIN (R109). -/
def execPin (src : Src) (w : CmdW) (s : State) : Answer := .next (s.give src .pin false w)

/-- UNPIN (R109). -/
def execUnpin (src : Src) (w : CmdW) (s : State) : Answer := .next (s.give src .unpin false w)

/-- ARRIVE (R132, R134). -/
def execArrive (src : Src) (w : CmdW) (s : State) : Answer := .next (s.give src .arrive false w)

/-- ARRIVE_WAIT (R132, R134). -/
def execArriveWait (src : Src) (w : CmdW) (s : State) : Answer := .next (s.give src .arriveWait false w)

/-- WAIT (R130, R187, R260). -/
def execWait (src : Src) (w : CmdW) (s : State) : Answer := .next (s.give src .wait false w)

/-- POLL (R84, R86). -/
def execPoll (src : Src) (w : CmdW) (s : State) : Answer := .next (s.give src .poll false w)

/-- CANCEL_WAIT (R85). -/
def execCancelWait (src : Src) (w : CmdW) (s : State) : Answer := .next (s.give src .cancelWait false w)

/-- SEM_POST (R177). -/
def execSemPost (src : Src) (w : CmdW) (s : State) : Answer := .next (s.give src .semPost false w)

/-- SEM_TAKE (R178). -/
def execSemTake (src : Src) (w : CmdW) (s : State) : Answer := .next (s.give src .semTake false w)

/-- SEM_TRY (R179). -/
def execSemTry (src : Src) (w : CmdW) (s : State) : Answer := .next (s.give src .semTry false w)

/-- LOCK_ACQUIRE (R160 to R162). -/
def execLockAcquire (src : Src) (w : CmdW) (s : State) : Answer := .next (s.give src .lockAcquire false w)

/-- LOCK_TRY (R160). -/
def execLockTry (src : Src) (w : CmdW) (s : State) : Answer := .next (s.give src .lockTry false w)

/-- LOCK_RELEASE (R163). -/
def execLockRelease (src : Src) (w : CmdW) (s : State) : Answer := .next (s.give src .lockRelease false w)

/-- LOCK_HANDOFF (R164). -/
def execLockHandoff (src : Src) (w : CmdW) (s : State) : Answer := .next (s.give src .lockHandoff false w)

/-- TOKEN_GIVE (R180). -/
def execTokenGive (src : Src) (w : CmdW) (s : State) : Answer := .next (s.give src .tokenGive false w)

/-- TOKEN_TAKE (R182). -/
def execTokenTake (src : Src) (w : CmdW) (s : State) : Answer := .next (s.give src .tokenTake false w)

/-- TOKEN_TRY (R182). -/
def execTokenTry (src : Src) (w : CmdW) (s : State) : Answer := .next (s.give src .tokenTry false w)

/-- FLAG_SET (R186). -/
def execFlagSet (src : Src) (w : CmdW) (s : State) : Answer := .next (s.give src .flagSet false w)

/-- FLAG_CLEAR (R186). -/
def execFlagClear (src : Src) (w : CmdW) (s : State) : Answer := .next (s.give src .flagClear false w)

/-- PAYLOAD_WRITE (R138). -/
def execPayloadWrite (src : Src) (w : CmdW) (s : State) : Answer := .next (s.give src .payloadWrite false w)

/-- RESULT_READ (R142). -/
def execResultRead (src : Src) (w : CmdW) (s : State) : Answer := .next (s.give src .resultRead false w)

/-- LEDGER_POST (R258). -/
def execLedgerPost (src : Src) (w : CmdW) (s : State) : Answer := .next (s.give src .ledgerPost false w)

/-- LEDGER_CHECK (R259). -/
def execLedgerCheck (src : Src) (w : CmdW) (s : State) : Answer := .next (s.give src .ledgerCheck false w)

/-- LEDGER_READ (R260). -/
def execLedgerRead (src : Src) (w : CmdW) (s : State) : Answer := .next (s.give src .ledgerRead false w)

/-- VOTE (R315). -/
def execVote (src : Src) (w : CmdW) (s : State) : Answer := .next (s.give src .vote false w)

/-- UNVOTE (R315). -/
def execUnvote (src : Src) (w : CmdW) (s : State) : Answer := .next (s.give src .unvote false w)

/-- HOLD_REQUEST (R268). -/
def execHoldRequest (src : Src) (w : CmdW) (s : State) : Answer := .next (s.give src .holdRequest false w)

/-- HOLD_DONE (R272). -/
def execHoldDone (src : Src) (w : CmdW) (s : State) : Answer := .next (s.give src .holdDone false w)

/-- SEQ_START (R214). -/
def execSeqStart (src : Src) (w : CmdW) (s : State) : Answer := .next (s.give src .seqStart false w)

/-- SEQ_STOP (Table 7.7). -/
def execSeqStop (src : Src) (w : CmdW) (s : State) : Answer := .next (s.give src .seqStop false w)

/-- READ_REG (R11, R345). -/
def execReadReg (src : Src) (w : CmdW) (s : State) : Answer := .next (s.give src .readReg false w)

/-- WRITE_REG (R14). -/
def execWriteReg (src : Src) (w : CmdW) (s : State) : Answer := .next (s.give src .writeReg false w)

/-- CLEAR_STATUS (R345). -/
def execClearStatus (src : Src) (w : CmdW) (s : State) : Answer := .next (s.give src .clearStatus false w)

/-- RESIGN (R157, R184, R244, R266). -/
def execResign (src : Src) (w : CmdW) (s : State) : Answer := .next (s.give src .resign false w)

/-- REASSIGN (R122). -/
def execReassign (src : Src) (w : CmdW) (s : State) : Answer := .next (s.give src .reassign false w)

/-- REMAP (R123). -/
def execRemap (src : Src) (w : CmdW) (s : State) : Answer := .next (s.give src .remap false w)

/-- A command whose opcode is reserved (R9): check 3 answers MALFORMED with reason 1. Its fields are not read. -/
def execReservedOpcode (src : Src) (w : CmdW) (_opc : BitVec 6) (s : State) : Answer := .next (s.give src .nop true w)

/-- A write to a command window that is discarded (R80, R91, R92), whatever its stamp: one to SUBMIT, offsets 0x0 to 0xF, is
counted. -/
def execBadSubmit (win : Wing) (x : BadWrite) (s : State) : Answer :=
  .next (if x.off.toNat < 16 then s.badSubmit win else s).settle

end Sys2Proof.Machine
end

