-- ==== Sys2Proof/Machine/Answers.lean ====
section
/-! DEFINITION. The rows of answers, wakes, ticks, paging, combining and resets (R81 to R93, R114 to R119, R141, R151, R170 to R172,
R374). -/
namespace Sys2Proof.Machine

/-- A step of an event of the running block: none happens before ALM_READY or in reset. -/
def State.onReady (s : State) (f : State → State) : State := if s.ready && !s.inReset then (f s).settle else s

/-- A step of an event that may come at any time out of reset. -/
def State.onPower (s : State) (f : State → State) : State := if s.inReset then s else (f s).settle

/-! ### Wake beats at the leaves (R36, R88 to R90) -/

/-- What a good beat does to the bits of its slot at one leaf (Table 3.8). -/
def Leaf.take (l : Leaf) (ty slot : Nat) : Leaf :=
  let m := BitVec.twoPow 8 slot
  if ty = 1 then { ready := l.ready &&& ~~~ m, bound := l.bound ||| m }
  else if ty = 2 then { l with ready := l.ready ||| m }
  else if ty = 3 then { ready := l.ready &&& ~~~ m, bound := if slot = 7 then l.bound else l.bound &&& ~~~ m }
  else l

/-- A beat reaches the 48 leaves of its branch (R88, R90). -/
def State.leafBeat (s : State) (w : Wing) (k : Nat) (x : BitVec 56) : State :=
  let ps := (List.range 48).map (fun i => 48 * k + i)
  if parityBits 56 x.toNat then
    (each (fun p s => s.modLeaf p (fun _ => { ready := 0xFF, bound := 0xFF })) ps s).raise (bWAKE w) 0
  else
    let ty := (x.extractLsb' 53 2).toNat
    let slot := (x.extractLsb' 48 3).toNat
    each (fun p s => if x.getLsbD (p % 48) then s.modLeaf p (fun l => l.take ty slot) else s) ps s

/-- Take the first beat of a branch off a queue. -/
def popBeat (k : Nat) : List (Nat × BitVec 56) → Option (BitVec 56 × List (Nat × BitVec 56))
  | [] => none
  | (j, x) :: t => if j = k then some (x, t) else (popBeat k t).map (fun y => (y.1, (j, x) :: y.2))

/-- One cycle of a branch of a wing's wake bus (R88): its next beat, or the idle beat, with the bits `err` inverted on the
way (R90). -/
def State.busCycle (s : State) (w : Wing) (k : Nat) (err : BitVec 56) : State :=
  if !s.active w then s
  else match popBeat k (s.wing w).beats with
    | some (x, t) => ((s.modWing w (fun y => { y with beats := t })).perf 8).leafBeat w k (x ^^^ err)
    | none => if err = 0 then s else s.leafBeat w k err

/-! ### Ticks (R114, R252, R343) -/

/-- What happens at a µs tick of the timebase (R114, R252, R343). -/
def State.usTick (s : State) : State := if !s.ready then s else ((s.gain 1).parityTick.suspectTick).resumeInner

/-- The next µs tick of the timebase. A slew to lower values may leave the first wait short of it (R248). -/
def State.tick (s : State) : State :=
  let t := s.pass (1000 - s.now % 1000)
  (if t.now / 1000 = s.now / 1000 then t.pass (1000 - t.now % 1000) else t).usTick

/-- One cycle of CLK_AON with no command (log 12): a µs tick that it reaches happens. In reset no time passes. -/
def State.idle (s : State) : State :=
  if s.inReset then s
  else
    let t := s.pass 20
    if t.now / 1000 = s.now / 1000 then t else t.usTick.settle

/-! ### Paging (R117, R119, R378) -/

/-- A page-in completes (R117, R378): one of the 16 in flight. After a second error the waiting commands meet the file's
severity for ECC_UE. -/
def State.pageInDone (s : State) (obj : Nat) (err : Bool) : State :=
  let f := fileOf obj
  if !s.active (wingOf obj) || !((s.file f).pageins.take 16).contains obj then s
  else if err then
    ((s.endPageIn obj).raise (bFIL f) 5).freePage obj
  else if (s.resident obj).isSome then (s.endPageIn obj).freePage obj
  else
    s.installPage obj

/-! ### Late completions (R81) -/

/-- Deterministic-mode commands of a position that a fault held go on once the block that held them is not in its safe state
(R27). -/
def State.letGo (s : State) (p : Nat) : State :=
  each (fun h s => s.tryHeld h) (s.held.filter (fun h => h.req == .slot p && (match h.place with
    | .caught b _ => !s.contained b
    | _ => false))) s

/-- The oldest late-mode completion of a position leaves in lane L (R81); a REFUSED_STATE counts as it is delivered (R115). -/
def State.laneL (s : State) (p : Nat) : State :=
  match (s.lane p).queue with
  | [] => s
  | x :: t =>
    let s1 := s.modLane p (fun l => { l with l := some x.resp, queue := t })
    if x.resp.status = .refusedState then s1.countRefusal (posWing p) p else s1

/-! ### The rows -/

/-- RESPONSE_ENTRY_READ (R91, R93, R95): a read of some bytes at any offset of a command window, in a single access or not. -/
def execResponseEntryRead (win : Wing) (reader : Nat) (off : BitVec 16) (size : Nat) (single : Bool) (s : State) : Answer :=
  .next (s.onPower (fun s => s.readWindow win reader off size single))

/-- LATE_COMPLETION (R81): a response slot is driven while the wing of its port is ACTIVE. -/
def execLateCompletion (pos : Nat) (s : State) : Answer :=
  .next (s.onReady (fun s => if s.active (posWing pos) then (s.letGo pos).laneL pos else s))

/-- QUEUED_COMMAND_RESUME (R33, R92). -/
def execQueuedCommandResume (pos : Nat) (win : Wing) (tag2 : BitVec 2) (s : State) : Answer :=
  .next (s.onReady (fun s => s.resumeWin win pos tag2.toNat))

/-- WAKE_BEAT (R88). -/
def execWakeBeat (w : Wing) (branch : BitVec 4) (err : BitVec 56) (s : State) : Answer :=
  .next (s.onReady (fun s => s.busCycle w branch.toNat err))

/-- RATE_TICK (R114). -/
def execRateTick (s : State) : Answer := .next (s.onPower State.tick)

/-- PAGE_IN (R117). -/
def execPageIn (obj : BitVec 20) (err : Bool) (s : State) : Answer := .next (s.onReady (fun s => s.pageInDone obj.toNat err))

/-- WRITE_BACK (R119). -/
def execWriteBack (obj : BitVec 20) (err : Bool) (s : State) : Answer := .next (s.onReady (fun s => s.writeBackDone obj.toNat err))

/-- OPERAND_FOLD (R141). -/
def execOperandFold (file : BitVec 3) (s : State) : Answer := .next (s.onReady (fun s => s.foldNext file.toNat))

/-- COMBINE_FINISH (R141). -/
def execCombineFinish (obj : BitVec 20) (s : State) : Answer := .next (s.onReady (fun s => s.finishCombine obj.toNat))

/-- FLAG_FALL (R151). -/
def execFlagFall (obj : BitVec 20) (s : State) : Answer := .next (s.onReady (fun s => s.flagFallAt obj.toNat))

/-- SECOND_STALEMATE_WALK (R170). -/
def execSecondStalemateWalk (obj : BitVec 20) (pos : Nat) (s : State) : Answer :=
  .next (s.onReady (fun s => s.secondWalk obj.toNat pos))

/-- RST_NOTIFY (R374). -/
def execRstNotify (pos : Nat) (s : State) : Answer := .next (s.onReady (fun s => s.resetNotice pos))

/-- ORPHANING (R171). -/
def execOrphaning (pos : Nat) (s : State) : Answer := .next (s.onReady (fun s => s.orphanFor pos))

end Sys2Proof.Machine
end

