-- ==== Sys2Proof/Machine/Chips.lean ====
section
/-! DEFINITION. The rows of levels, arbiters, time and sync frames (R228 to R251, R298, R299, R333, R391). A frame row gives
the frame's FTYPE by its name; a frame for this chip or another is received as R290 to R294 say. -/
namespace Sys2Proof.Machine

/-- A frame of a row: its FTYPE is the row's. -/
def State.frameIn (s : State) (k : BitVec 4) (e : Eof) (f : Frame) (ty : BitVec 8) : State :=
  s.onReady (fun s => s.rxPort k.toNat e { f with ftype := ty })

/-- A global-lock frame of a row: its message code (Table 10.11) is the row's. -/
def State.glockIn (s : State) (k : BitVec 4) (e : Eof) (f : Frame) (code : Byte) : State :=
  s.frameIn k e { f with body := code :: f.body.drop 1 } 0x21

/-- GROUP_JOIN (R228). -/
def execGroupJoin (s : State) : Answer := .next (s.onReady State.join)

/-- HELLO (R228). -/
def execHello (k : BitVec 4) (e : Eof) (f : Frame) (s : State) : Answer := .next (s.frameIn k e f 0x01)

/-- HELLO_TIMEOUT (R228). -/
def execHelloTimeout (chip : BitVec 16) (s : State) : Answer := .next (s.onReady (fun s => s.passOver chip))

/-- ALIVE (R240). -/
def execAlive (k : BitVec 4) (e : Eof) (f : Frame) (s : State) : Answer := .next (s.frameIn k e f 0x02)

/-- ALIVE_DUE (R240). -/
def execAliveDue (c : Carrier) (s : State) : Answer := .next (s.onReady (fun s => s.aliveDue c))

/-- CHIP_SILENT (R240, R241, R250). -/
def execChipSilent (chip : BitVec 16) (s : State) : Answer := .next (s.onReady (fun s => s.chipSilent chip))

/-- ARRIVAL (R233). -/
def execArrival (k : BitVec 4) (e : Eof) (f : Frame) (s : State) : Answer := .next (s.frameIn k e f 0x10)

/-- HALF1 (R237). -/
def execHalf1 (k : BitVec 4) (e : Eof) (f : Frame) (s : State) : Answer := .next (s.frameIn k e f 0x11)

/-- RS_WORD (R235). -/
def execRsWord (k : BitVec 4) (e : Eof) (f : Frame) (s : State) : Answer := .next (s.frameIn k e f 0x12)

/-- RELEASE (R233). -/
def execRelease (k : BitVec 4) (e : Eof) (f : Frame) (s : State) : Answer := .next (s.frameIn k e f 0x18)

/-- AG_WORD (R235). -/
def execAgWord (k : BitVec 4) (e : Eof) (f : Frame) (s : State) : Answer := .next (s.frameIn k e f 0x19)

/-- HALF1_DOWN (R237). -/
def execHalf1Down (k : BitVec 4) (e : Eof) (f : Frame) (s : State) : Answer := .next (s.frameIn k e f 0x1A)

/-- TAKEOVER (R241). -/
def execTakeover (k : BitVec 4) (e : Eof) (f : Frame) (s : State) : Answer := .next (s.frameIn k e f 0x04)

/-- ANSWER (R241). -/
def execAnswer (k : BitVec 4) (e : Eof) (f : Frame) (s : State) : Answer := .next (s.frameIn k e f 0x05)

/-- SUSPECT (R251). -/
def execSuspect (k : BitVec 4) (e : Eof) (f : Frame) (s : State) : Answer := .next (s.frameIn k e f 0x06)

/-- SUSPECT_FORGET (R250). -/
def execSuspectForget (chip : BitVec 16) (level : BitVec 2) (group : BitVec 8) (s : State) : Answer :=
  .next (s.onReady (fun s => s.forget chip level group))

/-- RESIGN_FRAME (R245). -/
def execResignFrame (k : BitVec 4) (e : Eof) (f : Frame) (s : State) : Answer := .next (s.frameIn k e f 0x07)

/-- FALL (R239). -/
def execFall (k : BitVec 4) (e : Eof) (f : Frame) (s : State) : Answer := .next (s.frameIn k e f 0x08)

/-- LEVEL_DEADLINE (R239). -/
def execLevelDeadline (relay : BitVec 20) (gen : BitVec 32) (level : BitVec 2) (s : State) : Answer :=
  .next (s.onReady (fun s => s.levelDeadline relay.toNat gen level.toNat))

/-- TIME (R247, R248). -/
def execTime (k : BitVec 4) (e : Eof) (f : Frame) (s : State) : Answer := .next (s.frameIn k e f 0x03)

/-- TIME_EXCHANGE_DUE (R247). -/
def execTimeExchangeDue (s : State) : Answer := .next (s.onReady State.timeDue)

/-- PROBE_DUE (R391). -/
def execProbeDue (ctx : Nat) (s : State) : Answer := .next (s.onReady (fun s => s.probe ctx))

/-- REMOTE (R205). -/
def execRemote (k : BitVec 4) (e : Eof) (f : Frame) (s : State) : Answer := .next (s.frameIn k e f 0x20)

/-- GLOCK_REQUEST (R174). -/
def execGlockRequest (k : BitVec 4) (e : Eof) (f : Frame) (s : State) : Answer := .next (s.glockIn k e f 0)

/-- GLOCK_RELEASE (R174). -/
def execGlockRelease (k : BitVec 4) (e : Eof) (f : Frame) (s : State) : Answer := .next (s.glockIn k e f 1)

/-- GLOCK_GRANT (R175). -/
def execGlockGrant (k : BitVec 4) (e : Eof) (f : Frame) (s : State) : Answer := .next (s.glockIn k e f 2)

/-- GLOCK_ORPHAN_REPORT (R176). -/
def execGlockOrphanReport (k : BitVec 4) (e : Eof) (f : Frame) (s : State) : Answer := .next (s.glockIn k e f 3)

/-- GLOCK_WITHDRAWAL (R165). -/
def execGlockWithdrawal (k : BitVec 4) (e : Eof) (f : Frame) (s : State) : Answer := .next (s.glockIn k e f 4)

/-- RESERVED_FTYPE (R299): only a frame whose FTYPE Table 10.11 reserves. -/
def execReservedFtype (k : BitVec 4) (e : Eof) (f : Frame) (s : State) : Answer :=
  .next (if ftypeKnown f.ftype.toNat then s else s.frameIn k e f f.ftype)

/-- EXCHANGE_TIMEOUT (R333). -/
def execExchangeTimeout (s : State) : Answer := .next (s.onReady State.exchangeTimeout)

/-- STANDBY_COPY (R176). -/
def execStandbyCopy (c : GlockCopy) (s : State) : Answer := .next (s.onReady (fun s => s.takeCopy c))

/-- STANDBY_COPY_TIMEOUT (R333). -/
def execStandbyCopyTimeout (kind : CopyKind) (s : State) : Answer := .next (s.onReady (fun s => s.copyTimeout kind))

end Sys2Proof.Machine
end

