-- ==== Sys2Proof/Machine/Clears.lean ====
section
/-! DEFINITION. The rows that are one register write each: a WRITE_REG command of the offset and the value (R14, R42, R67, R96,
R126, R191, R222, R251, R254, R274, R306, R328, R362, R403, R404). -/
namespace Sys2Proof.Machine

/-- The word of WRITE_REG (Table 3.3). -/
def writeWord (tag : BitVec 8) (off value : Nat) : CmdW :=
  { slot := 0, prio := 0, tag := tag, wait := false, eager := false, staged := false, notify := false, obj := 0
    arg := BitVec.ofNat 20 off, data := BitVec.ofNat 64 value }

/-- Present WRITE_REG of an offset and a value. -/
def State.giveWrite (s : State) (x : Src) (tag : BitVec 8) (off value : Nat) : State :=
  s.give x .writeReg false (writeWord tag off value)

/-- A bit's value. -/
def bitValue (i : Nat) : Nat := 2 ^ i

/-- ING_LOAD.CLR_CNT (R42). -/
def execIngLoadClrCnt (src : Src) (tag : BitVec 8) (w : Wing) (s : State) : Answer :=
  .next (s.giveWrite src tag (byWing w 0x70040 0xB0040) (bitValue 16))

/-- ING_WIN.CLR (R96). -/
def execIngWinClr (src : Src) (tag : BitVec 8) (w : Wing) (s : State) : Answer :=
  .next (s.giveWrite src tag (byWing w 0x70044 0xB0044) (bitValue 31))

/-- ING_REFUSE.CLR (R126). -/
def execIngRefuseClr (src : Src) (tag : BitVec 8) (w : Wing) (s : State) : Answer :=
  .next (s.giveWrite src tag (byWing w 0x70058 0xB0058) (bitValue 31))

/-- FIL_PAGE.CLR (R126). -/
def execFilPageClr (src : Src) (tag : BitVec 8) (file : BitVec 3) (s : State) : Answer :=
  .next (s.giveWrite src tag (faultBase (bFIL file.toNat) + 0x44) (bitValue 31))

/-- FIL_LEDGER.CLR (R274). -/
def execFilLedgerClr (src : Src) (tag : BitVec 8) (file : BitVec 3) (s : State) : Answer :=
  .next (s.giveWrite src tag (faultBase (bFIL file.toNat) + 0xA0) (bitValue 31))

/-- WAKE_NOTE.CLR (R191). -/
def execWakeNoteClr (src : Src) (tag : BitVec 8) (w : Wing) (s : State) : Answer :=
  .next (s.giveWrite src tag (byWing w 0x78040 0xB8040) (bitValue 31))

/-- SEQ_PAGE.CLR (R222). -/
def execSeqPageClr (src : Src) (tag : BitVec 8) (w : Wing) (s : State) : Answer :=
  .next (s.giveWrite src tag (byWing w 0x58000 0x98000) (bitValue 31))

/-- CMB_LVLERR.CLR (R254). -/
def execCmbLvlerrClr (src : Src) (tag : BitVec 8) (w : Wing) (s : State) : Answer :=
  .next (s.giveWrite src tag (byWing w 0x60120 0xA0120) (bitValue 31))

/-- TCU_SUSPCTL.CLR_ALL (R251). -/
def execClrAll (src : Src) (tag : BitVec 8) (s : State) : Answer := .next (s.giveWrite src tag 0x1010C (bitValue 31))

/-- TCU_SUSPCTL.CLR_SEL (R251). -/
def execClrSel (src : Src) (tag : BitVec 8) (s : State) : Answer := .next (s.giveWrite src tag 0x1010C (bitValue 30))

/-- SHP_CNT0.CLR (R306). -/
def execShpCnt0Clr (src : Src) (tag : BitVec 8) (k : BitVec 4) (s : State) : Answer :=
  .next (s.giveWrite src tag (faultBase (bSHP k.toNat) + 0x48) (bitValue 31))

/-- TUN_CNT.CLR (R306). -/
def execTunCntClr (src : Src) (tag : BitVec 8) (s : State) : Answer := .next (s.giveWrite src tag 0xE010C (bitValue 31))

/-- TCU_HOLDCNT.CLR (R274). -/
def execTcuHoldcntClr (src : Src) (tag : BitVec 8) (s : State) : Answer := .next (s.giveWrite src tag 0x10144 (bitValue 31))

/-- TCU_PWRCNT.CLR (R328). -/
def execTcuPwrcntClr (src : Src) (tag : BitVec 8) (s : State) : Answer := .next (s.giveWrite src tag 0x1019C (bitValue 31))

/-- REP_SCRUB.CLR (R362). -/
def execRepScrubClr (src : Src) (tag : BitVec 8) (w : Wing) (s : State) : Answer :=
  .next (s.giveWrite src tag (byWing w 0x30040 0x30044) (bitValue 31))

/-- IML_FLASH.RELEASE to 1 (R67). -/
def execFlashRelease (src : Src) (tag : BitVec 8) (s : State) : Answer := .next (s.giveWrite src tag 0x20014 (bitValue 31))

/-- IML_FLASH.RELEASE to 0 (R67). -/
def execFlashReclaim (src : Src) (x : Reclaim) (s : State) : Answer :=
  .next (({ s with iml := { s.iml with sfdp := x.sfdp } } : State).giveWrite src x.tag 0x20014 0)

/-- A write of the trace buffer's controls (R11, R403). The TRACE instrument controls it as its registers do, always (R397). -/
def execTraceEnable (by_ : TraceBy) (reg : TraceReg) (value : BitVec 32) (s : State) : Answer :=
  match by_, reg with
  | .agent src tag, .ctl => .next (s.giveWrite src tag 0x10200 value.toNat)
  | .agent src tag, .sel => .next (s.giveWrite src tag 0x10208 value.toNat)
  | .agent src tag, .data => .next (s.giveWrite src tag 0x1020C value.toNat)
  | .test, r => .next (s.traceScan r value)

/-- TCU_PCSEL[n] (R404). -/
def execPcselWrite (src : Src) (tag : BitVec 8) (n : BitVec 2) (code : BitVec 4) (s : State) : Answer :=
  .next (s.giveWrite src tag (0x10230 + 4 * n.toNat) code.toNat)

end Sys2Proof.Machine
end

