-- ==== Sys2Proof/Machine/Pins.lean ====
section
/-! DEFINITION. The levels of the block's output signals (Table 15.1), and its accesses to the flash (R44, R384). REG_EN, REG_LVL, OSC_EN
and MEM_LVL are fields of a wing's `Pwr`, and WK_RDY those of a position's `Leaf`. -/
namespace Sys2Proof.Machine

/-- WK_LINE of a position: any ready bit of a bound slot is set (R35). -/
def State.wkLine (s : State) (p : Nat) : Bool := (s.leaf p).ready &&& (s.leaf p).bound != 0

/-- ALM_READY. -/
def State.almReady (s : State) : Bool := s.ready && !s.inReset

/-- An ALM_IRQ line: low before ALM_READY, but for ALM_IRQ_IML in HALTED (R63, R331, R377). -/
def State.irqLine (s : State) (b : Nat) : Bool :=
  !s.inReset && s.irq b && (s.ready || (b == bIML && s.iml.stage == .halted))

/-- RST_NOTIFY_ACK: high from AON_UP, low while the buffer of 16 notices is full (R374). -/
def State.rstNotifyAck (s : State) : Bool := !s.inReset && decide (s.resets.length < 16)

/-- HOLD_ACT (R376). -/
def State.holdAct (s : State) : Bool := s.holds.recs.any (fun h => h.granted.isSome)

/-- HOLD_FRC (R376). -/
def State.holdFrc (s : State) : Bool := s.holds.forced

/-- THR_ACK of a wing: high until ALM_READY and in HALTED (R311). -/
def State.thrAckPin (s : State) (w : Wing) : Bool := !s.almReady || (s.pwr w).thrAck

/-- RING_RX ready: the front latch is free, or kingside takes what comes (R40, R373). -/
def State.ringReady (s : State) : Bool := s.almReady && s.tun.front.isNone

/-! ### Balls (R67, R384, R394) -/

/-- A ball output. -/
inductive Ball where
  | aliveOut
  | flCsN
  | flSck
  | flDq (i : Nat)
  | flResetN
  | tdo
  deriving DecidableEq, Repr

/-- The cell of the boundary register for a ball output: the balls but the Shaut pairs stand in the order of Table 15.1 (DESIGN CHOICE,
log 98). TDO belongs to the test access port itself. -/
def Ball.cell : Ball → Option Nat
  | .aliveOut => some 2
  | .flCsN => some 7
  | .flSck => some 8
  | .flDq i => some (9 + i)
  | .flResetN => some 18
  | .tdo => none

/-- Is the flash read in 1S-1S-1S mode: in DISCOVERY, and where VERIFY reads the version field (R44, R57)? -/
def State.flashSingle (s : State) : Bool := s.iml.stage == .discovery || s.iml.stage == .verify

/-- The level of a ball output while no instruction to the flash is under way (log 98); none for high impedance. A released flash's balls
are not driven (R67), and FL_DQ[3:2] are high in 1S-1S-1S mode (R384). -/
def State.ownBall (s : State) (b : Ball) : Option Bool :=
  match b with
  | .aliveOut => some s.aliveOut
  | .flCsN => if s.iml.released then none else some true
  | .flSck => if s.iml.released then none else some false
  | .flDq i => if !s.inReset && s.flashSingle && (i == 2 || i == 3) then some true else none
  | .flResetN => if s.iml.released then none else some s.pins.flResetN
  | .tdo => none

/-- The level of a ball output: in EXTEST its cell of the boundary register drives it (R394). -/
def State.ball (s : State) (b : Ball) : Option Bool :=
  match s.tap.ir, b.cell with
  | .extest, some i => some (s.tap.boundary.getD i false)
  | _, _ => s.ownBall b

/-! ### Accesses to the flash (R44, R57, R384) -/

/-- How a flash instruction gives its address (R44): with three bytes, as an instruction with four, or in the 4-byte address mode. -/
inductive AddrForm where
  | three
  | fourInstr
  | fourMode
  deriving DecidableEq, Repr

/-- The address form for an offset (R44). -/
def addrForm (x : Sfdp) (off : Nat) : AddrForm :=
  if off < 2 ^ 24 then .three else if x.fourByte then .fourInstr else .fourMode

/-- A read instruction: data mode (2 octal, 1 quad), offset, length, dummy cycles and address form. -/
structure FlashRead where
  mode    : Nat
  off     : Nat
  len     : Nat
  dummies : Nat
  form    : AddrForm
  deriving DecidableEq, Repr

/-- The read instructions for an area of the flash (R44): each covers at most one aligned 4 KiB block. -/
def State.flashReads (s : State) (off len : Nat) : List FlashRead :=
  (List.range ((off + len + 4095) / 4096 - off / 4096)).map (fun i =>
    let lo := Nat.max off (4096 * (off / 4096 + i))
    let hi := Nat.min (off + len) (4096 * (off / 4096 + i + 1))
    { mode := s.iml.flashMode, off := lo, len := hi - lo, dummies := s.iml.sfdp.dummies, form := addrForm s.iml.sfdp lo })

/-- The data mode in which an output reaches the flash (R57, R384): writes go in the mode that discovery chose, the version field is read in
1S-1S-1S mode, which is 0 here. -/
def State.flashWay (s : State) : Out → Option Nat
  | .repairRecord _ _ _ | .compacted _ _ | .sectorErase _ | .bootRecord _ _ _ => some s.iml.flashMode
  | .otpRead _ _ _ _ => some 0
  | _ => none

end Sys2Proof.Machine
end

