-- ==== Sys2Proof/Machine/Ports.lean ====
section
/-! DEFINITION. The rows of the Shaut ports and the tunnel port (R279 to R305, R371). Every quiet frame that a port hears tells it that its
sender lives (R240), also one that the port's mask drops (log 93). -/
namespace Sys2Proof.Machine

/-- QUIET_WAKE_Q (R280). -/
def execQuietWakeQ (k seat : BitVec 4) (s : State) : Answer := .next (s.onPower (fun s => (s.quietHeard k.toNat seat.toNat).quietWake k.toNat seat.toNat .q))

/-- QUIET_WAKE_K (R280). -/
def execQuietWakeK (k seat : BitVec 4) (s : State) : Answer := .next (s.onPower (fun s => (s.quietHeard k.toNat seat.toNat).quietWake k.toNat seat.toNat .k))

/-- QUIET_ARRIVAL (R286). -/
def execQuietArrival (k seat : BitVec 4) (s : State) : Answer := .next (s.onPower (fun s => (s.quietHeard k.toNat seat.toNat).quietArrive k.toNat seat.toNat))

/-- QUIET_TIME (R284). -/
def execQuietTime (k seat : BitVec 4) (s : State) : Answer := .next (s.onReady (fun s => s.quietTime k.toNat seat.toNat))

/-- QUIET_ALIVE (R280, R285). -/
def execQuietAlive (k seat : BitVec 4) (s : State) : Answer := .next (s.onPower (fun s => s.quietAlive k.toNat seat.toNat))

/-- QUIET_ACK (R281, R283). -/
def execQuietAck (k seat : BitVec 4) (s : State) : Answer :=
  .next (s.onPower (fun s => (s.quietHeard k.toNat seat.toNat).quietAcked k.toNat))

/-- QUIET_COLD (R283). -/
def execQuietCold (k seat : BitVec 4) (s : State) : Answer :=
  .next (s.onPower (fun s => (s.quietHeard k.toNat seat.toNat).quietCold k.toNat))

/-- QUIET_TIME_MARK_DUE (R284). -/
def execQuietTimeMarkDue (s : State) : Answer := .next (s.onReady State.quietMarks)

/-- QUIET_ACK_TIMEOUT (R281). -/
def execQuietAckTimeout (k : BitVec 4) (s : State) : Answer := .next (s.onPower (fun s => s.quietTimeout k.toNat))

/-- COLD_ACK_TIMEOUT (R283). -/
def execColdAckTimeout (k : BitVec 4) (s : State) : Answer := .next (s.onPower (fun s => s.coldTimeout k.toNat))

/-- TRAINING_PHASE_DONE (R285). -/
def execTrainingPhaseDone (k : BitVec 4) (s : State) : Answer := .next (s.onPower (fun s => s.phaseDone k.toNat))

/-- TRAINING_TIMEOUT (R285). -/
def execTrainingTimeout (k : BitVec 4) (s : State) : Answer := .next (s.onPower (fun s => s.phaseTimeout k.toNat))

/-- RETRAIN_DUE (R285). -/
def execRetrainDue (k : BitVec 4) (s : State) : Answer := .next (s.onPower (fun s => s.retrain k.toNat))

/-- RESUME_LOCK (R286). -/
def execResumeLock (k : BitVec 4) (s : State) : Answer := .next (s.onPower (fun s => s.resumeLock k.toNat))

/-- QUIESCE_START (R287). -/
def execQuiesceStart (k : BitVec 4) (s : State) : Answer := .next (s.onPower (fun s => s.quiesceStart k.toNat))

/-- QUIESCE (R287). -/
def execQuiesce (k : BitVec 4) (ack : BitVec 8) (s : State) : Answer := .next (s.onPower (fun s => s.quiesceBlock k.toNat ack))

/-- IDLE_BLOCK (R289, R290, R292). -/
def execIdleBlock (k : BitVec 4) (ack : BitVec 8) (crVl : BitVec 2) (crCnt : BitVec 4) (s : State) : Answer :=
  .next (s.onPower (fun s => s.idleBlock k.toNat ack crVl.toNat crCnt.toNat))

/-- NAK (R291). -/
def execNak (k : BitVec 4) (lseq ack : BitVec 8) (s : State) : Answer := .next (s.onPower (fun s => s.nakBlock k.toNat lseq ack))

/-- REFUSE (R293). -/
def execRefuse (k : BitVec 4) (lseq ack : BitVec 8) (crVl : BitVec 2) (crCnt : BitVec 4) (s : State) : Answer :=
  .next (s.onPower (fun s => s.refuseBlock k.toNat lseq ack crVl.toNat crCnt.toNat))

/-- TRAIN_BLOCK (R285). -/
def execTrainBlock (k : BitVec 4) (chip : BitVec 16) (build : BitVec 32) (s : State) : Answer :=
  .next (s.onPower (fun s => s.trainBlock k.toNat chip build))

/-- REPLAY_TIMEOUT (R291). -/
def execReplayTimeout (k : BitVec 4) (s : State) : Answer := .next (s.onPower (fun s => s.replayTimeout k.toNat))

/-- REFUSE_RESEND (R293). -/
def execRefuseResend (k : BitVec 4) (s : State) : Answer := .next (s.onPower (fun s => s.refuseResend k.toNat))

/-- QUIET_FRAME_BAD (R279): the frame is counted and has no effect. -/
def execQuietFrameBad (k : BitVec 4) (s : State) : Answer :=
  .next (s.onPower (fun s =>
    if (s.port k.toNat).hears then s.modPort k.toNat (fun p => { p with qbad := sat 0xFFFF p.qbad }) else s))

/-- BAD_FRAME (R290). -/
def execBadFrame (k : BitVec 4) (s : State) : Answer := .next (s.onPower (fun s => s.badFrame k.toNat))

/-- TUNNEL_DATA (R303). -/
def execTunnelData (p : Packet) (s : State) : Answer := .next (s.onReady (fun s => s.rxPacket 1 p))

/-- TUNNEL_ACK (R303). -/
def execTunnelAck (p : Packet) (s : State) : Answer := .next (s.onReady (fun s => s.rxPacket 2 p))

/-- TUNNEL_OPEN (R302). -/
def execTunnelOpen (p : Packet) (s : State) : Answer := .next (s.onReady (fun s => s.rxPacket 3 p))

/-- OPEN_ACK (R302, R371). -/
def execOpenAck (p : Packet) (s : State) : Answer := .next (s.onReady (fun s => s.rxPacket 4 p))

/-- ACK_DELAY (R303). -/
def execAckDelay (ctx : Nat) (s : State) : Answer := .next (s.onReady (fun s => s.ackDelay ctx))

/-- RETRANSMIT_TIMEOUT (R304). -/
def execRetransmitTimeout (ctx : Nat) (s : State) : Answer := .next (s.onReady (fun s => s.retxTimeout ctx))

/-- RING_PATH_FAIL (R305). -/
def execRingPathFail (chip : BitVec 16) (s : State) : Answer := .next (s.onReady (fun s => s.ringFail chip))

/-- EDGE_RETRY (R305). -/
def execEdgeRetry (ctx : Nat) (s : State) : Answer := .next (s.onReady (fun s => s.edgeRetry ctx))

/-- OPEN_BUSY_RETRY (R371). -/
def execOpenBusyRetry (ctx : Nat) (s : State) : Answer := .next (s.onReady (fun s => s.busyRetry ctx))

end Sys2Proof.Machine
end

