-- ==== Sys2Proof/Machine/Starts.lean ====
section
/-! DEFINITION. The rows of reset and start-up, and of test access (R44 to R70, R380, R393 to R401). -/
namespace Sys2Proof.Machine

/-- PORESET_N_ASSERT (R380). -/
def execPoresetAssert (s : State) : Answer := .next s.assertReset

/-- PORESET_N_RELEASE (R59). -/
def execPoresetRelease (s : State) : Answer := .next s.releaseReset

/-- AON_UP (R59). -/
def execAonUp (romOk : Bool) (s : State) : Answer := .next (s.onPower (fun s => s.aonDone romOk))

/-- WING_UP (R59, R398). -/
def execWingUp (s : State) : Answer := .next (s.onPower State.wingsUp)

/-- WING_POWER_TIMEOUT (R60). -/
def execWingPowerTimeout (s : State) : Answer := .next (s.onPower State.wingTimeout)

/-- DISCOVERY (R44 to R49). -/
def execDiscovery (sfdp : Sfdp) (dir0 dir1 : List Byte) (s : State) : Answer :=
  .next (s.onPower (fun s => s.discover sfdp dir0 dir1))

/-- LOAD (R50 to R54, R58). -/
def execLoad (r : SlotRead) (s : State) : Answer := .next (s.onPower (fun s => s.loadSlot r))

/-- VERIFY (R55 to R58). -/
def execVerify (otp : OtpRead) (s : State) : Answer := .next (s.onPower (fun s => s.verifySlot otp))

/-- BIST (R61). -/
def execBist (corrected bad : List RowId) (s : State) : Answer := .next (s.onPower (fun s => s.bistDone corrected bad))

/-- REPAIR (R61, R66, R361). -/
def execRepair (c0 c1 : List (BitVec 256)) (boots : BootArea) (bad : Option RowId) (s : State) : Answer :=
  .next (s.onPower (fun s => s.repairDone c0 c1 boots.first boots.second bad))

/-- LINK_TRAIN (R59, R62, R214, R315). -/
def execLinkTrain (s : State) : Answer := .next (s.onPower State.becomeReady)

/-- TAP_RESET (R393). -/
def execTapReset (s : State) : Answer := .next s.tapReset.settle

/-- EXTEST (R395). -/
def execExtest (s : State) : Answer := .next s.selectExtest

/-- SAMPLE_PRELOAD (R394). -/
def execSamplePreload (balls : List Bool) (s : State) : Answer := .next (s.sample balls)

/-- IDCODE (R394). -/
def execIdcode (s : State) : Answer := .next (s.setInstr .idcode)

/-- IJTAG (R394, R398). -/
def execIjtag (holdBoot : Bool) (s : State) : Answer := .next (s.selectIjtag holdBoot).settle

/-- WRAP_SEL (R394). -/
def execWrapSel (s : State) : Answer := .next (s.setInstr .wrapSel)

/-- BYPASS (R394). -/
def execBypass (s : State) : Answer := .next s.selectBypass

/-- INTEST (R396). -/
def execIntest (s : State) : Answer := .next s.intest

/-- REGREAD (R397). -/
def execRegread (off : BitVec 20) (s : State) : Answer := .next (s.regRead off.toNat)

/-- HOLD_BOOT_CLEAR (R398). -/
def execHoldBootClear (s : State) : Answer := .next s.clearHold.settle

/-- MBIST (R399). -/
def execMbist (s : State) : Answer := .next s.startMbist

/-- MBIST_DONE (R399). -/
def execMbistDone (rows spares : List RowId) (s : State) : Answer := .next (s.mbistDone rows spares).settle

/-- LOOPBACK (R400). -/
def execLoopback (k : BitVec 4) (mode : LoopMode) (s : State) : Answer := .next (s.startLoop k.toNat mode)

/-- LOOPBACK_STOP (R400). -/
def execLoopbackStop (k : BitVec 4) (errors sent rejected matched : Nat) (s : State) : Answer :=
  .next (s.onPower (fun s => s.stopLoop k.toNat errors sent rejected matched))

/-- MARGIN (R401). -/
def execMargin (k : BitVec 4) (phase threshold : Int) (dwell abortAt : Nat) (s : State) : Answer :=
  .next (s.startMargin k.toNat phase threshold dwell abortAt)

/-- MARGIN_DWELL_END (R401). -/
def execMarginDwellEnd (k : BitVec 4) (headers crcs replays : Nat) (s : State) : Answer :=
  .next (s.endMargin k.toNat headers crcs replays)

/-- PATHDLY (R397). -/
def execPathdly (count : Nat) (s : State) : Answer := .next (s.pathDelay count)

end Sys2Proof.Machine
end

