-- ==== Sys2Proof/Machine/Tempo.lean ====
section
/-! DEFINITION. The rows of sequencers and holds (R201 to R220, R271, R272). -/
namespace Sys2Proof.Machine

/-- SEQ_WAIT_MET (R201). -/
def execSeqWaitMet (k : BitVec 5) (s : State) : Answer := .next (s.onReady (fun s => s.seqMet k.toNat))

/-- SEQ_TIME_WAIT (R202). -/
def execSeqTimeWait (k : BitVec 5) (s : State) : Answer := .next (s.onReady (fun s => s.seqTime k.toNat))

/-- SEQ_ACTION_ANSWER (R207). -/
def execSeqActionAnswer (k : BitVec 5) (s : State) : Answer := .next (s.onReady (fun s => s.takeAnswer k.toNat))

/-- PLY_PAGE_ARRIVAL (R220). -/
def execPlyPageArrival (w : Wing) (page : Nat) (plies : List (BitVec 128)) (err : Bool) (s : State) : Answer :=
  .next (s.onReady (fun s => s.pageArrives w page plies err))

/-- FORCED_HOLD_BEGIN (R271). -/
def execForcedHoldBegin (s : State) : Answer := .next (s.onReady State.forcedDue)

/-- FORCED_HOLD_GRANT (R271). -/
def execForcedHoldGrant (s : State) : Answer := .next (s.onReady State.forcedGrant)

/-- HOLD_DURATION_END (R272). -/
def execHoldDurationEnd (who : HoldBy) (s : State) : Answer := .next (s.onReady (fun s => s.holdExpire who))

end Sys2Proof.Machine
end

