-- ==== Sys2Proof/Machine/Wings.lean ====
section
/-! DEFINITION. The rows of power, of faults, and of repair and the flash (R66, R308 to R325, R339 to R356, R360). -/
namespace Sys2Proof.Machine

/-- THROTTLE_CEILING (R308, R311). In reset the pins alone change. -/
def execThrottleCeiling (w : Wing) (code : BitVec 2) (s : State) : Answer :=
  .next (if s.inReset then s.modPwr w (fun p => { p with ceil := code.toNat }) else (s.throttle w code.toNat).settle)

/-- FREQUENCY_STEP (R309, R310). -/
def execFrequencyStep (w : Wing) (s : State) : Answer := .next (s.onReady (fun s => s.freqStep w))

/-- POWER_CHOICE (R318). -/
def execPowerChoice (w : Wing) (s : State) : Answer := .next (s.onReady (fun s => s.choose w))

/-- ABORT_POINT_REACHED (R321). -/
def execAbortPointReached (w : Wing) (s : State) : Answer := .next (s.onReady (fun s => s.abortPoint w))

/-- DEEPEN (R320). -/
def execDeepen (s : State) : Answer := .next (s.onReady State.deepen)

/-- COLD_LEASE_END (R320, R283). -/
def execColdLeaseEnd (s : State) : Answer := .next (s.onReady State.leaseEnd)

/-- REG_RDY (R59, R309, R322). -/
def execRegRdy (w : Wing) (s : State) : Answer := .next (s.onPower (fun s => s.regReady w))

/-- OSC_RDY (R59, R322). -/
def execOscRdy (w : Wing) (s : State) : Answer := .next (s.onPower (fun s => s.oscReady w))

/-- PLL_LOCK (R59, R322). -/
def execPllLock (w : Wing) (s : State) : Answer := .next (s.onPower (fun s => s.pllLocked w))

/-- MEM_RDY (R59, R321, R322). -/
def execMemRdy (w : Wing) (s : State) : Answer := .next (s.onPower (fun s => s.memReady w))

/-- SEALED_MOVE_RESTORED (R322, R325). -/
def execSealedMoveRestored (w : Wing) (bad : List Nat) (s : State) : Answer := .next (s.onReady (fun s => s.restored w bad))

/-- WAKE_LATE (R323). -/
def execWakeLate (_w : Wing) (s : State) : Answer := .next (s.onReady State.wakeLateNow)

/-- IDLE_EXIT (R312). -/
def execIdleExit (w : Wing) (s : State) : Answer := .next (s.onReady (fun s => s.idleExit w))

/-- GRACE_EXPIRY (R339). -/
def execGraceExpiry (blk : Nat) (s : State) : Answer := .next (s.onReady (fun s => s.graceExpiry blk))

/-- AUTO_RECOVERY (R342). -/
def execAutoRecovery (blk : Nat) (s : State) : Answer := .next (s.onReady (fun s => s.autoRecovery blk))

/-- REGISTER_RELOAD (R343). -/
def execRegisterReload (blk : Nat) (ok : Bool) (s : State) : Answer := .next (s.onReady (fun s => s.reloaded blk ok))

/-- ALIVE_IN_EDGE (R348). -/
def execAliveInEdge (n : BitVec 2) (s : State) : Answer := .next (s.onReady (fun s => s.aliveEdge n.toNat))

/-- ALIVE_IN_STOP (R348). -/
def execAliveInStop (n : BitVec 2) (s : State) : Answer := .next (s.onReady (fun s => s.aliveStop n.toNat))

/-- SCRUB_ROW (R350). -/
def execScrubRow (w : Wing) (found : RowFind) (s : State) : Answer := .next (s.onReady (fun s => s.scrubRow w found))

/-- LIVE_REMAP (R353). -/
def execLiveRemap (w : Wing) (badSpares : Nat) (s : State) : Answer := .next (s.onReady (fun s => s.liveRemap w badSpares))

/-- DISPLACEMENT_COPY (R356). -/
def execDisplacementCopy (w : Wing) (row : Nat) (err : Bool) (s : State) : Answer :=
  .next (s.onReady (fun s => s.displace w row err))

/-- REPAIR_RECORD_APPEND (R360). -/
def execRepairRecordAppend (ok compactOk : Bool) (s : State) : Answer := .next (s.onPower (fun s => s.appendRecord ok compactOk))

/-- BOOT_RECORD_APPEND (R66): also after a start that ended in HALTED. -/
def execBootRecordAppend (x : BootWrite) (s : State) : Answer :=
  .next (s.onPower (fun s => s.appendBoot x.ok x.area.first x.area.second))

end Sys2Proof.Machine
end

