-- ==== Sys2Proof/Machine/Wire.lean ====
section
/-! DEFINITION. The bits of what a port sends: the bytes of sync frames and tunnel packets (R298, R301), 66-bit blocks, control
blocks with their CRC-32C (R288, R289) and the line's scrambler. -/
namespace Sys2Proof

/-! ### Frames and packets as bytes -/

/-- The 16-byte header of a sync frame (Table 10.10). -/
def Frame.header (f : Frame) : List Byte :=
  [f.ftype, f.term] ++ leBytes 2 f.src.toNat ++ leBytes 2 f.dst.toNat ++
    leBytes 2 (f.dom.toNat + 2 ^ 10 * f.level.toNat + 2 ^ 12 * f.frag.toNat) ++
    leBytes 4 (f.obj.toNat + 2 ^ 20 * f.group.toNat + 2 ^ 28 * f.fcount.toNat + 2 ^ 31 * (if f.fwd then 1 else 0)) ++
    leBytes 4 f.gen.toNat

/-- The 64 bytes of a sync frame (R298): a body that is shorter than 48 bytes is filled with zeros (R299). -/
def Frame.bytes (f : Frame) : List Byte := f.header ++ (List.range 48).map (fun i => f.body.getD i 0)

/-- A field of a number: `n` bits from bit `i`. -/
def bitsAt (x i n : Nat) : BitVec n := BitVec.ofNat n (x / 2 ^ i)

/-- The sync frame that 64 bytes hold (Table 10.10). -/
def Frame.ofBytes (b : List Byte) : Frame :=
  let dl := fieldNat b 6 2
  let og := fieldNat b 8 4
  { ftype := BitVec.ofNat 8 (fieldNat b 0 1), term := BitVec.ofNat 8 (fieldNat b 1 1), src := BitVec.ofNat 16 (fieldNat b 2 2)
    dst := BitVec.ofNat 16 (fieldNat b 4 2), dom := bitsAt dl 0 10, level := bitsAt dl 10 2, frag := bitsAt dl 12 3
    obj := bitsAt og 0 20, group := bitsAt og 20 8, fcount := bitsAt og 28 3, fwd := bitsAt og 31 1 == 1
    gen := BitVec.ofNat 32 (fieldNat b 12 4), body := (b.drop 16).take 48 }

/-- The 80 bytes of a tunnel packet (Table 10.12): TTYPE, the sending chip, the header's other fields, and the area. -/
def Machine.PktHead.bytes (h : Machine.PktHead) (ttype : Byte) (src : BitVec 16) (area : List Byte) : List Byte :=
  let head : List Byte := [ttype, if h.edge then 1 else 0] ++ leBytes 2 src.toNat ++ leBytes 2 h.dst.toNat ++
    leBytes 2 h.seq.toNat ++ leBytes 2 h.ack.toNat ++ leBytes 2 h.sack.toNat
  head ++ leBytes 4 (crc32c (head ++ area)).toNat ++ area

/-- Does the CRC of a received packet hold (R301)? -/
def packetCrcHolds (b : List Byte) : Bool :=
  fieldNat b 12 4 == (crc32c (b.take 12 ++ (b.drop 16).take 64)).toNat

/-- The area of OPEN and OPEN_ACK (R301, R371): BOOT_SEQ, BUILD_ID and, in OPEN_ACK, byte 0x0C. -/
def openArea (boot : BitVec 32) (build : BitVec 64) (busy : Bool) : List Byte :=
  leBytes 4 boot.toNat ++ leBytes 8 build.toNat ++ [if busy then 1 else 0] ++ List.replicate 51 0

/-! ### Blocks (R288) -/

/-- A 66-bit block. -/
structure LineBlock where
  sync    : BitVec 2
  payload : BitVec 64
  deriving DecidableEq, Repr

/-- Data block `i` of a frame: bytes `8 i` to `8 i + 7`, byte `8 i` in payload bits [7:0]. -/
def Frame.block (f : Frame) (i : Nat) : LineBlock := ⟨0b01, BitVec.ofNat 64 (fieldNat f.bytes (8 * i) 8)⟩

/-- A control block whose bytes 0 to 3 are `x`; its CRC covers `lead` and those bytes (R289). -/
def controlBlock (lead : List Byte) (x : Nat) : LineBlock :=
  let low := x % 2 ^ 32
  ⟨0b10, BitVec.ofNat 64 (low + 2 ^ 32 * (crc32c (lead ++ leBytes 4 low)).toNat)⟩

/-- Bytes 0 to 3 of a control block (Table 10.7). -/
def Machine.Ctl.low : Machine.Ctl → Nat
  | .idle a v n => 0x1E + 2 ^ 16 * a.toNat + 2 ^ 26 * v.toNat + 2 ^ 28 * n.toNat
  | .nak l a => 0x2D + 2 ^ 8 * l.toNat + 2 ^ 16 * a.toNat
  | .refuse l a v n => 0x33 + 2 ^ 8 * l.toNat + 2 ^ 16 * a.toNat + 2 ^ 26 * v.toNat + 2 ^ 28 * n.toNat
  | .quiesce a => 0x4B + 2 ^ 16 * a.toNat
  | .train c _ => 0x78 + 2 ^ 8 * c.toNat

/-- The block of a control block (R289): TRAIN carries BUILD_ID[31:0] where the others carry their CRC. -/
def Machine.Ctl.block (c : Machine.Ctl) : LineBlock :=
  match c with
  | .train _ b => ⟨0b10, BitVec.ofNat 64 (c.low + 2 ^ 32 * b.toNat)⟩
  | _ => controlBlock [] c.low

/-- Bytes 0 to 3 of an EOF block (Table 10.7). -/
def Eof.low (e : Eof) : Nat :=
  0xE1 + 2 ^ 8 * e.lseq.toNat + 2 ^ 16 * e.ack.toNat + 2 ^ 24 * e.vl.toNat + 2 ^ 26 * e.crVl.toNat + 2 ^ 28 * e.crCnt.toNat

/-- The EOF block of a frame (R289): its CRC covers the frame too. -/
def Eof.block (e : Eof) (f : Frame) : LineBlock := controlBlock f.bytes e.low

/-- The nine blocks of a frame: eight data blocks and EOF (R288, Table 10.8). -/
def Frame.blocks (f : Frame) (e : Eof) : List LineBlock := (List.range 8).map f.block ++ [e.block f]

/-- What a received control block's payload says (R289): none where its BTYPE is reserved or its CRC fails, and none for EOF,
which `eofOf` reads. -/
def ctlOf (p : BitVec 64) : Option Machine.Ctl :=
  let x := p.toNat
  let ack : BitVec 8 := bitsAt x 16 8
  let crc := x / 2 ^ 32 == (crc32c (leBytes 4 (x % 2 ^ 32))).toNat
  match x % 256 with
  | 0x78 => some (.train (bitsAt x 8 16) (bitsAt x 32 32))
  | 0x1E => if crc then some (.idle ack (bitsAt x 26 2) (bitsAt x 28 4)) else none
  | 0x2D => if crc then some (.nak (bitsAt x 8 8) ack) else none
  | 0x33 => if crc then some (.refuse (bitsAt x 8 8) ack (bitsAt x 26 2) (bitsAt x 28 4)) else none
  | 0x4B => if crc then some (.quiesce ack) else none
  | _ => none

/-- What a received EOF block says behind the bytes of a frame (R289); none where its CRC fails. -/
def eofOf (frame : List Byte) (p : BitVec 64) : Option Eof :=
  let x := p.toNat
  if x % 256 = 0xE1 ∧ x / 2 ^ 32 = (crc32c (frame ++ leBytes 4 (x % 2 ^ 32))).toNat then
    some { lseq := bitsAt x 8 8, ack := bitsAt x 16 8, vl := bitsAt x 24 2, crVl := bitsAt x 26 2, crCnt := bitsAt x 28 4 }
  else none

/-! ### The line (R288) -/

/-- One bit of the scrambler x^58 + x^39 + 1: bit `i` of the register is the line bit sent `i + 1` bits ago. -/
def scramBit (st : BitVec 58) (d : Bool) : Bool := d ^^ (st.getLsbD 38 ^^ st.getLsbD 57)

/-- The register behind a line bit. -/
def scramNext (st : BitVec 58) (line : Bool) : BitVec 58 := (st <<< 1) ||| (BitVec.ofBool line).zeroExtend 58

/-- Scramble bits. -/
def scramble : BitVec 58 → List Bool → BitVec 58 × List Bool
  | st, [] => (st, [])
  | st, d :: t =>
    let b := scramBit st d
    let (st', l) := scramble (scramNext st b) t
    (st', b :: l)

/-- Descramble line bits: the same taps, fed with what the line carried. -/
def descramble : BitVec 58 → List Bool → BitVec 58 × List Bool
  | st, [] => (st, [])
  | st, b :: t =>
    let (st', l) := descramble (scramNext st b) t
    (st', scramBit st b :: l)

/-- Payload bits in the order sent: bit 0 first. -/
def LineBlock.bits (b : LineBlock) : List Bool := (List.range 64).map b.payload.getLsbD

/-- The bits of the sync header in the order sent: the left digit first (log 86). -/
def LineBlock.header (b : LineBlock) : List Bool := [b.sync.getLsbD 1, b.sync.getLsbD 0]

/-- The 66 line bits of a block: the header as it is, the payload scrambled. -/
def LineBlock.line (st : BitVec 58) (b : LineBlock) : BitVec 58 × List Bool :=
  let (st', l) := scramble st b.bits
  (st', b.header ++ l)

/-- The line bits of blocks sent one behind the other. -/
def lineOf : BitVec 58 → List LineBlock → BitVec 58 × List Bool
  | st, [] => (st, [])
  | st, b :: t =>
    let (st1, l) := b.line st
    let (st2, m) := lineOf st1 t
    (st2, l ++ m)

end Sys2Proof

namespace Sys2Proof.Machine

/-- The blocks of what leaves a Shaut port in fast mode; `run` gives the block that the port repeats. -/
def Out.blocks : Out → List LineBlock
  | .frame _ e f => f.blocks e
  | .ctl _ c => [c.block]
  | .run _ c => [c.block]
  | _ => []

/-- The 80 bytes of what leaves the tunnel port, sent by a chip. -/
def Out.packet (src : BitVec 16) : Out → List Byte
  | .data h f => h.bytes 1 src f.bytes
  | .ack h m => h.bytes 2 src (leBytes 32 m.toNat ++ List.replicate 32 0)
  | .open h boot build => h.bytes 3 src (openArea boot build false)
  | .openAck h boot build busy => h.bytes 4 src (openArea boot build busy)
  | _ => []

end Sys2Proof.Machine
end

