-- ==== Sys2Proof/Machine/Dispatch.lean ====
section
/-! DEFINITION. One arm per command: its meaning. -/
namespace Sys2Proof.Machine

/-- A command's effect on everything but the queue. -/
def exec (i : Instr) (s : State) : Host.Outcome State Fault Refusal :=
  match i with
  | .nop src w => Sys2Proof.Machine.execNop src w s
  | .open src w => Sys2Proof.Machine.execOpen src w s
  | .close src w => Sys2Proof.Machine.execClose src w s
  | .bindMembers src w => Sys2Proof.Machine.execBindMembers src w s
  | .grant src w => Sys2Proof.Machine.execGrant src w s
  | .grantRevoke src w => Sys2Proof.Machine.execGrantRevoke src w s
  | .pin src w => Sys2Proof.Machine.execPin src w s
  | .unpin src w => Sys2Proof.Machine.execUnpin src w s
  | .arrive src w => Sys2Proof.Machine.execArrive src w s
  | .arriveWait src w => Sys2Proof.Machine.execArriveWait src w s
  | .wait src w => Sys2Proof.Machine.execWait src w s
  | .poll src w => Sys2Proof.Machine.execPoll src w s
  | .cancelWait src w => Sys2Proof.Machine.execCancelWait src w s
  | .semPost src w => Sys2Proof.Machine.execSemPost src w s
  | .semTake src w => Sys2Proof.Machine.execSemTake src w s
  | .semTry src w => Sys2Proof.Machine.execSemTry src w s
  | .lockAcquire src w => Sys2Proof.Machine.execLockAcquire src w s
  | .lockTry src w => Sys2Proof.Machine.execLockTry src w s
  | .lockRelease src w => Sys2Proof.Machine.execLockRelease src w s
  | .lockHandoff src w => Sys2Proof.Machine.execLockHandoff src w s
  | .tokenGive src w => Sys2Proof.Machine.execTokenGive src w s
  | .tokenTake src w => Sys2Proof.Machine.execTokenTake src w s
  | .tokenTry src w => Sys2Proof.Machine.execTokenTry src w s
  | .flagSet src w => Sys2Proof.Machine.execFlagSet src w s
  | .flagClear src w => Sys2Proof.Machine.execFlagClear src w s
  | .payloadWrite src w => Sys2Proof.Machine.execPayloadWrite src w s
  | .resultRead src w => Sys2Proof.Machine.execResultRead src w s
  | .ledgerPost src w => Sys2Proof.Machine.execLedgerPost src w s
  | .ledgerCheck src w => Sys2Proof.Machine.execLedgerCheck src w s
  | .ledgerRead src w => Sys2Proof.Machine.execLedgerRead src w s
  | .vote src w => Sys2Proof.Machine.execVote src w s
  | .unvote src w => Sys2Proof.Machine.execUnvote src w s
  | .holdRequest src w => Sys2Proof.Machine.execHoldRequest src w s
  | .holdDone src w => Sys2Proof.Machine.execHoldDone src w s
  | .seqStart src w => Sys2Proof.Machine.execSeqStart src w s
  | .seqStop src w => Sys2Proof.Machine.execSeqStop src w s
  | .readReg src w => Sys2Proof.Machine.execReadReg src w s
  | .writeReg src w => Sys2Proof.Machine.execWriteReg src w s
  | .clearStatus src w => Sys2Proof.Machine.execClearStatus src w s
  | .resign src w => Sys2Proof.Machine.execResign src w s
  | .reassign src w => Sys2Proof.Machine.execReassign src w s
  | .remap src w => Sys2Proof.Machine.execRemap src w s
  | .responseEntryRead win reader off size single => Sys2Proof.Machine.execResponseEntryRead win reader off size single s
  | .lateCompletion pos => Sys2Proof.Machine.execLateCompletion pos s
  | .queuedCommandResume pos win tag2 => Sys2Proof.Machine.execQueuedCommandResume pos win tag2 s
  | .wakeBeat w branch err => Sys2Proof.Machine.execWakeBeat w branch err s
  | .rateTick => Sys2Proof.Machine.execRateTick s
  | .pageIn obj err => Sys2Proof.Machine.execPageIn obj err s
  | .writeBack obj err => Sys2Proof.Machine.execWriteBack obj err s
  | .operandFold file => Sys2Proof.Machine.execOperandFold file s
  | .combineFinish obj => Sys2Proof.Machine.execCombineFinish obj s
  | .flagFall obj => Sys2Proof.Machine.execFlagFall obj s
  | .secondStalemateWalk obj pos => Sys2Proof.Machine.execSecondStalemateWalk obj pos s
  | .rstNotify pos => Sys2Proof.Machine.execRstNotify pos s
  | .orphaning pos => Sys2Proof.Machine.execOrphaning pos s
  | .seqWaitMet k => Sys2Proof.Machine.execSeqWaitMet k s
  | .seqTimeWait k => Sys2Proof.Machine.execSeqTimeWait k s
  | .seqActionAnswer k => Sys2Proof.Machine.execSeqActionAnswer k s
  | .plyPageArrival w page plies err => Sys2Proof.Machine.execPlyPageArrival w page plies err s
  | .forcedHoldBegin => Sys2Proof.Machine.execForcedHoldBegin s
  | .forcedHoldGrant => Sys2Proof.Machine.execForcedHoldGrant s
  | .holdDurationEnd who => Sys2Proof.Machine.execHoldDurationEnd who s
  | .groupJoin => Sys2Proof.Machine.execGroupJoin s
  | .hello k e f => Sys2Proof.Machine.execHello k e f s
  | .helloTimeout chip => Sys2Proof.Machine.execHelloTimeout chip s
  | .alive k e f => Sys2Proof.Machine.execAlive k e f s
  | .aliveDue c => Sys2Proof.Machine.execAliveDue c s
  | .chipSilent chip => Sys2Proof.Machine.execChipSilent chip s
  | .arrival k e f => Sys2Proof.Machine.execArrival k e f s
  | .half1 k e f => Sys2Proof.Machine.execHalf1 k e f s
  | .rsWord k e f => Sys2Proof.Machine.execRsWord k e f s
  | .release k e f => Sys2Proof.Machine.execRelease k e f s
  | .agWord k e f => Sys2Proof.Machine.execAgWord k e f s
  | .half1Down k e f => Sys2Proof.Machine.execHalf1Down k e f s
  | .takeover k e f => Sys2Proof.Machine.execTakeover k e f s
  | .answer k e f => Sys2Proof.Machine.execAnswer k e f s
  | .suspect k e f => Sys2Proof.Machine.execSuspect k e f s
  | .suspectForget chip level group => Sys2Proof.Machine.execSuspectForget chip level group s
  | .resignFrame k e f => Sys2Proof.Machine.execResignFrame k e f s
  | .fall k e f => Sys2Proof.Machine.execFall k e f s
  | .levelDeadline relay gen level => Sys2Proof.Machine.execLevelDeadline relay gen level s
  | .time k e f => Sys2Proof.Machine.execTime k e f s
  | .timeExchangeDue => Sys2Proof.Machine.execTimeExchangeDue s
  | .probeDue ctx => Sys2Proof.Machine.execProbeDue ctx s
  | .remote k e f => Sys2Proof.Machine.execRemote k e f s
  | .glockRequest k e f => Sys2Proof.Machine.execGlockRequest k e f s
  | .glockRelease k e f => Sys2Proof.Machine.execGlockRelease k e f s
  | .glockGrant k e f => Sys2Proof.Machine.execGlockGrant k e f s
  | .glockOrphanReport k e f => Sys2Proof.Machine.execGlockOrphanReport k e f s
  | .glockWithdrawal k e f => Sys2Proof.Machine.execGlockWithdrawal k e f s
  | .quietWakeQ k seat => Sys2Proof.Machine.execQuietWakeQ k seat s
  | .quietWakeK k seat => Sys2Proof.Machine.execQuietWakeK k seat s
  | .quietArrival k seat => Sys2Proof.Machine.execQuietArrival k seat s
  | .quietTime k seat => Sys2Proof.Machine.execQuietTime k seat s
  | .quietAlive k seat => Sys2Proof.Machine.execQuietAlive k seat s
  | .quietAck k seat => Sys2Proof.Machine.execQuietAck k seat s
  | .quietCold k seat => Sys2Proof.Machine.execQuietCold k seat s
  | .quietTimeMarkDue => Sys2Proof.Machine.execQuietTimeMarkDue s
  | .quietAckTimeout k => Sys2Proof.Machine.execQuietAckTimeout k s
  | .coldAckTimeout k => Sys2Proof.Machine.execColdAckTimeout k s
  | .trainingPhaseDone k => Sys2Proof.Machine.execTrainingPhaseDone k s
  | .trainingTimeout k => Sys2Proof.Machine.execTrainingTimeout k s
  | .retrainDue k => Sys2Proof.Machine.execRetrainDue k s
  | .resumeLock k => Sys2Proof.Machine.execResumeLock k s
  | .quiesceStart k => Sys2Proof.Machine.execQuiesceStart k s
  | .quiesce k ack => Sys2Proof.Machine.execQuiesce k ack s
  | .idleBlock k ack crVl crCnt => Sys2Proof.Machine.execIdleBlock k ack crVl crCnt s
  | .nak k lseq ack => Sys2Proof.Machine.execNak k lseq ack s
  | .refuse k lseq ack crVl crCnt => Sys2Proof.Machine.execRefuse k lseq ack crVl crCnt s
  | .trainBlock k chip build => Sys2Proof.Machine.execTrainBlock k chip build s
  | .replayTimeout k => Sys2Proof.Machine.execReplayTimeout k s
  | .refuseResend k => Sys2Proof.Machine.execRefuseResend k s
  | .tunnelData p => Sys2Proof.Machine.execTunnelData p s
  | .tunnelAck p => Sys2Proof.Machine.execTunnelAck p s
  | .tunnelOpen p => Sys2Proof.Machine.execTunnelOpen p s
  | .openAck p => Sys2Proof.Machine.execOpenAck p s
  | .ackDelay ctx => Sys2Proof.Machine.execAckDelay ctx s
  | .retransmitTimeout ctx => Sys2Proof.Machine.execRetransmitTimeout ctx s
  | .ringPathFail chip => Sys2Proof.Machine.execRingPathFail chip s
  | .edgeRetry ctx => Sys2Proof.Machine.execEdgeRetry ctx s
  | .openBusyRetry ctx => Sys2Proof.Machine.execOpenBusyRetry ctx s
  | .throttleCeiling w code => Sys2Proof.Machine.execThrottleCeiling w code s
  | .frequencyStep w => Sys2Proof.Machine.execFrequencyStep w s
  | .powerChoice w => Sys2Proof.Machine.execPowerChoice w s
  | .abortPointReached w => Sys2Proof.Machine.execAbortPointReached w s
  | .deepen => Sys2Proof.Machine.execDeepen s
  | .coldLeaseEnd => Sys2Proof.Machine.execColdLeaseEnd s
  | .regRdy w => Sys2Proof.Machine.execRegRdy w s
  | .oscRdy w => Sys2Proof.Machine.execOscRdy w s
  | .pllLock w => Sys2Proof.Machine.execPllLock w s
  | .memRdy w => Sys2Proof.Machine.execMemRdy w s
  | .sealedMoveRestored w bad => Sys2Proof.Machine.execSealedMoveRestored w bad s
  | .wakeLate w => Sys2Proof.Machine.execWakeLate w s
  | .graceExpiry blk => Sys2Proof.Machine.execGraceExpiry blk s
  | .autoRecovery blk => Sys2Proof.Machine.execAutoRecovery blk s
  | .registerReload blk ok => Sys2Proof.Machine.execRegisterReload blk ok s
  | .aliveInEdge n => Sys2Proof.Machine.execAliveInEdge n s
  | .aliveInStop n => Sys2Proof.Machine.execAliveInStop n s
  | .scrubRow w found => Sys2Proof.Machine.execScrubRow w found s
  | .liveRemap w badSpares => Sys2Proof.Machine.execLiveRemap w badSpares s
  | .displacementCopy w row err => Sys2Proof.Machine.execDisplacementCopy w row err s
  | .repairRecordAppend ok compactOk => Sys2Proof.Machine.execRepairRecordAppend ok compactOk s
  | .bootRecordAppend x => Sys2Proof.Machine.execBootRecordAppend x s
  | .poresetAssert => Sys2Proof.Machine.execPoresetAssert s
  | .poresetRelease => Sys2Proof.Machine.execPoresetRelease s
  | .aonUp romOk => Sys2Proof.Machine.execAonUp romOk s
  | .wingUp => Sys2Proof.Machine.execWingUp s
  | .wingPowerTimeout => Sys2Proof.Machine.execWingPowerTimeout s
  | .discovery sfdp dir0 dir1 => Sys2Proof.Machine.execDiscovery sfdp dir0 dir1 s
  | .load r => Sys2Proof.Machine.execLoad r s
  | .verify otp => Sys2Proof.Machine.execVerify otp s
  | .bist corrected bad => Sys2Proof.Machine.execBist corrected bad s
  | .repair c0 c1 boots bad => Sys2Proof.Machine.execRepair c0 c1 boots bad s
  | .linkTrain => Sys2Proof.Machine.execLinkTrain s
  | .ingLoadClrCnt src tag w => Sys2Proof.Machine.execIngLoadClrCnt src tag w s
  | .ingWinClr src tag w => Sys2Proof.Machine.execIngWinClr src tag w s
  | .ingRefuseClr src tag w => Sys2Proof.Machine.execIngRefuseClr src tag w s
  | .filPageClr src tag file => Sys2Proof.Machine.execFilPageClr src tag file s
  | .filLedgerClr src tag file => Sys2Proof.Machine.execFilLedgerClr src tag file s
  | .wakeNoteClr src tag w => Sys2Proof.Machine.execWakeNoteClr src tag w s
  | .seqPageClr src tag w => Sys2Proof.Machine.execSeqPageClr src tag w s
  | .cmbLvlerrClr src tag w => Sys2Proof.Machine.execCmbLvlerrClr src tag w s
  | .clrAll src tag => Sys2Proof.Machine.execClrAll src tag s
  | .clrSel src tag => Sys2Proof.Machine.execClrSel src tag s
  | .shpCnt0Clr src tag k => Sys2Proof.Machine.execShpCnt0Clr src tag k s
  | .tunCntClr src tag => Sys2Proof.Machine.execTunCntClr src tag s
  | .tcuHoldcntClr src tag => Sys2Proof.Machine.execTcuHoldcntClr src tag s
  | .tcuPwrcntClr src tag => Sys2Proof.Machine.execTcuPwrcntClr src tag s
  | .repScrubClr src tag w => Sys2Proof.Machine.execRepScrubClr src tag w s
  | .flashRelease src tag => Sys2Proof.Machine.execFlashRelease src tag s
  | .flashReclaim src x => Sys2Proof.Machine.execFlashReclaim src x s
  | .traceEnable by_ reg value => Sys2Proof.Machine.execTraceEnable by_ reg value s
  | .pcselWrite src tag n code => Sys2Proof.Machine.execPcselWrite src tag n code s
  | .tapReset => Sys2Proof.Machine.execTapReset s
  | .extest => Sys2Proof.Machine.execExtest s
  | .samplePreload balls => Sys2Proof.Machine.execSamplePreload balls s
  | .idcode => Sys2Proof.Machine.execIdcode s
  | .ijtag holdBoot => Sys2Proof.Machine.execIjtag holdBoot s
  | .wrapSel => Sys2Proof.Machine.execWrapSel s
  | .bypass => Sys2Proof.Machine.execBypass s
  | .intest => Sys2Proof.Machine.execIntest s
  | .regread off => Sys2Proof.Machine.execRegread off s
  | .holdBootClear => Sys2Proof.Machine.execHoldBootClear s
  | .mbist => Sys2Proof.Machine.execMbist s
  | .mbistDone rows spares => Sys2Proof.Machine.execMbistDone rows spares s
  | .loopback k mode => Sys2Proof.Machine.execLoopback k mode s
  | .margin k phase threshold dwell abortAt => Sys2Proof.Machine.execMargin k phase threshold dwell abortAt s
  | .marginDwellEnd k headers crcs replays => Sys2Proof.Machine.execMarginDwellEnd k headers crcs replays s
  | .pathdly count => Sys2Proof.Machine.execPathdly count s
  | .reservedOpcode src w opc => Sys2Proof.Machine.execReservedOpcode src w opc s
  | .badSubmit win x => Sys2Proof.Machine.execBadSubmit win x s
  | .idleExit w => Sys2Proof.Machine.execIdleExit w s
  | .quietFrameBad k => Sys2Proof.Machine.execQuietFrameBad k s
  | .badFrame k => Sys2Proof.Machine.execBadFrame k s
  | .reservedFtype k e f => Sys2Proof.Machine.execReservedFtype k e f s
  | .exchangeTimeout => Sys2Proof.Machine.execExchangeTimeout s
  | .standbyCopy c => Sys2Proof.Machine.execStandbyCopy c s
  | .standbyCopyTimeout kind => Sys2Proof.Machine.execStandbyCopyTimeout kind s
  | .loopbackStop k errors sent rejected matched => Sys2Proof.Machine.execLoopbackStop k errors sent rejected matched s

end Sys2Proof.Machine
end

