-- ==== Sys2Proof/Machine/Cycle.lean ====
section
/-! DEFINITION. The commands of one cycle: which of two must take effect first (R15, R20, R21, R36, R42, R96, R113, R126, R191, R218,
R222, R239, R254, R271, R272, R274, R306, R328, R345, R362, R364). The queue's order is the order in which they take effect (log 1). -/
namespace Sys2Proof.Machine

/-! ### Who gives a unit, and where it goes -/

/-- Who gives a unit of a pipe or a register port, in the order of R21: a slot ingress port, the queued path, a sequencer, the block
itself. -/
inductive Giver where
  | port (k : Nat)
  | queued
  | seq (k : Nat)
  | block
  deriving DecidableEq, Repr

/-- Does a unit of one giver enter before one of another in the same cycle (R21)? Units of one port, of the queued path or of the
block keep the order in which they arose. -/
def Giver.before : Giver → Giver → Bool
  | .port a, .port b => decide (a < b)
  | .port _, _ => true
  | .queued, .seq _ => true
  | .queued, .block => true
  | .seq a, .seq b => decide (a < b)
  | .seq _, .block => true
  | _, _ => false

/-- The giver of an agent's unit (R23). -/
def giverOf (x : Src) : Giver :=
  match x.path with
  | .slot _ => .port (portOf x.pos)
  | .caught _ _ => .port (portOf x.pos)
  | .win _ => .queued

/-- Is a row an inbound level frame, whose unit is internal (R21, R233)? -/
def isLevelFrame : Instr → Bool
  | .arrival _ _ _ => true | .half1 _ _ _ => true | .rsWord _ _ _ => true | .release _ _ _ => true | .agWord _ _ _ => true
  | .half1Down _ _ _ => true | .fall _ _ _ => true
  | _ => false

/-- The source of a row that is one register write, and the register port that executes it (Table 1.4). -/
def registerRow : Instr → Option (Src × Site)
  | .ingLoadClrCnt x _ w => some (x, .regs w)
  | .ingWinClr x _ w => some (x, .regs w)
  | .ingRefuseClr x _ w => some (x, .regs w)
  | .filPageClr x _ f => some (x, .regs (wingOfFile f.toNat))
  | .filLedgerClr x _ f => some (x, .regs (wingOfFile f.toNat))
  | .wakeNoteClr x _ w => some (x, .regs w)
  | .seqPageClr x _ w => some (x, .regs w)
  | .cmbLvlerrClr x _ w => some (x, .regs w)
  | .shpCnt0Clr x _ k => some (x, .regs (shpWing k.toNat))
  | .tunCntClr x _ => some (x, .regs .k)
  | .clrAll x _ => some (x, .always)
  | .clrSel x _ => some (x, .always)
  | .tcuHoldcntClr x _ => some (x, .always)
  | .tcuPwrcntClr x _ => some (x, .always)
  | .repScrubClr x _ _ => some (x, .always)
  | .flashRelease x _ => some (x, .always)
  | .flashReclaim x _ => some (x, .always)
  | .traceEnable (.agent x _) _ _ => some (x, .always)
  | .pcselWrite x _ _ _ => some (x, .always)
  | _ => none

/-- Does a unit execute one command after another in the order of R21: is it a pipe or a register port (R25)? -/
def Site.ordered : Site → Bool
  | .pipe _ _ => true
  | .regs _ => true
  | .always => true
  | _ => false

/-- The giver of a row that reaches a pipe or a register port, and which one, when the row says so (R21, R25). -/
def State.unitOf (s : State) (i : Instr) : Option (Giver × Option Site) :=
  match commandOf i, registerRow i with
  | some (op, x, w), _ =>
    let site := s.siteOf (s.callerOf (srcHeld x op w))
    if site.ordered then some (giverOf x, some site) else none
  | none, some (x, site) => some (giverOf x, some site)
  | none, none => match i with
    | .seqWaitMet k => some (.seq k.toNat, none)
    | .seqTimeWait k => some (.seq k.toNat, none)
    | .seqActionAnswer k => some (.seq k.toNat, none)
    | .plyPageArrival w _ _ _ => some (.seq (16 * w.num), none)
    | .flagFall o => some (.block, some (.ofObj o.toNat))
    | .combineFinish o => some (.block, some (.ofObj o.toNat))
    | .secondStalemateWalk o _ => some (.block, some (.ofObj o.toNat))
    | .orphaning _ => some (.block, none)
    | .forcedHoldGrant => some (.block, none)
    | .holdDurationEnd _ => some (.block, none)
    | .levelDeadline _ _ _ => some (.block, none)
    | i => if isLevelFrame i then some (.block, none) else none

/-- Do two units meet at a pipe or a register port: at the same, or one of them at any (R19)? -/
def sitesMeet (a b : Option Site) : Bool :=
  match a, b with
  | some x, some y => x == y
  | _, _ => true

/-- R21: of two units that reach one pipe or register port in one cycle, does `a` enter first? -/
def State.entersFirst (s : State) (a b : Instr) : Bool :=
  match s.unitOf a, s.unitOf b with
  | some (g, x), some (h, y) => sitesMeet x y && g.before h
  | _, _ => false

/-- Do two rows go to the same pipe or register port, which then executes them one cycle after the other? -/
def State.sameUnit (s : State) (a b : Instr) : Bool :=
  match s.unitOf a, s.unitOf b with
  | some (_, some x), some (_, some y) => x == y
  | _, _ => false

/-! ### Quotas, pools and tables (R113, R364) -/

/-- The place of a command's pipe in the order of R113 and R364: its wing, and its place there by file, then pipe. -/
def State.pipeRank (s : State) (i : Instr) : Option (Wing × Nat) :=
  match s.unitOf i with
  | some (_, some (.pipe f p)) => some (wingOfFile f, 2 * f + p)
  | _ => none

/-- Has a use count of a domain fallen? -/
def Use.below (a b : Use) : Bool := decide (a.objs < b.objs) || decide (a.acc < b.acc) || decide (a.slots < b.slots) || decide (a.ops < b.ops)

/-- Is something free in `t` that was taken in `s`: in a domain's quota, the operation table, the member array, the accumulators, the
grant entries, the resident records or the hold requests (Table 14.1)? -/
def State.freedIn (s t : State) : Bool :=
  s.use.any (fun x => (tget Use.zero t.use x.1).below x.2) ||
    [Wing.q, Wing.k].any (fun w => decide ((t.wing w).opsTotal < (s.wing w).opsTotal)) ||
    decide (t.mblocks.length < s.mblocks.length) || decide (t.ablocks.length < s.ablocks.length) ||
    (List.range 8).any (fun f => decide ((t.file f).grants.length < (s.file f).grants.length)) ||
    s.recs.any (fun x => x.2.isSome && (tget none t.recs x.1).isNone) || decide (t.holds.recs.length < s.holds.recs.length)

/-- Does a row free something that a quota, a pool or a table counts? What it frees in this cycle can be taken from the next on. -/
def State.frees (s : State) (i : Instr) : Bool :=
  match exec i s with
  | .next t => s.freedIn t
  | _ => false

/-- Does a row make quota checks and allocations: is it an agent's command that its wing counts, or one that binds a slot? -/
def allocates (i : Instr) : Bool := (commandOf i).any (fun x => x.1.onObject || x.1.waits)

/-- R113, R364: of two rows of one cycle, does `a` make its quota checks and allocations first? Pipes of one wing are served by file,
then pipe, and what a row frees counts from the next cycle. -/
def State.checksFirst (s : State) (a b : Instr) : Bool :=
  allocates a && !s.frees a && (s.frees b || (match s.pipeRank a, s.pipeRank b with
    | some x, some y => allocates b && x.1 == y.1 && decide (x.2 < y.2)
    | _, _ => false))

/-- Has a command been admitted when its unit takes it (R79, R112)? -/
def State.admits (s : State) (x : Src) (op : Op) (w : CmdW) : Bool :=
  let h := srcHeld x op w
  let c := s.callerOf h
  match s.entryChecks h c, x.path with
  | .ok t, .slot ahead => (t.admission c ahead false).isNone
  | .ok t, .win _ => !t.windowStuck c
  | _, _ => false

/-- The entries of the operation table that the commands `before` have taken in this cycle from other pipes of a command's wing and that
its check still sees: those of its own domain, and all (R113, R364). An entry that a command keeps is in the state's own count. -/
def State.matesOf (s : State) (before : List Instr) (i : Instr) : Nat × Nat :=
  let taken (a : Instr) : Option Nat := match commandOf a with
    | some (op, x, w) => match exec a s with
      | .next t =>
        if op.onObject && s.admits x op w && (s.pipeRank i).any (fun y => y.1 == wingOf w.obj.toNat) &&
            decide ((t.wing (wingOf w.obj.toNat)).opsTotal ≤ (s.wing (wingOf w.obj.toNat)).opsTotal) then some (s.domOf x.pos) else none
      | _ => none
    | none => none
  let l := before.filterMap taken
  match commandOf i with
  | some (_, x, _) => ((l.filter (fun d => d == s.domOf x.pos)).length, l.length)
  | none => (0, 0)

/-! ### Registers -/

/-- Is a row a write to a register or a CLEAR_STATUS? A clear of a counter, a written field or a cleared status bit gives way to
what the cycle counts, changes or sets. -/
def isClear (i : Instr) : Bool :=
  match commandOf i with
  | some (op, _, _) => op == .writeReg || op == .clearStatus
  | none => (registerRow i).isSome

/-- Is a row a READ_REG, which samples at the end of the cycle (R345)? -/
def isRead (i : Instr) : Bool := (commandOf i).any (fun x => x.1 == .readReg)

/-- R15, R42, R96, R126, R191, R222, R254, R274, R306, R328, R345, R362: a clear first, so that the counter ends at 1 and the
hardware's change stands; a READ_REG last. Accesses of one register port come one after the other. -/
def State.registersFirst (s : State) (a b : Instr) : Bool :=
  !s.sameUnit a b && ((isClear a && !isClear b && !isRead b) || (isRead b && !isRead a && !isClear a))

/-! ### Collisions -/

/-- The type of the beat that a branch of a wing sends next: 1 bind, 2 set, 3 free (Table 3.8); 0 idle. -/
def State.nextBeat (s : State) (w : Wing) (k : Nat) : Nat :=
  match popBeat k (s.wing w).beats with
  | some (x, _) => (x.extractLsb' 53 2).toNat
  | none => 0

/-- R36: of two beats that reach one leaf in one cycle, one from each wing, does `a` take effect first? A SET beat is the last, so
that the bit ends set. -/
def State.clearsFirst (s : State) (a b : Instr) : Bool :=
  match a, b with
  | .wakeBeat v j _, .wakeBeat w k _ => v != w && j == k && s.nextBeat w k.toNat == 2 && s.nextBeat v j.toNat != 2
  | _, _ => false

/-- Does a row come before the event that meets a sequencer's wait (R218): its SEQ_STOP, or a forced hold that begins, by the wait limit
or with an URGENT request (R271)? -/
def stops (i : Instr) (k : Nat) : Bool :=
  match commandOf i with
  | some (.seqStop, _, w) => w.arg.toNat % 32 == k
  | some (.holdRequest, _, w) => w.arg.getLsbD 16
  | _ => i == .forcedHoldBegin

/-- What wins where two rows reach the TCU, a sequencer or a level in one cycle: a vote over the choice of a power state (R317), a
hold-eligible completion over the wait limit (R271), HOLD_DONE over the end of the duration (R272), SEQ_STOP and a forced hold over
the event that meets a wait (R218), a contribution over the level's deadline (R239). -/
def State.winsFirst (s : State) (a b : Instr) : Bool :=
  match b with
  | .powerChoice _ => (commandOf a).any (fun x => x.1 == .vote)
  | .forcedHoldBegin => (s.unitOf a).any (fun u => match u.1 with
    | .seq _ => false
    | _ => true)
  | .holdDurationEnd w => (match commandOf a, w with
    | some (.holdDone, x, _), .pos p => x.pos == p
    | _, _ => false)
  | .seqWaitMet k => stops a k.toNat
  | .seqTimeWait k => stops a k.toNat
  | .levelDeadline _ _ _ => isLevelFrame a
  | _ => false

/-! ### The order of a cycle -/

/-- Of two rows of one cycle, must `a` stand in the queue before `b`? `heads` says that each is the first of its pipe in the cycle. The order
of the pipes stands over that of the checks, and this over the others. -/
def State.first (s : State) (heads : Bool) (a b : Instr) : Bool :=
  s.entersFirst a b || (!s.entersFirst b a && ((heads && s.checksFirst a b) ||
    (!(heads && s.checksFirst b a) && (s.registersFirst a b || s.clearsFirst a b || s.winsFirst a b))))

/-- The rows of a cycle in their order, each with whether it is the first of its pipe, and with the rows ahead of it that are. -/
def State.marks (s : State) (before : List Instr) : List Instr → List (Instr × Bool × List Instr)
  | [] => []
  | a :: t =>
    let head := !before.any (fun x => s.sameUnit x a)
    (a, head, before) :: s.marks (if head then before ++ [a] else before) t

/-- Does no row of a cycle stand behind one that it must precede? -/
def State.inOrder (s : State) : List (Instr × Bool × List Instr) → Bool
  | [] => true
  | a :: t => t.all (fun b => !s.first (a.2.1 && b.2.1) b.1 a.1) && s.inOrder t

/-- Does a command on an object say rightly how many operations other pipes have checked before it in its cycle (R113)? -/
def State.matesOk (s : State) (x : Instr × Bool × List Instr) : Bool :=
  match commandOf x.1 with
  | some (op, y, _) => !op.onObject || y.mates == (if x.2.1 then s.matesOf x.2.2 x.1 else (0, 0))
  | none => true

/-- Do the rows of one cycle stand in an order that the spec allows? -/
def State.cycleOk (s : State) (l : List Instr) : Bool := s.inOrder (s.marks [] l) && (s.marks [] l).all s.matesOk

/-- Queue the commands of one cycle behind those that wait; an order that the spec forbids queues nothing. -/
def State.enqueueCycle (s : State) (l : List Instr) : State := if s.cycleOk l then { s with pending := s.pending ++ l } else s

end Sys2Proof.Machine
end

