-- ==== Sys2Proof/Safety.lean ====
section
/-! DEFINITION. What holds of the state between steps, and when an agent's command reaches its unit and is answered there, in the
terms that the statements use. -/
namespace Sys2Proof

/-- The row of an agent's command. -/
def Op.row (o : Op) (x : Src) (w : CmdW) : Instr :=
  match o with
  | .nop => .nop x w | .open => .open x w | .close => .close x w | .bindMembers => .bindMembers x w
  | .grant => if w.arg.getLsbD 10 then .grantRevoke x w else .grant x w
  | .pin => .pin x w | .unpin => .unpin x w | .arrive => .arrive x w | .arriveWait => .arriveWait x w | .wait => .wait x w
  | .poll => .poll x w | .cancelWait => .cancelWait x w | .semPost => .semPost x w | .semTake => .semTake x w
  | .semTry => .semTry x w | .lockAcquire => .lockAcquire x w | .lockTry => .lockTry x w | .lockRelease => .lockRelease x w
  | .lockHandoff => .lockHandoff x w | .tokenGive => .tokenGive x w | .tokenTake => .tokenTake x w
  | .tokenTry => .tokenTry x w | .flagSet => .flagSet x w | .flagClear => .flagClear x w | .payloadWrite => .payloadWrite x w
  | .resultRead => .resultRead x w | .ledgerPost => .ledgerPost x w | .ledgerCheck => .ledgerCheck x w
  | .ledgerRead => .ledgerRead x w | .vote => .vote x w | .unvote => .unvote x w | .holdRequest => .holdRequest x w
  | .holdDone => .holdDone x w | .seqStart => .seqStart x w | .seqStop => .seqStop x w | .readReg => .readReg x w
  | .writeReg => .writeReg x w | .clearStatus => .clearStatus x w | .resign => .resign x w | .reassign => .reassign x w
  | .remap => .remap x w

end Sys2Proof

namespace Sys2Proof.Machine

/-- The state between two steps: no work is left over, SEAM_OCC's peaks are no lower than the occupancies (R42), the wave of ALIVE_OUT
runs while the block runs with nothing contained (R347), and FL_RESET_N has risen by 50 µs out of reset (R44). Reset meets it and every
step keeps it. -/
def State.calm (s : State) : Prop :=
  s.todo = [] ∧ s.seamHeld .q ≤ s.trace.peakQ ∧ s.seamHeld .k ≤ s.trace.peakK ∧ s.trace.wave.run = s.aliveRuns ∧
  (50000 ≤ s.now → s.inReset = false → s.pins.flResetN = true)

/-- The block runs: start-up has reached READY and the block is not in reset (R59, R64). -/
def State.runs (s : State) : Prop := s.ready = true ∧ s.inReset = false

/-- Between two steps of the running block. -/
def State.between (s : State) : Prop := s.calm ∧ s.runs

/-- A source of a block sets at most its STAT bit and an interrupt: it does not contain its block (R329). -/
def State.mild (s : State) (b src : Nat) : Prop := s.severity b src < 3

/-- A file starts no write-back when a record is installed: no record stands in a lost slot, and more than 32 slots are free (R119). -/
def State.roomy (s : State) (f : Nat) : Prop := s.stranded f = [] ∧ 33 ≤ s.freeSlots f

/-- No barrier stands in HOLDING. -/
def State.noneHolding (s : State) : Prop := ∀ y ∈ s.barriers, y.2.holding = false

/-! ### Agents' commands -/

/-- The response entry that a queued-path command is answered in (Table 3.9). -/
def srcEntry (x : Src) (w : CmdW) : EntryId := { win := srcWing x, pos := x.pos, t := w.tag.toNat % 4 }

/-- The request that a presented command is. -/
def srcReq (x : Src) (w : CmdW) : Req :=
  match x.path with
  | .slot _ => .slot x.pos
  | .caught _ _ => .slot x.pos
  | .win _ => .win (srcEntry x w)

/-- The caller of an agent's command (R80). -/
def State.caller (s : State) (x : Src) (op : Op) (w : CmdW) : Ctx :=
  { pos := x.pos, dom := s.domOf x.pos, inw := srcWing x, req := srcReq x w, op := op, w := w }

/-- A response entry that waits for nothing: no response uncollected, no command in flight (R93). -/
def Entry.vacant (e : Entry) : Prop := e.isDone = false ∧ e.inFlight = false ∧ e.slot = none ∧ e.flight = none

/-- A command is presented to an ACTIVE wing's port or window while the block runs, no block on its way enters its safe state or holds an
earlier one (R27), nothing has struck the hardware before it, and on the queued path it comes into a vacant entry of a window that is
not contained, where no earlier command waits aside or on the mesh (R79, R92). -/
def State.presented (s : State) (x : Src) (w : CmdW) : Prop :=
  s.calm ∧ s.runs ∧ x.pos < 768 ∧ s.active (srcWing x) = true ∧ x.strikes = Strikes.none ∧
  match x.path with
  | .slot _ => ∀ g ∈ s.held, ∀ b late, g.place ≠ .caught b late
  | .caught _ _ => False
  | .win v => s.contained (bING v) = false ∧ (s.entry (srcEntry x w)).vacant ∧
      ∀ g ∈ s.held, g.req.ofAgent = true → g.place ≠ .aside ∧ ∀ u, g.place ≠ .window u

/-- Checks 1 and 2 of R79 pass: the position is enabled, and its domain's bucket holds a rate token. -/
def State.enters (s : State) (x : Src) (w : CmdW) : Prop :=
  s.presented x w ∧ (s.posEnt x.pos).enabled = true ∧ (s.takeToken (srcWing x) (s.domOf x.pos)).isSome = true

/-- A command passes checks 1 to 4 of R79 on its path. On the queued path it asks for no notification. -/
def State.takes (s : State) (x : Src) (op : Op) (w : CmdW) : Prop :=
  s.enters x w ∧ formatReason op w (s.caller x op w).onWindow (s.identity x.pos) = none ∧
  match x.path with
  | .slot ahead => s.admission (s.caller x op w) ahead false = none
  | .caught _ _ => False
  | .win _ => w.notify = false ∧ s.windowStuck (s.caller x op w) = false

/-- A command reaches its unit, and the unit is at work: the wing of the unit is ACTIVE and the way through the seam is open
(R25, R32, Table 12.5). -/
def State.meets (s : State) (x : Src) (op : Op) (w : CmdW) : Prop :=
  (s.siteOf (s.caller x op w)).wing.all (fun v => s.active v && (v == srcWing x || !s.contained bSEAM)) = true

/-- An object's record is at hand for a unit: resident, not on its way out, with no row of it locked for a remap, and read without error
(R20, R119, R353). -/
def State.atHand (s : State) (obj : Nat) : Prop :=
  ∃ r, s.resident obj = some r ∧ r.evicting = false ∧ s.rowBusy obj r = false ∧ s.badRows obj r = []

/-- A command on an object passes checks 5 to 8 of R79: the caller may use the number, the file is not contained, the record is
resident and stays, no row that the command needs is locked for a remap, its rows read without error, the quota and the operation
table have room beside what other pipes have taken in the cycle, no earlier command of the path waits for the object, and the slot of a
command that waits is free. -/
def State.finds (s : State) (x : Src) (op : Op) (w : CmdW) : Prop :=
  s.mayUse (s.domOf x.pos) w.obj.toNat = true ∧ s.fileContained w.obj.toNat = false ∧
  s.atHand w.obj.toNat ∧
  s.opsOkWith x.mates.1 (wingOf w.obj.toNat) (s.domOf x.pos) = true ∧ s.opFreeWith x.mates.2 (wingOf w.obj.toNat) = true ∧
  s.mustFollow (srcHeld x op w) = false ∧
  (op.waits = true → s.slotCheck x.pos w.slot.toNat (wingOf w.obj.toNat) (s.domOf x.pos) = none)

/-- A command on an object reaches it and may act: every check of R79 before the object's own state has passed. -/
def State.reaches (s : State) (x : Src) (op : Op) (w : CmdW) : Prop :=
  s.takes x op w ∧ s.meets x op w ∧ s.finds x op w

/-- A command on no object may act: every check of R79 before its own has passed, and the record that POLL or CANCEL_WAIT reads at its
pipe (R20) reads without error. -/
def State.heard (s : State) (x : Src) (op : Op) (w : CmdW) : Prop :=
  s.takes x op w ∧ s.meets x op w ∧ (serviceOnly op = false ∨ s.domOf x.pos = 0) ∧
  (op = .poll ∨ op = .cancelWait → ∀ o r, (s.slot x.pos w.slot.toNat).bind SlotRec.obj = some o → s.resident o = some r →
    s.badRows o r = []) ∧
  (op.waits = true → s.slotCheck x.pos w.slot.toNat (posWing x.pos) (s.domOf x.pos) = none)

/-! ### What a command leaves -/

/-- Is a command answered in late mode (R26, R81)? The queued path always is. -/
def State.lateFor (s : State) (x : Src) (op : Op) (w : CmdW) : Bool :=
  match x.path with
  | .slot _ => !s.prompt (s.siteOf (s.caller x op w))
  | .caught _ _ => !s.prompt (s.siteOf (s.caller x op w))
  | .win _ => true

/-- `t` holds the answer of a command presented in `s` (R81, R92), `late` or not: on lane D, behind the completions that wait for
lane L, or in the command's response entry. In lane L a REASSIGN or a REMAP still moves the positions `mv` (R124). Every other lane and
entry is as before. -/
def State.answeredAs (s t : State) (x : Src) (late : Bool) (mv : List Nat) (w : CmdW) (st : Status) (v : BitVec 51) : Prop :=
  let r : Resp := { status := st, tag := w.tag, value := v }
  match x.path with
  | .slot _ =>
    t.lane x.pos = (if late then { s.lane x.pos with queue := (s.lane x.pos).queue ++ [{ Late.plain r with moves := mv }] }
                    else { s.lane x.pos with d := some r }) ∧
    (∀ q, q ≠ x.pos → t.lane q = s.lane q) ∧ ∀ e, t.entry e = s.entry e
  | .caught _ _ => False
  | .win _ =>
    t.entry (srcEntry x w) = { s.entry (srcEntry x w) with resp := some r, isDone := true } ∧
    (∀ e, e.key ≠ (srcEntry x w).key → t.entry e = s.entry e) ∧ ∀ q, t.lane q = s.lane q

/-- `t` holds the answer that a command's unit has given. -/
def State.answered (s t : State) (x : Src) (op : Op) (w : CmdW) (st : Status) (v : BitVec 51) : Prop :=
  s.answeredAs t x (s.lateFor x op w) (srcHeld x op w).moves w st v

/-- Beside its answer a command has changed the rate tokens and the trace alone. -/
def State.answersOnly (s t : State) : Prop :=
  t = { s with spent := t.spent, trace := t.trace, lanes := t.lanes, entries := t.entries }

/-- One more REFUSED_STATE does not reach the limit of the caller's domain in the wing by which a command enters (R115). -/
def State.mayRefuse (s : State) (x : Src) : Prop :=
  (s.domain (s.domOf x.pos)).refuseLimit = 0 ∨
    tget 0 s.refusals (wd (srcWing x) (s.domOf x.pos)) + 1 < (s.domain (s.domOf x.pos)).refuseLimit

/-- Beside its answer REFUSED_STATE a command has changed the rate tokens and the trace alone, and the domain's count of R115; an answer
that waits for lane L counts when lane L delivers it. -/
def State.refusesOnly (s t : State) (x : Src) (op : Op) (w : CmdW) : Prop :=
  let n := wd (srcWing x) (s.domOf x.pos)
  t = { s with spent := t.spent, trace := t.trace, lanes := t.lanes, entries := t.entries
               refusals := if s.lateFor x op w && !(x.path matches .win _) then s.refusals else tset 0 s.refusals n (tget 0 s.refusals n + 1) }

/-- A command changes the state to `u`, its answer, the rate tokens and the trace apart. -/
def State.like (t u : State) : Prop :=
  t = { u with spent := t.spent, trace := t.trace, lanes := t.lanes, entries := t.entries }

/-- Of the resident records, that of one object has changed, to `o`. -/
def State.puts (s t : State) (obj : Nat) (o : Option Obj) : Prop :=
  t.obj obj = o ∧ ∀ n, n ≠ obj → t.resident n = s.resident n

/-- Beside its answer, a command has changed the record of one object. -/
def State.changed (s t : State) (obj : Nat) (o : Option Obj) : Prop :=
  s.puts t obj o ∧
  t = { s with spent := t.spent, trace := t.trace, lanes := t.lanes, entries := t.entries, recs := t.recs }

/-- A wing's own state differs in what slots change: the operations in flight and the wake builder. -/
def WingSt.woken (a b : WingSt) : Prop := b = { a with opsTotal := b.opsTotal, beats := b.beats, withheld := b.withheld }

/-- Beside its answer, a command has changed records, waiting operations, slots with their uses, and the wake builders. -/
def State.serves (s t : State) : Prop :=
  s.wq.woken t.wq ∧ s.wk.woken t.wk ∧
  t = { s with spent := t.spent, trace := t.trace, lanes := t.lanes, entries := t.entries, recs := t.recs, slots := t.slots,
               use := t.use, wq := t.wq, wk := t.wk, waitq := t.waitq }

/-- The slot of a command that waits, as it is bound (R84): the object, its wing, the caller's domain and PENDING's VALUE. -/
def boundSlot (obj dom : Nat) (v : BitVec 51) : SlotRec :=
  { obj := some obj, home := .wing (wingOf obj), dom := dom, qwing := wingOf obj, value := v, entry := none, ready := none }

/-- A command waits on its object: its slot is bound, and its waiter stands in the object's queue (R84, R162, R178). -/
def State.waits (s t : State) (x : Src) (w : CmdW) (kind : WaitKind) (prio : Nat) (v : BitVec 51) : Prop :=
  (∀ q j, t.slot q j = if 8 * q + j = 8 * x.pos + w.slot.toNat then some (boundSlot w.obj.toNat (s.domOf x.pos) v) else s.slot q j) ∧
  t.waiters w.obj.toNat =
    enqueue (s.waiters w.obj.toNat) { pos := x.pos, slot := w.slot.toNat, prio := prio, kind := kind } ∧
  ∀ n, n ≠ w.obj.toNat → t.waiters n = s.waiters n

/-- No two of an object's waiters wait on the same slot. -/
def distinctSlots (l : List Waiter) : Prop := (l.map (fun y => 8 * y.pos + y.slot)).Nodup

/-- The slots of a list of completions are READY (R84), every other slot is as before, and `left` still waits on the object. -/
def State.wakes (s t : State) (obj : Nat) (left : List Waiter) (l : List (Nat × Nat × Status × BitVec 51)) : Prop :=
  (∀ q j, t.slot q j = match l.find? (fun y => 8 * y.1 + y.2.1 == 8 * q + j) with
    | some y => (s.slot q j).map (fun r => if r.ready.isSome then r else { r with ready := some (y.2.2.1, y.2.2.2) })
    | none => s.slot q j) ∧
  t.waiters obj = left ∧ ∀ n, n ≠ obj → t.waiters n = s.waiters n

/-- A local lock has passed to a waiter `y` (R163, R164, R166, R171), whose slot is READY with `st`; the waiters left see the new holder. -/
def State.lockPassed (s t : State) (obj : Nat) (o : Obj) (l : Lock) (y : Waiter) (st : Status) : Prop :=
  let me := BitVec.ofNat 51 (s.identity y.pos).toNat
  let left := dequeue (s.waiters obj) y.pos y.slot
  let l1 : Lock := { l with
    holder := s.identity y.pos, held := true, orphaned := false, prio := y.prio, eff := hi y.prio (topPrio left) }
  s.puts t obj (some { o with body := .lock l1 }) ∧
  t.slot y.pos y.slot = (s.slot y.pos y.slot).map (fun r => if r.ready.isSome then r else { r with ready := some (st, me) }) ∧
  t.waiters obj = dequeue (s.waiters obj) y.pos y.slot ∧
  (∀ z ∈ t.waiters obj, t.slot z.pos z.slot = (s.slot z.pos z.slot).map (fun r => { r with value := me })) ∧
  (∀ q j, (∀ z ∈ s.waiters obj, 8 * z.pos + z.slot ≠ 8 * q + j) → t.slot q j = s.slot q j) ∧
  ∀ n, n ≠ obj → t.waiters n = s.waiters n

/-! ### Notices (R167, R183, R188 to R190) -/

/-- Can a notice neither merge into a word that waits nor stand as an eighth word (R190)? -/
def NoteQ.full (q : NoteQ) (n : Notice) : Bool := !q.words.any (fun m => m.merges n) && decide (7 ≤ q.words.length)

/-- A position's queue once a notice has come (R190): merged into the word of its kind, object and agent, behind the others, or counted
in the overflow word. -/
def NoteQ.takes (q : NoteQ) (n : Notice) : NoteQ :=
  if q.full n then { q with overflow := sat 0x7FFF q.overflow }
  else if q.words.any (fun m => m.merges n) then { q with words := mergeNote n q.words }
  else { q with words := q.words ++ [n] }

/-- The positions that a promotion notice for a position goes to: its own and its SCHED_POS, once when they are the same (R167). -/
def State.dests (s : State) (p : Nat) : List Nat := if (s.posEnt p).schedPos = p then [p] else [p, (s.posEnt p).schedPos]

/-- A promotion notice of an object reaches its positions at once, and its loss is mild: their wings are ACTIVE, and the seam is open where
one of them is the other wing (R188). -/
def State.tellable (s : State) (obj p : Nat) : Prop :=
  ∀ q ∈ s.dests p, s.active (posWing q) = true ∧ (posWing q = wingOf obj ∨ s.contained bSEAM = false) ∧ s.mild (bWAKE (posWing q)) 1

/-- A promotion notice has gone to a position and its SCHED_POS; each word dropped counts in WAKE_NOTE of its wing (R190). -/
def State.tells (s t : State) (p : Nat) (n : Notice) : Prop :=
  (∀ q, t.noteQ q = if q ∈ s.dests p then (s.noteQ q).takes n else s.noteQ q) ∧
  (∀ w, let drops := (s.dests p).filter (fun q => (s.noteQ q).full n && posWing q == w)
    t.wing w = { s.wing w with
      opsTotal := (t.wing w).opsTotal, beats := (t.wing w).beats, withheld := (t.wing w).withheld
      dropCnt := drops.foldl (fun k _ => sat 0xFFFF k) (s.wing w).dropCnt, lastPos := drops.getLast?.getD (s.wing w).lastPos } ∧
    (drops = [] → t.blk (bWAKE w) = s.blk (bWAKE w))) ∧
  ∀ b, (∀ w, b ≠ bWAKE w) → t.blk b = s.blk b

/-- Beside its answer, a command has changed records, waiting operations, slots with their uses and lock directories, and has sent a
notice. -/
def State.servesNoting (s t : State) : Prop :=
  t = { s with spent := t.spent, trace := t.trace, lanes := t.lanes, entries := t.entries, recs := t.recs, slots := t.slots
               use := t.use, wq := t.wq, wk := t.wk, waitq := t.waitq, notes := t.notes, files := t.files, blks := t.blks
               lockDir := t.lockDir, dirLag := t.dirLag, resets := t.resets }

/-- A lock's effective priority has risen over the holder's (R167): a HOLDER notice has gone out, and FIL_PROMO and FIL_PROMOBJ show it. -/
def State.promotes (s t : State) (obj p eff waiter : Nat) (holder : BitVec 26) : Prop :=
  s.tells t p (.holder obj eff p waiter) ∧
  ∀ f, t.file f = if f = fileOf obj then { s.file f with promo := some (eff, holder, obj) } else s.file f

/-! ### Fault sources -/

/-- A mild source of a block has set in `t`, as its severity says (R329, R344): at OFF the fault registers stay, else its STAT bit
is set with a new sequence number. The other blocks' fault registers are as before. -/
def State.setsBit (s t : State) (b src : Nat) : Prop :=
  t.blk b = (if s.severity b src = 0 then s.blk b else (s.blk b).setBit src) ∧ ∀ c, c ≠ b → t.blk c = s.blk c

/-- A block as it is once contained by a source (R337): CAUSE names it, CONTAIN_CNT counts, and at the recovery limit EXIT reads 0
(R342). -/
def Blk.containedBy (x : Blk) (src : Nat) : Blk :=
  { x with fstate := .contained, cause := src, contCnt := sat 0xFFFF x.contCnt, graceEnd := 0
           exitMan := x.exitMan || decide (x.rlimit ≤ x.rcount) }

/-- A block as it is once one of its sources of severity CONTAIN has set while it was not contained (R329, R337, R342). -/
def Blk.struckBy (x : Blk) (src now : Nat) : Blk := ({ x.setBit src with lastSet := now } : Blk).containedBy src

/-- No held command and no request for a global lock stands at a file's objects, so that its containment answers none. -/
def State.fileRests (s : State) (f : Nat) : Prop :=
  twf none s.slots = true ∧ (∀ g ∈ s.glockReqs, fileOf g.obj ≠ f) ∧
  ∀ h ∈ s.held, (∀ late, h.place ≠ .caught (bFIL f) late) ∧ (∀ o, h.place = .file o → fileOf o ≠ f) ∧
    (h.place = .aside → fileOf h.w.obj.toNat ≠ f)

/-- A file is contained (R338): every bound slot on one of its objects that had no completion is READY with ABORTED and the object, no
other slot has changed, and nobody waits in the file any more. Records, lists, accumulators and staged operands stay as they were. -/
def State.fileAborts (s t : State) (f : Nat) : Prop :=
  (∀ q j, t.slot q j = (s.slot q j).map (fun r =>
    if r.ready.isNone && r.obj.any (fun o => fileOf o == f) then { r with ready := some (.aborted, BitVec.ofNat 51 (r.obj.getD 0)) } else r)) ∧
  (∀ o, t.waiters o = if fileOf o = f then [] else s.waiters o) ∧ s.wq.woken t.wq ∧ s.wk.woken t.wk ∧
  t = { s with slots := t.slots, use := t.use, waitq := t.waitq, wq := t.wq, wk := t.wk, lockDir := t.lockDir, dirLag := t.dirLag
               resets := t.resets, recs := t.recs, blks := t.blks, trace := t.trace }

/-! ### Links and frames -/

/-- A FAST port at rest: nothing waits, is unacknowledged or refused, and no quiesce or loopback is under way. -/
def Port.still (p : Port) : Prop :=
  p.state = .fast ∧ p.loop = none ∧ p.via = none ∧ p.waitQ = [] ∧ p.unacked = [] ∧ p.refusedQ = [] ∧ p.quiescing = false

/-- Credits of a virtual lane return, up to the lane's buffers of Table 10.9 (R292). -/
def returned (l : List Nat) (vl n : Nat) : List Nat := updAt l vl (fun x => Nat.min ([8, 16, 16, 8].getD vl 8) (x + n))

/-- What is known of a chip that is heard at a time (R240). -/
def ChipSt.heardAt (c : ChipSt) (now : Nat) : ChipSt :=
  { c with heard := true, last := now, silent := false, liveFrom := if c.heard && !c.silent then c.liveFrom else now }

/-- Hearing a chip makes this chip send no copies of global locks to a standby (R176): the chip was not silent, or no lock is in use. -/
def State.copiesNothing (s : State) (c : BitVec 16) : Prop := (s.chip c).silent = false ∨ ∀ x ∈ s.glocks, x.2 = Glock.free

/-- A frame for this chip arrives in sequence at a port at rest of an ACTIVE wing of the running block (R290), and no copy of a global
lock is due because its sender is heard again. -/
def State.receives (s : State) (k : Nat) (e : Eof) (f : Frame) : Prop :=
  s.between ∧ s.active (shpWing k) = true ∧ (s.port k).still ∧ e.lseq = (s.port k).expect ∧ f.dst = s.me ∧ s.boardChip k ≠ s.me ∧
  s.copiesNothing (s.boardChip k) ∧ (f.fwd = true → s.copiesNothing f.src)

/-- What is known of each chip once a frame has come by a port: its direct sender is heard, and the frame's source when it was
forwarded (R240, R294). -/
def State.heardBy (s : State) (k : Nat) (f : Frame) (c : BitVec 16) : ChipSt :=
  if c ≠ s.me ∧ (c = s.boardChip k ∨ (f.fwd = true ∧ c = f.src)) then (s.chip c).heardAt s.now else s.chip c

/-- The port after it has accepted a frame (R290, R292); ALIVE frames do not count as use. -/
def Port.took (p : Port) (e : Eof) (alive : Bool) (now : Nat) : Port :=
  { p with expect := p.expect + 1, nakSent := false, quiesced := false, peerQuiesce := false
           lastUse := if alive then p.lastUse else now, credits := returned p.credits e.crVl.toNat e.crCnt.toNat }

/-- The link has taken a frame of a virtual lane (R290, R292): the port expects the next LSEQ, every other port is as before, and an
IDLE block acknowledges the frame and returns its buffer's credit. -/
def State.linked (s t : State) (k : Nat) (e : Eof) (vl : Nat) (alive : Bool) : Prop :=
  t.port k = (s.port k).took e alive s.now ∧ (∀ j, j ≠ k → t.port j = s.port j) ∧
  t.out = .ctl k (.idle (s.port k).expect (BitVec.ofNat 2 vl) 1) :: s.out

/-- A port that has taken a frame may at once send one on a virtual lane. -/
def State.mayReply (s : State) (k : Nat) (e : Eof) (vl : Nat) : Prop :=
  0 < (returned (s.port k).credits e.crVl.toNat e.crCnt.toNat).getD vl 0 ∧ s.contained (bCMB (shpWing k)) = false

/-- The link has taken a frame, and a frame goes back by the same port, where it waits for its acknowledgement. -/
def State.linkReplied (s t : State) (k vl : Nat) (g : Frame) : Prop :=
  (t.port k).expect = (s.port k).expect + 1 ∧ (t.port k).state = .fast ∧ (t.port k).waitQ = [] ∧
  (t.port k).unacked = [{ lseq := (s.port k).lseq, f := g }] ∧ (∀ j, j ≠ k → t.port j = s.port j) ∧
  t.out = .frame k ((t.port k).eof (s.port k).lseq g) g :: .ctl k (.idle (s.port k).expect (BitVec.ofNat 2 vl) 1) :: s.out

/-- A FAST port at rest sends a frame, which then waits for its acknowledgement (R290). -/
def State.linkSends (s t : State) (k : Nat) (g : Frame) : Prop :=
  (t.port k).state = .fast ∧ (t.port k).waitQ = [] ∧ (t.port k).unacked = [{ lseq := (s.port k).lseq, f := g }] ∧
  (t.port k).lseq = (s.port k).lseq + 1 ∧ (∀ j, j ≠ k → t.port j = s.port j) ∧
  t.out = .frame k ((s.port k).eof (s.port k).lseq g) g :: s.out

/-- The rows of sync frames that Table 10.11 lists, by FTYPE. -/
def frameRows : List (BitVec 8 × (BitVec 4 → Eof → Frame → Instr)) :=
  [(0x01, .hello), (0x02, .alive), (0x03, .time), (0x04, .takeover), (0x05, .answer), (0x06, .suspect), (0x07, .resignFrame),
   (0x08, .fall), (0x10, .arrival), (0x11, .half1), (0x12, .rsWord), (0x18, .release), (0x19, .agWord), (0x1A, .half1Down),
   (0x20, .remote)]

/-- A link has gone DOWN for a cause (R277): it is counted, what was sent and not acknowledged waits again, and LINK_DOWN sets. -/
def State.downed (s t : State) (k why : Nat) : Prop :=
  (t.port k).state = .down ∧ (t.port k).why = why ∧ (t.port k).downCnt = sat 0xFF (s.port k).downCnt ∧ (t.port k).downAt = s.now ∧
  (t.port k).waitQ = (s.port k).unacked.map (fun x => x.f) ++ (s.port k).refusedQ.map Prod.snd ++ (s.port k).waitQ ∧
  (t.port k).unacked = [] ∧ (t.port k).refusedQ = [] ∧ (t.port k).await = none ∧ (∀ j, j ≠ k → t.port j = s.port j) ∧
  s.setsBit t (bSHP k) 0

/-- A link that goes DOWN is nobody's loss: its wing is ACTIVE, LINK_DOWN is mild, no intermediate seat serves it, every frame of its
port is this chip's own for its seat, and no joined group has its chip. -/
def State.lonely (s : State) (k : Nat) : Prop :=
  s.active (shpWing k) = true ∧ s.mild (bSHP k) 0 ∧ s.intermediate k = none ∧
  (∀ f ∈ (s.port k).unacked.map (fun x => x.f) ++ (s.port k).refusedQ.map Prod.snd ++ (s.port k).waitQ,
    f.fwd = false ∧ seatOf f.dst = k) ∧
  ∀ g ∈ s.joined, s.mem g (s.boardChip k) = false

/-- The port as it enters FAST with nothing to send (R285, R286). -/
def Port.fresh (p : Port) (now : Nat) : Port :=
  { p with state := .fast, trained := true, await := none, onWake := false, lseq := 0, expect := 0, nakSent := false
           credits := [8, 16, 16, 8], replays := 0, waitQ := [], unacked := [], refusedQ := [], quiescing := false
           quiesced := false, peerQuiesce := false, lastUse := now, sched := p.sched.keep [] }

/-- Nothing waits at a port, and nothing that it sent is left. -/
def Port.clear (p : Port) : Prop := p.waitQ = [] ∧ p.unacked = [] ∧ p.refusedQ = []

/-- A port in DETECT of a training attempt (R285). -/
def Port.detecting (p : Port) (attempt now : Nat) : Port :=
  { p with state := .training, phase := 0, phaseAt := now, attempt := attempt, aliveIn := 0, trainIn := 0, lastTx := now }

/-- A port after an ACK (R290, R291). -/
def Port.acked (p : Port) (ack : BitVec 8) (now : Nat) : Port :=
  if (ackDrop p.unacked ack).length = p.unacked.length then p
  else { p with unacked := ackDrop p.unacked ack, replays := 0, ackAt := now }

/-- A quiet frame of this chip (R279). -/
def State.quietOut (s : State) (k cls : Nat) : Out := .quiet k (encodeQuiet (BitVec.ofNat 4 (seatOf s.me)) (BitVec.ofNat 4 cls))

/-- A wing that was ADJOURNED or DEEP starts its exit at the effective P-level, and the last-wake record says why (R322, R326). -/
def State.exits (s t : State) (w : Wing) (source detail : Nat) : Prop :=
  t.pwr w = { s.pwr w with
    state := .exiting, exitFrom := (s.pwr w).state, exitAt := s.now, reqAt := s.now, hand := .reg, lateExit := false, regEn := true
    regLvl := s.effective w, target := s.effective w
    lastWake := some { source := source, state := (s.pwr w).state, ap := 7, detail := detail, exit := 0, time := s.now } } ∧
  t.wing w = { s.wing w with pwr := t.pwr w } ∧ t.wing w.other = s.wing w.other

/-! ### The tunnel port -/

/-- The tunnel port runs and nothing waits at any of its contexts. -/
def State.tunCalm (s : State) : Prop :=
  s.tunRuns = true ∧ twf TunCtx.closed s.tun.ctxs = true ∧ ∀ j, (s.ctx j).waitQ = []

/-- An OPEN context may send at once. -/
def State.tunStill (s : State) (i : Nat) : Prop :=
  s.tunCalm ∧ (s.ctx i).state = .open ∧ (s.ctx i).unacked.length < 256 ∧ s.poolUsed < 1024

/-- A context has sent a frame in a DATA packet (R303). -/
def State.sendsData (s t : State) (i : Nat) (f : Frame) : Prop :=
  (t.ctx i).unacked = (s.ctx i).unacked ++ [{ seq := (s.ctx i).sndNxt, at_ := s.now, f := f }] ∧ (t.ctx i).sndNxt = (s.ctx i).sndNxt + 1 ∧
  (t.ctx i).waitQ = [] ∧ (t.ctx i).lastTx = s.now ∧ (∀ j, j ≠ i → t.ctx j = s.ctx j) ∧
  t.out = .data ((s.ctx i).head ((s.ctx i).edge && !(s.ctx i).trialArm) (s.ctx i).sndNxt) f :: s.out

/-- Contexts may have become join contexts (R370); the tunnel port is as before else. -/
def State.reclassed (s t : State) : Prop :=
  t.tun = { s.tun with ctxs := t.tun.ctxs } ∧ ∀ j, t.ctx j = { s.ctx j with join := (t.ctx j).join }

/-! ### Levels -/

/-- Nothing of the levels waits for news: no level context, no CHILD in PARENT_WAIT, nothing parked for a wing. -/
def State.levelsRest (s : State) : Prop :=
  s.lctxs = [] ∧ (∀ y ∈ s.barriers, y.2.parentWait = false) ∧ s.wq.parked = [] ∧ s.wk.parked = []

/-- A frame carries a term of its level that is neither older nor newer than this chip's (R240, R242). -/
def State.termNow (s : State) (g : Nat) (f : Frame) : Prop :=
  s.stale g f.level.toNat f.term = false ∧ newer f.term ((s.group g).terms.getD (f.level.toNat - 1) 0) = false

/-- A whole level message in one fragment reaches its context (R232, R233, R300): the relay and its CHILD are at hand and served, this
chip takes part in the group, the frame's group and term are right, and its generation is PGEN or the next. -/
def State.levelTaken (s : State) (ty : BitVec 8) (f : Frame) (l : Lvl) (x : LvlCtx) : Prop :=
  ∃ r, s.relay f.obj.toNat = some r ∧ s.atHand f.obj.toNat ∧ s.atHand r.child ∧ s.active (wingOf f.obj.toNat) = true ∧
    s.active (wingOf r.child) = true ∧ s.contained bSEAM = false ∧ s.contained (bCMB (wingOf f.obj.toNat)) = false ∧
    s.fileContained f.obj.toNat = false ∧ s.fileContained r.child = false ∧ s.mem r.group s.me = true ∧ r.group = f.group.toNat ∧ s.termNow r.group f ∧
    (f.gen - r.pgen).toNat ≤ 1 ∧
    s.lvl f.obj.toNat f.gen = some l ∧ s.lctx l.key = some x ∧ f.frag = 0 ∧ f.fcount = 0 ∧
    ∀ y ∈ s.gather, y.takes { f with ftype := ty } = false

/-- A context of a generation to which this chip has not yet contributed: L1 cannot complete here. -/
def LvlCtx.waiting (x : LvlCtx) (me : BitVec 16) : Prop :=
  x.own = none ∧ x.l1 = none ∧ x.l2 = none ∧ x.rel = none ∧ x.half1 = none ∧ x.whole = false ∧ x.has .rs me = false ∧
  x.has .l3 me = false

/-- The payload of a message of one fragment (R300). -/
def framePayload (f : Frame) : BitVec 2048 := BitVec.ofNat 2048 (leNat (f.body.take 48))

/-! ### Power -/

/-- Nothing waits for a wing to become ACTIVE (R322): no latched event, grace timer, reset notice, lock directory update, unit at the seam,
held command or frame, and no sequencer whose wait is met. -/
def State.nothingWaits (s : State) (w : Wing) : Prop :=
  (s.wing w).latched = [] ∧ (∀ b, blkWing b = some w → (s.blk b).fstate ≠ .grace) ∧ s.resets = [] ∧
  s.dirLag = [] ∧ (∀ u ∈ s.seam, u.into ≠ w) ∧ (s.wing w).withheld = [] ∧ s.noneHolding ∧
  (∀ h ∈ s.held, h.waitsFor w = false ∧ ∀ b, h.place ≠ .seam w b) ∧
  (∀ k, shpWing k = w → (s.port k).waitQ = [] ∧ (s.port k).onWake = false) ∧
  (w = .k → s.tun.front = none ∧ twf TunCtx.closed s.tun.ctxs = true ∧
    ∀ j, (s.ctx j).waitQ = [] ∧ (s.ctx j).failed = false ∧ (s.ctx j).openDue = false) ∧
  (∀ k, seqWing k = w → (s.seq k).met = false) ∧ s.levelsRest

/-- A time has passed (R307, R318): the timebase has gone on, and each wing counts how long it has had no vote and been quiescent. -/
def State.passes (s t : State) (dt : Nat) : Prop :=
  t.now = s.now + dt ∧ ∀ w, t.wing w = s.wing w ∧ t.trace.calm w = (if s.resting w then s.trace.calm w + dt else 0)

/-- No µs tick has work: no parity error waits, the suspect table is empty, no action or remote operation waits aside, and FL_RESET_N has
risen. -/
def State.tickRests (s : State) : Prop :=
  s.pins.flResetN = true ∧ twf 0 s.spent = true ∧ s.tsync.slew = 0 ∧ (∀ b, (s.blk b).parityIn = 0) ∧ s.susp.table = [] ∧ s.held.all (fun h => !h.inner) = true

/-- Every bucket has gained its domain's rate, up to its depth (R114). -/
def State.bucketsGain (s t : State) : Prop :=
  ∀ v d, d < 1024 → tget 0 t.spent (wd v d) = tget 0 s.spent (wd v d) - byWing v (s.domain d).rateQ (s.domain d).rateK

/-- A wing's power state is `p`; the wing's other state and the other wing are as before. -/
def State.powers (s t : State) (w : Wing) (p : Pwr) : Prop :=
  t.wing w = { s.wing w with pwr := p } ∧ t.wing w.other = s.wing w.other

/-- THR_ACK of a wing that has its clock, at a P-level and a ceiling (R311). -/
def Pwr.acks (p : Pwr) (lvl ceil : Nat) : Bool := p.thrAck || decide (ceil ≤ lvl)

/-- A wing's power state once it is ACTIVE, with nothing waiting for it (R322, R326). -/
def Pwr.back (p : Pwr) (now : Nat) : Pwr :=
  { p with state := .active, ap := 7, wakePend := none
           lastWake := if p.exitFrom = .idle then p.lastWake
                       else p.lastWake.map (fun r => { r with exit := exitUnits r.time now }) }

/-- The block enters HALTED with a code (R69): both wings lose power, and HALT sets. -/
def State.halts (s t : State) (code : Nat) : Prop :=
  t.iml = { s.iml with stage := .halted, halt := code, staged := none, trying := none } ∧
  (∀ w, t.wing w = { s.wing w with
    pwr := { s.pwr w with state := .off, hand := .none, regEn := false, oscEn := false, memLvl := 3 } }) ∧
  t.blk bIML = (s.blk bIML).setBit 3 ∧ ∀ b, b ≠ bIML → t.blk b = s.blk b

/-- Start-up is out of reset, at a stage (R59). -/
def State.starting (s : State) (st : Stage) : Prop := s.calm ∧ s.inReset = false ∧ s.iml.stage = st

/-- The arrays and the tables that a slot had filled are zero again (R58, R61). -/
def State.zeroed (t : State) : Prop :=
  t.img = ImageBody.empty ∧ t.posmap = [] ∧ t.recs = [] ∧ t.files = [] ∧ t.use = [] ∧ t.mblocks = [] ∧ t.ablocks = [] ∧ t.accs = []

/-- A slot has failed with a code (R49, R58): the other slot is loaded when it has no result, else the block halts with code 1. -/
def State.slotFailed (s t : State) (slotB : Bool) (code : Nat) : Prop :=
  t.zeroed ∧ t.iml.failA = (if slotB then s.iml.failA else code) ∧ t.iml.failB = (if slotB then code else s.iml.failB) ∧
  (if (if slotB then s.iml.failA else s.iml.failB) = 0 then t.iml.stage = .load ∧ t.iml.trying = some (!slotB) ∧ t.blks = []
   else t.iml.stage = .halted ∧ t.iml.halt = 1 ∧ (t.blk bIML).stat = BitVec.twoPow 32 3 ∧ (t.pwr .q).state = .off ∧ (t.pwr .k).state = .off)

/-- The wrapped and wing state is as after PORESET_N (R380, R395, R396): reset but for the ROM and OTP, the stacked memory's contents, what
left the block, the test access with the results of the link instruments, the throttle ceilings that the pins hold, and what the model
keeps of the flash's SFDP. -/
def State.cleared (s t : State) : Prop :=
  t = { State.reset with
    pending := s.pending, free := s.free, out := s.out, rom := s.rom, backing := s.backing, ports := keptPorts s.ports, tap := t.tap, iml := t.iml
    wq := t.wq, wk := t.wk } ∧
  t.iml = { Iml.reset with porLow := t.iml.porLow, sfdp := s.iml.sfdp } ∧
  ∀ w, t.wing w = { WingSt.reset with pwr := { Pwr.reset with ceil := (s.pwr w).ceil } }

end Sys2Proof.Machine
end

