-- ==== Sys2Proof/WellFormed.lean ====
section
/-! DEFINITION. Well-formed commands: each operand within the range that the spec gives it. -/
namespace Sys2Proof

/-- Is a number a position of the chip (R8, R23)? -/
def posOk (p : Nat) : Bool := decide (p < 768)

/-- A row has 16 words (R349). -/
def RowFind.wf : RowFind → Bool
  | .clean => true
  | .corrected n => decide (1 ≤ n) && decide (n ≤ 16)
  | .uncorrectable n l => decide (n ≤ 15) && l != 0

/-- The errors that come with a command name rows of Table 13.1 (banks 64 to 66 for the operation table and the wait-slot store), parity
sources of Table 12.3, and blocks of Table 12.2. -/
def Strikes.wf (x : Strikes) : Bool :=
  x.rows.all (fun y => decide (512 * y.1.bank + y.1.row < 34048) && decide (y.1.row < 512) && y.2.wf) &&
    x.parity.all (fun y => [(14, 4), (15, 4), (14, 5), (15, 5), (16, 2), (17, 2), (36, 3)].contains y || (decide (4 ≤ y.1) && decide (y.1 < 12) && y.2 == 6) ||
      (decide (20 ≤ y.1) && decide (y.1 < 36) && y.2 == 2)) &&
    x.regs.all (fun y => decide (y.1 < 37) && decide (y.2 < 3))

/-- A source's position is one of the 768 (R80), the errors that come with it are of the kinds that the hardware has, and a block that holds its command is one of
the 37 (R41). -/
def Src.wf (s : Src) : Bool := posOk s.pos && s.strikes.wf && (match s.path with
  | .caught _ b => decide (b < 37)
  | _ => true)

/-- A frame's body has 48 bytes (R298). -/
def Frame.wf (f : Frame) : Bool := f.body.length == 48

/-- A row lies in a bank of Table 13.1: banks 0 to 63, 512 logical rows. -/
def RowId.wf (r : RowId) : Bool := decide (r.bank < 64) && decide (r.row < 512)

/-- BIST names a row, or a spare of a bank, numbered from 512, that does not read back right (R353, R361). -/
def RowId.wfBist (r : RowId) : Bool := decide (r.bank < 64) && decide (r.row < 520)

/-- A spare lies in a bank: 8 spares (R349). -/
def RowId.wfSpare (r : RowId) : Bool := decide (r.bank < 64) && decide (r.row < 8)

/-- A holder is a position or a sequencer of the chip (R268). -/
def HoldBy.wf : HoldBy → Bool
  | .pos p => posOk p
  | .seq k => decide (k < 32)

/-- A carrier is one of the 512 contexts or a port (R302). -/
def Carrier.wf : Carrier → Bool
  | .port _ => true
  | .ctx i => decide (i < 512)

/-- A directory copy is read as 64 bytes (R47). -/
def dirBytesOk (b : List Byte) : Bool := b.length == 64

/-- A ledger copy has 2,048 positions (R359); those past its list are erased. -/
def ledgerOk (l : List (BitVec 256)) : Bool := decide (l.length ≤ 2048)

/-- A sector of the boot record area has 128 positions (R66); those past its list are erased. -/
def bootsOk (l : List (BitVec 256)) : Bool := decide (l.length ≤ 128)

/-- Well-formedness of each row's operands. -/
def Instr.wf : Instr → Bool
  | .nop s _ | .open s _ | .close s _ | .bindMembers s _ | .pin s _ | .unpin s _ | .arrive s _ | .arriveWait s _
  | .wait s _ | .poll s _ | .cancelWait s _ | .semPost s _ | .semTake s _ | .semTry s _ | .lockAcquire s _
  | .lockTry s _ | .lockRelease s _ | .lockHandoff s _ | .tokenGive s _ | .tokenTake s _ | .tokenTry s _
  | .flagSet s _ | .flagClear s _ | .payloadWrite s _ | .resultRead s _ | .ledgerPost s _ | .ledgerCheck s _
  | .ledgerRead s _ | .vote s _ | .unvote s _ | .holdRequest s _ | .holdDone s _ | .seqStart s _ | .seqStop s _
  | .readReg s _ | .writeReg s _ | .clearStatus s _ | .resign s _ | .reassign s _ | .remap s _ => s.wf
  | .grant s w => s.wf && !w.arg.getLsbD 10
  | .grantRevoke s w => s.wf && w.arg.getLsbD 10
  | .responseEntryRead _ r _ n _ => posOk r && decide (1 ≤ n) && decide (n ≤ 16)
  | .lateCompletion p | .queuedCommandResume p _ _ | .secondStalemateWalk _ p | .orphaning p => posOk p
  | .rstNotify p => decide (p < 1024)
  | .plyPageArrival _ page plies _ => decide (page < 15360 + 8192) && plies.length == 64
  | .holdDurationEnd w => w.wf
  | .hello _ _ f | .alive _ _ f | .arrival _ _ f | .half1 _ _ f | .rsWord _ _ f | .release _ _ f | .agWord _ _ f
  | .half1Down _ _ f | .takeover _ _ f | .answer _ _ f | .suspect _ _ f | .resignFrame _ _ f | .fall _ _ f
  | .time _ _ f | .remote _ _ f | .glockRequest _ _ f | .glockRelease _ _ f | .glockGrant _ _ f
  | .glockOrphanReport _ _ f | .glockWithdrawal _ _ f | .reservedFtype _ _ f => f.wf
  | .aliveDue c => c.wf
  | .levelDeadline _ _ l => l != 0
  | .suspectForget _ l _ => l != 0
  | .probeDue i | .ackDelay i | .retransmitTimeout i | .edgeRetry i | .openBusyRetry i => decide (i < 512)
  | .tunnelData p => p.frame.wf
  | .graceExpiry b | .autoRecovery b | .registerReload b _ => decide (b < 37)
  | .scrubRow _ x => x.wf
  | .displacementCopy _ r _ => decide (r < 4096)
  | .discovery _ a b => dirBytesOk a && dirBytesOk b
  | .bist a b => a.all RowId.wfBist && b.all RowId.wf
  | .mbistDone a b => a.all RowId.wf && b.all RowId.wfSpare
  | .ingLoadClrCnt s _ _ | .ingWinClr s _ _ | .ingRefuseClr s _ _ | .filPageClr s _ _ | .filLedgerClr s _ _
  | .wakeNoteClr s _ _ | .seqPageClr s _ _ | .cmbLvlerrClr s _ _ | .clrAll s _ | .clrSel s _ | .shpCnt0Clr s _ _
  | .tunCntClr s _ | .tcuHoldcntClr s _ | .tcuPwrcntClr s _ | .repScrubClr s _ _ | .flashRelease s _
  | .flashReclaim s _ => s.wf
  | .repair c0 c1 b bad => ledgerOk c0 && ledgerOk c1 && bootsOk b.first && bootsOk b.second && bad.all RowId.wf
  | .bootRecordAppend x => bootsOk x.area.first && bootsOk x.area.second
  | .traceEnable (.agent s _) r v => s.wf && r == .ctl && v.getLsbD 31
  | .pcselWrite s _ _ code => s.wf && decide (code.toNat ≤ 9)
  | .margin _ p t d a => decide (-32 ≤ p) && decide (p ≤ 32) && decide (-50 ≤ t) && decide (t ≤ 50) && decide (16 ≤ d) &&
      decide (d ≤ 30) && decide (a ≤ 255)
  | .reservedOpcode s _ opc => s.wf && (opc == 0x3F || !(reservedGaps opc))
  | .badSubmit _ x => decide (x.stamp < 1024)
  | _ => true
where
  /-- Is a code one that Table 3.3 assigns? -/
  reservedGaps (c : BitVec 6) : Bool :=
    [0x00, 0x01, 0x02, 0x03, 0x04, 0x05, 0x06, 0x08, 0x09, 0x0A, 0x0B, 0x0C, 0x10, 0x11, 0x12, 0x14, 0x15, 0x16, 0x17,
     0x18, 0x19, 0x1A, 0x1C, 0x1D, 0x20, 0x21, 0x24, 0x25, 0x26, 0x28, 0x29, 0x2A, 0x2B, 0x2C, 0x2D, 0x30, 0x31, 0x32,
     0x34, 0x35, 0x36].contains c.toNat

end Sys2Proof
end

