-- ==== Sys2Proof/Certificates/Slice0/Obligations.lean ====
section
/-! DEFINITION. The statements for the provers. -/
open Sys2Proof Sys2Proof.Machine

/-! ### Agent commands on objects -/

/-- R186: FLAG_SET sets the flag, counts the set, and completes every waiter of a clear flag with OK and the set count; FLAG_CLEAR
clears it. R187: WAIT answers at once on a set flag, and waits on a clear one. Nothing else changes. -/
def Obligations.FlagsDo : Prop :=
  ∀ (s : State) (x : Src) (w : CmdW) (o : Obj) (b : Bool) (n : BitVec 32),
    s.obj w.obj.toNat = some o → o.body = .flag b n →
    (s.reaches x .flagSet w → distinctSlots (s.waiters w.obj.toNat) →
      ∃ t, exec (.flagSet x w) s = .next t ∧
        s.answered t x .flagSet w .ok (if b then 0 else BitVec.ofNat 51 (s.waiters w.obj.toNat).length) ∧
        s.puts t w.obj.toNat (some { o with body := .flag true (n + 1) }) ∧
        s.wakes t w.obj.toNat (if b then s.waiters w.obj.toNat else [])
          (if b then [] else (s.waiters w.obj.toNat).map (fun y => (y.pos, y.slot, Status.ok, BitVec.ofNat 51 (n + 1).toNat))) ∧
        s.serves t) ∧
    (s.reaches x .flagClear w →
      ∃ t, exec (.flagClear x w) s = .next t ∧ s.answered t x .flagClear w .ok 0 ∧
        s.changed t w.obj.toNat (some { o with body := .flag false n })) ∧
    (s.reaches x .wait w → s.waitFormat (s.caller x .wait w) = none →
      (b = true →
        ∃ t, exec (.wait x w) s = .next t ∧ s.answered t x .wait w .ok (BitVec.ofNat 51 n.toNat) ∧ s.answersOnly t) ∧
      (b = false →
        ∃ t, exec (.wait x w) s = .next t ∧ s.answered t x .wait w .pending (BitVec.ofNat 51 w.obj.toNat) ∧
          s.waits t x w .flag 0 (BitVec.ofNat 51 w.obj.toNat) ∧ t.recs = s.recs ∧ s.serves t))

/-- R177: SEM_POST raises the count and serves the takers from the front of the queue; SEM_TAKE and SEM_TRY take what the count
covers when no taker stands ahead, else SEM_TAKE waits and SEM_TRY answers BUSY with the count (R178, R179). -/
def Obligations.SemaphoresDo : Prop :=
  ∀ (s : State) (x : Src) (w : CmdW) (o : Obj) (n : Nat),
    s.obj w.obj.toNat = some o → o.body = .sem n →
    (s.reaches x .semPost w → distinctSlots (s.waiters w.obj.toNat) → n + w.amount < 2 ^ 31 →
      ∃ t, exec (.semPost x w) s = .next t ∧
        s.answered t x .semPost w .ok (BitVec.ofNat 51 (serve (s.waiters w.obj.toNat) (n + w.amount)).2.2) ∧
        s.puts t w.obj.toNat (some { o with body := .sem (serve (s.waiters w.obj.toNat) (n + w.amount)).2.2 }) ∧
        s.wakes t w.obj.toNat (serve (s.waiters w.obj.toNat) (n + w.amount)).2.1
          ((serve (s.waiters w.obj.toNat) (n + w.amount)).1.map (fun y => (y.1.pos, y.1.slot, Status.ok, BitVec.ofNat 51 y.2))) ∧
        s.serves t) ∧
    (s.reaches x .semTake w →
      (w.amount ≤ n ∧ (∀ y ∈ s.waiters w.obj.toNat, y.prio < w.prio.toNat) →
        ∃ t, exec (.semTake x w) s = .next t ∧ s.answered t x .semTake w .ok (BitVec.ofNat 51 (n - w.amount)) ∧
          s.changed t w.obj.toNat (some { o with body := .sem (n - w.amount) })) ∧
      (n < w.amount ∨ (∃ y ∈ s.waiters w.obj.toNat, w.prio.toNat ≤ y.prio) →
        ∃ t, exec (.semTake x w) s = .next t ∧ s.answered t x .semTake w .pending (BitVec.ofNat 51 w.obj.toNat) ∧
          s.waits t x w (.amount w.amount) w.prio.toNat (BitVec.ofNat 51 w.obj.toNat) ∧ t.recs = s.recs ∧ s.serves t)) ∧
    (s.reaches x .semTry w →
      (w.amount ≤ n ∧ s.waiters w.obj.toNat = [] →
        ∃ t, exec (.semTry x w) s = .next t ∧ s.answered t x .semTry w .ok (BitVec.ofNat 51 (n - w.amount)) ∧
          s.changed t w.obj.toNat (some { o with body := .sem (n - w.amount) })) ∧
      (n < w.amount ∨ s.waiters w.obj.toNat ≠ [] →
        ∃ t, exec (.semTry x w) s = .next t ∧ s.answered t x .semTry w .busy (BitVec.ofNat 51 n) ∧ s.answersOnly t))

/-- R182: TOKEN_TAKE and TOKEN_TRY take credits as the semaphore commands take counts; TOKEN_GIVE adds credits up to the capacity
and serves the takers (R180), and moves NEXT_GIVER on when the caller is the giver it names (R181). R183, R190: a take that binds with no equal
or higher taker waiting, and a give that moves NEXT_GIVER while a taker waits, send a GIVER notice, which merges, queues or overflows. -/
def Obligations.TokensDo : Prop :=
  ∀ (s : State) (x : Src) (w : CmdW) (o : Obj) (k : Token),
    s.obj w.obj.toNat = some o → o.body = .token k → k.binding = false →
    (∀ next, s.reaches x .tokenGive w → distinctSlots (s.waiters w.obj.toNat) → k.credits + w.amount ≤ k.capacity →
      (k.gcount = 0 ∧ k.givers = [] ∧ next = k.nextGiver ∨
       ∃ i j e, k.gcount ≠ 0 ∧ k.givers[j]? = some e ∧ e.live = true ∧ e.relay = false ∧ e.who = x.pos ∧
         (∀ j' e', k.givers[j']? = some e' → e'.relay = false → e'.who = x.pos → j' = j) ∧
         nextLive k.givers k.nextGiver = some i ∧
         (i = j → (serve (s.waiters w.obj.toNat) (k.credits + w.amount)).2.1 = []) ∧
         next = if i = j then (nextLive k.givers (i + 1)).getD 0 else k.nextGiver) →
      ∃ t, exec (.tokenGive x w) s = .next t ∧
        s.answered t x .tokenGive w .ok (BitVec.ofNat 51 (serve (s.waiters w.obj.toNat) (k.credits + w.amount)).2.2) ∧
        s.puts t w.obj.toNat (some { o with
          body := .token { k with credits := (serve (s.waiters w.obj.toNat) (k.credits + w.amount)).2.2, nextGiver := next } }) ∧
        s.wakes t w.obj.toNat (serve (s.waiters w.obj.toNat) (k.credits + w.amount)).2.1
          ((serve (s.waiters w.obj.toNat) (k.credits + w.amount)).1.map
            (fun y => (y.1.pos, y.1.slot, Status.ok, BitVec.ofNat 51 y.2))) ∧
        s.serves t) ∧
    -- the expected giver gives, and a taker still waits: the giver that NEXT_GIVER names then is told
    (∀ i e y rest e', s.reaches x .tokenGive w → distinctSlots (s.waiters w.obj.toNat) → k.credits + w.amount ≤ k.capacity →
      k.gcount ≠ 0 → nextLive k.givers k.nextGiver = some i → k.givers[i]? = some e → e.live = true → e.relay = false → e.who = x.pos →
      let served := serve (s.waiters w.obj.toNat) (k.credits + w.amount)
      let next := (nextLive k.givers (i + 1)).getD 0
      served.2.1 = y :: rest → next ≠ k.nextGiver → ({ k with nextGiver := next } : Token).expected = some e' →
      s.tellable w.obj.toNat e'.who →
      ∃ t, exec (.tokenGive x w) s = .next t ∧ s.answered t x .tokenGive w .ok (BitVec.ofNat 51 served.2.2) ∧
        s.puts t w.obj.toNat (some { o with body := .token { k with credits := served.2.2, nextGiver := next } }) ∧
        s.wakes t w.obj.toNat (y :: rest) (served.1.map (fun z => (z.1.pos, z.1.slot, Status.ok, BitVec.ofNat 51 z.2))) ∧
        s.tells t e'.who (.giver w.obj.toNat y.prio e'.who (match y.kind with
          | .amount a => a - served.2.2
          | _ => 0)) ∧
        t.files = s.files ∧ s.servesNoting t) ∧
    (∀ e, s.reaches x .tokenTake w → w.amount ≤ k.capacity → k.credits < w.amount →
      (∀ y ∈ s.waiters w.obj.toNat, y.prio < w.prio.toNat) → k.expected = some e → s.tellable w.obj.toNat e.who →
      ∃ t, exec (.tokenTake x w) s = .next t ∧ s.answered t x .tokenTake w .pending (BitVec.ofNat 51 w.obj.toNat) ∧
        s.waits t x w (.amount w.amount) w.prio.toNat (BitVec.ofNat 51 w.obj.toNat) ∧ t.recs = s.recs ∧ t.files = s.files ∧
        s.tells t e.who (.giver w.obj.toNat w.prio.toNat e.who (w.amount - k.credits)) ∧ s.servesNoting t) ∧
    (s.reaches x .tokenTake w → w.amount ≤ k.capacity →
      (w.amount ≤ k.credits ∧ (∀ y ∈ s.waiters w.obj.toNat, y.prio < w.prio.toNat) →
        ∃ t, exec (.tokenTake x w) s = .next t ∧ s.answered t x .tokenTake w .ok (BitVec.ofNat 51 (k.credits - w.amount)) ∧
          s.changed t w.obj.toNat (some { o with body := .token { k with credits := k.credits - w.amount } })) ∧
      ((∃ y ∈ s.waiters w.obj.toNat, w.prio.toNat ≤ y.prio) ∨ (k.credits < w.amount ∧ k.givers = []) →
        ∃ t, exec (.tokenTake x w) s = .next t ∧ s.answered t x .tokenTake w .pending (BitVec.ofNat 51 w.obj.toNat) ∧
          s.waits t x w (.amount w.amount) w.prio.toNat (BitVec.ofNat 51 w.obj.toNat) ∧ t.recs = s.recs ∧ s.serves t)) ∧
    (s.reaches x .tokenTry w → w.amount ≤ k.capacity →
      (w.amount ≤ k.credits ∧ s.waiters w.obj.toNat = [] →
        ∃ t, exec (.tokenTry x w) s = .next t ∧ s.answered t x .tokenTry w .ok (BitVec.ofNat 51 (k.credits - w.amount)) ∧
          s.changed t w.obj.toNat (some { o with body := .token { k with credits := k.credits - w.amount } })) ∧
      (k.credits < w.amount ∨ s.waiters w.obj.toNat ≠ [] →
        ∃ t, exec (.tokenTry x w) s = .next t ∧ s.answered t x .tokenTry w .busy (BitVec.ofNat 51 k.credits) ∧
          s.answersOnly t))

/-- R160: a free local lock goes to the caller of LOCK_ACQUIRE or LOCK_TRY, with GRANTED_ORPHAN when it was orphaned; a held one
answers BUSY to LOCK_TRY, STALEMATE to a LOCK_ACQUIRE that closes a chain (R169), and lets any other LOCK_ACQUIRE queue (R162). R166, R167,
R190: one that raises the effective priority sends a HOLDER notice, which merges, queues or overflows. -/
def Obligations.LocksGrant : Prop :=
  ∀ (s : State) (x : Src) (w : CmdW) (o : Obj) (l : Lock),
    s.obj w.obj.toNat = some o → o.body = .lock l → l.global = none →
    (∀ op, op = .lockAcquire ∨ op = .lockTry → s.reaches x op w → l.held = false → s.waiters w.obj.toNat = [] →
      s.acquiring w.obj.toNat x.pos = false → s.mayLock w.obj.toNat x.pos = true →
      ∃ t, exec (op.row x w) s = .next t ∧
        s.answered t x op w (if l.orphaned then .grantedOrphan else .granted) (BitVec.ofNat 51 (s.identity x.pos).toNat) ∧
        s.puts t w.obj.toNat (some { o with body := .lock { l with
          holder := s.identity x.pos, held := true, orphaned := false, prio := if op = .lockAcquire then w.prio.toNat else 0,
          eff := if op = .lockAcquire then w.prio.toNat else 0 } }) ∧
        t.lockDir = dirApply s.lockDir (wingOf w.obj.toNat) x.pos w.obj.toNat (some .held) ∧ s.wq.woken t.wq ∧ s.wk.woken t.wk ∧
        t = { s with spent := t.spent, trace := t.trace, lanes := t.lanes, entries := t.entries, recs := t.recs,
                     lockDir := t.lockDir, dirLag := t.dirLag, wq := t.wq, wk := t.wk }) ∧
    (l.held = true → l.holder ≠ s.identity x.pos → s.acquiring w.obj.toNat x.pos = false →
      (s.reaches x .lockTry w →
        ∃ t, exec (.lockTry x w) s = .next t ∧ s.answered t x .lockTry w .busy (BitVec.ofNat 51 l.holder.toNat) ∧
          s.answersOnly t) ∧
      (∀ h, s.reaches x .lockAcquire w → s.stalemate w.obj.toNat x.pos l.holder = some h →
        ∃ t, exec (.lockAcquire x w) s = .next t ∧
          s.answered t x .lockAcquire w .stalemate (BitVec.ofNat 51 (s.identity h).toNat) ∧ s.answersOnly t) ∧
      (s.reaches x .lockAcquire w → s.stalemate w.obj.toNat x.pos l.holder = none → s.mayLock w.obj.toNat x.pos = true →
        w.prio.toNat ≤ l.eff →
        ∃ t, exec (.lockAcquire x w) s = .next t ∧
          s.answered t x .lockAcquire w .pending (BitVec.ofNat 51 l.holder.toNat) ∧
          s.waits t x w (.lock true) w.prio.toNat (BitVec.ofNat 51 l.holder.toNat) ∧
          t.lockDir = dirApply s.lockDir (wingOf w.obj.toNat) x.pos w.obj.toNat (some .pending) ∧
          s.wq.woken t.wq ∧ s.wk.woken t.wk ∧
          t = { s with spent := t.spent, trace := t.trace, lanes := t.lanes, entries := t.entries, lockDir := t.lockDir,
                       dirLag := t.dirLag, slots := t.slots, use := t.use, wq := t.wq, wk := t.wk, waitq := t.waitq }) ∧
      (∀ p, s.reaches x .lockAcquire w → s.stalemate w.obj.toNat x.pos l.holder = none → s.mayLock w.obj.toNat x.pos = true →
        l.eff < w.prio.toNat → s.localPos l.holder = some p → s.tellable w.obj.toNat p →
        ∃ t, exec (.lockAcquire x w) s = .next t ∧
          s.answered t x .lockAcquire w .pending (BitVec.ofNat 51 l.holder.toNat) ∧
          s.waits t x w (.lock true) w.prio.toNat (BitVec.ofNat 51 l.holder.toNat) ∧
          s.puts t w.obj.toNat (some { o with body := .lock { l with eff := w.prio.toNat } }) ∧
          t.lockDir = dirApply s.lockDir (wingOf w.obj.toNat) x.pos w.obj.toNat (some .pending) ∧ t.resets = s.resets ∧
          s.promotes t w.obj.toNat p w.prio.toNat (topPos (t.waiters w.obj.toNat)) l.holder ∧ s.servesNoting t))

/-- R163, R164: LOCK_RELEASE by the holder frees a local lock without waiters and answers OK 0, else passes it to the first waiter;
LOCK_HANDOFF passes it to the waiter that DATA names. Bit 26 of LOCK_RELEASE's VALUE says that the lock went to a waiter. R167, R190: a
grant that leaves waiters of a higher priority behind sends the new holder a HOLDER notice, which merges, queues or overflows. -/
def Obligations.LocksPass : Prop :=
  ∀ (s : State) (x : Src) (w : CmdW) (o : Obj) (l : Lock),
    s.obj w.obj.toNat = some o → o.body = .lock l → l.global = none → l.held = true → l.holder = s.identity x.pos →
    (s.reaches x .lockRelease w → s.waiters w.obj.toNat = [] →
      ∃ t, exec (.lockRelease x w) s = .next t ∧ s.answered t x .lockRelease w .ok 0 ∧
        s.puts t w.obj.toNat (some { o with body := .lock { l with held := false } }) ∧
        t.lockDir = dirApply s.lockDir (wingOf w.obj.toNat) x.pos w.obj.toNat none ∧ s.wq.woken t.wq ∧ s.wk.woken t.wk ∧
        t = { s with spent := t.spent, trace := t.trace, lanes := t.lanes, entries := t.entries, recs := t.recs,
                     lockDir := t.lockDir, dirLag := t.dirLag, resets := t.resets, wq := t.wq, wk := t.wk }) ∧
    (∀ y rest, s.reaches x .lockRelease w → s.waiters w.obj.toNat = y :: rest → distinctSlots (y :: rest) →
      (∀ z ∈ rest, z.prio ≤ y.prio) →
      ∃ t, exec (.lockRelease x w) s = .next t ∧
        s.answered t x .lockRelease w .ok (BitVec.ofNat 51 ((s.identity y.pos).toNat + 2 ^ 26)) ∧
        s.lockPassed t w.obj.toNat o l y .granted ∧
        t.lockDir = dirApply (dirApply s.lockDir (wingOf w.obj.toNat) x.pos w.obj.toNat none) (wingOf w.obj.toNat) y.pos
          w.obj.toNat (some .held) ∧ s.wq.woken t.wq ∧ s.wk.woken t.wk ∧
        t = { s with spent := t.spent, trace := t.trace, lanes := t.lanes, entries := t.entries, recs := t.recs,
                     lockDir := t.lockDir, dirLag := t.dirLag, resets := t.resets, slots := t.slots, use := t.use, wq := t.wq,
                     wk := t.wk, waitq := t.waitq }) ∧
    (∀ y, s.reaches x .lockHandoff w → distinctSlots (s.waiters w.obj.toNat) →
      (s.waiters w.obj.toNat).find? (fun z => s.identity z.pos == w.data.extractLsb' 0 26) = some y →
      (∀ z ∈ s.waiters w.obj.toNat, z = y ∨ z.prio ≤ y.prio) →
      ∃ t, exec (.lockHandoff x w) s = .next t ∧
        s.answered t x .lockHandoff w .ok (BitVec.ofNat 51 (s.identity y.pos).toNat) ∧
        s.lockPassed t w.obj.toNat o l y .granted ∧ s.wq.woken t.wq ∧ s.wk.woken t.wk ∧
        t = { s with spent := t.spent, trace := t.trace, lanes := t.lanes, entries := t.entries, recs := t.recs,
                     lockDir := t.lockDir, dirLag := t.dirLag, resets := t.resets, slots := t.slots, use := t.use, wq := t.wq,
                     wk := t.wk, waitq := t.waitq }) ∧
    (∀ op y v rest, distinctSlots (s.waiters w.obj.toNat) → s.reaches x op w →
      (op = .lockRelease ∧ s.waiters w.obj.toNat = y :: rest ∧ v = BitVec.ofNat 51 ((s.identity y.pos).toNat + 2 ^ 26) ∨
        op = .lockHandoff ∧ (s.waiters w.obj.toNat).find? (fun z => s.identity z.pos == w.data.extractLsb' 0 26) = some y ∧
          v = BitVec.ofNat 51 (s.identity y.pos).toNat) →
      let left := dequeue (s.waiters w.obj.toNat) y.pos y.slot
      y.prio < topPrio left → s.localPos (s.identity y.pos) = some y.pos → s.tellable w.obj.toNat y.pos →
      ∃ t, exec (op.row x w) s = .next t ∧ s.answered t x op w .ok v ∧ s.lockPassed t w.obj.toNat o l y .granted ∧
        s.promotes t w.obj.toNat y.pos (topPrio left) (topPos left) (s.identity y.pos) ∧ s.servesNoting t)

/-- R132, R134, R140: an arrival that is not the last one of its generation is counted and answers OK with the count, or binds the
slot of ARRIVE_WAIT; a staged one gives its payload to the combiner. An arrival for the next generation is held. -/
def Obligations.BarrierArrives : Prop :=
  ∀ (s : State) (x : Src) (w : CmdW) (o : Obj) (b : Barrier) (i : Nat) (e : Ent),
    s.obj w.obj.toNat = some o → o.body = .barrier b → b.binding = false → agentIdx b.members x.pos = some i →
    b.members[i]? = some e → e.res = false →
    (∀ (j : Nat) (e' : Ent), genDist w.gen16 b.gen = 0 → e.arr = false → j ≠ i → b.members[j]? = some e' → e'.live = true →
      e'.arr = false → (w.staged = true → s.stagedCheck w.obj.toNat b x.pos = none) →
      let b1 : Barrier := { b with
        members := updAt b.members i (fun e => { e with arr := true }), arrived := b.arrived + 1
        deadline := if b.arrived = 0 ∧ b.fallAfter ≠ 0 ∧ b.deadline = 0 then s.now + b.fallAfter else b.deadline }
      (s.reaches x .arrive w →
        ∃ t, exec (.arrive x w) s = .next t ∧ s.answered t x .arrive w .ok (arrivalValue b.gen (b.arrived + 1) false) ∧
          s.puts t w.obj.toNat (some { o with body := .barrier b1 }) ∧
          (w.staged = false → s.changed t w.obj.toNat (some { o with body := .barrier b1 })) ∧
          (∀ g, w.staged = true → s.stage w.obj.toNat x.pos = some g → t.stage w.obj.toNat x.pos = none ∧
            (t.file (fileOf w.obj.toNat)).combineQ = (s.file (fileOf w.obj.toNat)).combineQ ++
              [{ obj := w.obj.toNat, acc := some g.acc, dom := g.dom, data := g.data }] ∧
            t = { s with spent := t.spent, trace := t.trace, lanes := t.lanes, entries := t.entries, recs := t.recs,
                         stages := t.stages, files := t.files })) ∧
      (s.reaches x .arriveWait w → w.staged = false → b.fallen = false → b.completing = false →
        ∃ t, exec (.arriveWait x w) s = .next t ∧ s.answered t x .arriveWait w .pending (BitVec.ofNat 51 w.obj.toNat) ∧
          s.puts t w.obj.toNat (some { o with body := .barrier b1 }) ∧
          s.waits t x w (.gen b.gen) 0 (BitVec.ofNat 51 w.obj.toNat) ∧ s.serves t)) ∧
    (genDist w.gen16 b.gen = 1 → e.arr = true → e.adv = false → w.staged = false →
      let b1 : Barrier := { b with members := updAt b.members i (fun e => { e with adv := true }), advQ := b.advQ ++ [(i, false)] }
      (s.reaches x .arrive w →
        ∃ t, exec (.arrive x w) s = .next t ∧
          s.answered t x .arrive w .ok (arrivalValue (b.gen + 1) (b.advQ.length + 1) true) ∧
          s.changed t w.obj.toNat (some { o with body := .barrier b1 })) ∧
      (s.reaches x .arriveWait w →
        ∃ t, exec (.arriveWait x w) s = .next t ∧ s.answered t x .arriveWait w .pending (BitVec.ofNat 51 w.obj.toNat) ∧
          s.puts t w.obj.toNat (some { o with body := .barrier b1 }) ∧
          s.waits t x w (.gen (b.gen + 1)) 0 (BitVec.ofNat 51 w.obj.toNat) ∧ s.serves t))

/-- R132, R135, R136: the last arrival of a barrier that holds no advance payload. Without payload, parent or hold eligibility it releases
the generation: the caller gets RELEASED, GEN advances, the waiters of the generation are READY, and the held advance arrivals are the
first arrivals of the next generation, with its deadline. With payload the barrier is COMBINING, and with a parent relay that cannot take
the child yet it is PARENT_WAIT: the deadline is cleared, and the caller gets OK, or PENDING on its slot. -/
def Obligations.BarrierReleases : Prop :=
  ∀ (s : State) (x : Src) (op : Op) (w : CmdW) (o : Obj) (b : Barrier) (i : Nat) (e : Ent),
    op = .arrive ∨ op = .arriveWait → s.reaches x op w → s.obj w.obj.toNat = some o → o.body = .barrier b →
    b.binding = false → agentIdx b.members x.pos = some i → b.members[i]? = some e → e.res = false → e.arr = false →
    genDist w.gen16 b.gen = 0 → w.staged = false → b.completing = false → b.holdEligible = false →
    (∀ j y, j ≠ i → b.members[j]? = some y → y.live = true → y.arr = true) →
    let obj := w.obj.toNat
    (b.pwords = 0 → b.parent = none → (∀ y ∈ b.members, y.relay = false) → (∀ z ∈ b.advQ, z.2 = false) →
      b.advQ = [] ∨ (∃ j y, b.members[j]? = some y ∧ y.live = true ∧ ∀ z ∈ b.advQ, z.1 ≠ j) → distinctSlots (s.waiters obj) →
      let v := BitVec.ofNat 51 (b.gen.toNat % 65536 + if b.note then 2 ^ 48 else 0)
      ∃ t, exec (op.row x w) s = .next t ∧ s.answered t x op w .released v ∧
        s.puts t obj (some { o with body := .barrier { b with
          gen := b.gen + 1, arrived := b.advQ.length, advQ := [], fallen := false, combining := false, holding := false
          deadline := if b.advQ ≠ [] ∧ b.fallAfter ≠ 0 then s.now + b.fallAfter else 0
          parentWait := false, folded := 0, note := false, relNote := b.note
          members := b.members.mapIdx (fun j y => { y with arr := b.advQ.any (fun z => z.1 == j), adv := false }) } }) ∧
        s.wakes t obj ((s.waiters obj).filter (fun y => !(y.kind == .gen b.gen)))
          (((s.waiters obj).filter (fun y => y.kind == .gen b.gen)).map (fun y => (y.pos, y.slot, Status.released, v))) ∧
        s.serves t) ∧
    (b.pwords ≠ 0 ∨ (∃ r, b.parent = some r ∧ s.takesChild r = false) →
      let b1 : Barrier := { b with
        members := updAt b.members i (fun e => { e with arr := true }), arrived := b.arrived + 1, deadline := 0, fallen := false
        combining := b.pwords != 0, parentWait := b.pwords == 0 }
      (op = .arrive → ∃ t, exec (.arrive x w) s = .next t ∧
        s.answered t x .arrive w .ok (arrivalValue b.gen (b.arrived + 1) false) ∧
        s.changed t obj (some { o with body := .barrier b1 })) ∧
      (op = .arriveWait → ∃ t, exec (.arriveWait x w) s = .next t ∧ s.answered t x .arriveWait w .pending (BitVec.ofNat 51 obj) ∧
        s.puts t obj (some { o with body := .barrier b1 }) ∧
        s.waits t x w (.gen b.gen) 0 (BitVec.ofNat 51 obj) ∧ s.serves t))

/-- Table 5.1, R142: WAIT on the generation just released answers RELEASED, on the current one or the next it binds the slot;
RESULT_READ gives a word of the result of the generation just released, and 0 past the result's bytes. -/
def Obligations.BarrierAnswers : Prop :=
  ∀ (s : State) (x : Src) (w : CmdW) (o : Obj) (b : Barrier),
    s.obj w.obj.toNat = some o → o.body = .barrier b →
    (s.reaches x .wait w → s.waitFormat (s.caller x .wait w) = none → b.binding = false →
      (∀ i e, agentIdx b.members x.pos = some i → b.members[i]? = some e → e.res = false) →
      (genDist w.gen16 b.gen = 0xFFFF → b.gen ≠ 0 →
        ∃ t, exec (.wait x w) s = .next t ∧
          s.answered t x .wait w .released (s.releaseValue w.obj.toNat b (b.gen - 1) b.relNote) ∧ s.answersOnly t) ∧
      (∀ d, d = 0 ∨ d = 1 → genDist w.gen16 b.gen = d → (b.vacant = false ∨ b.completing = true) → b.fallen = false →
        ∃ t, exec (.wait x w) s = .next t ∧ s.answered t x .wait w .pending (BitVec.ofNat 51 w.obj.toNat) ∧
          s.waits t x w (.gen (b.gen + BitVec.ofNat 32 d)) 0 (BitVec.ofNat 51 w.obj.toNat) ∧ t.recs = s.recs ∧ s.serves t)) ∧
    (s.reaches x .resultRead w → b.gen ≠ 0 → b.pwords ≠ 0 → w.data.extractLsb' 0 16 = (b.gen - 1).truncate 16 →
      ∃ t, exec (.resultRead x w) s = .next t ∧
        s.answered t x .resultRead w .ok (if resultBytes b.combine b.pwords ≤ 4 * (w.arg.toNat % 64) then 0
          else BitVec.ofNat 51 (accWord (s.resultOf w.obj.toNat b) (w.arg.toNat % 64)).toNat) ∧ s.answersOnly t)

/-- R138, R139: PAYLOAD_WRITE writes one 64-bit word of a live member's staging block and marks it written; the first write takes a
block, charged as an operation in flight and 256 accumulator bytes. -/
def Obligations.PayloadWrites : Prop :=
  ∀ (s : State) (x : Src) (w : CmdW) (o : Obj) (b : Barrier) (i : Nat) (e : Ent),
    s.reaches x .payloadWrite w → s.obj w.obj.toNat = some o → o.body = .barrier b → b.binding = false →
    w.arg.toNat % 32 < b.pwords → agentIdx b.members x.pos = some i → b.members[i]? = some e → e.res = false →
    (∀ g, s.stage w.obj.toNat x.pos = some g → g.claimed = false →
      ∃ t, exec (.payloadWrite x w) s = .next t ∧ s.answered t x .payloadWrite w .ok 0 ∧
        t.stage w.obj.toNat x.pos = some { g with
          written := g.written ||| BitVec.twoPow 32 (w.arg.toNat % 32), data := accSetDword g.data (w.arg.toNat % 32) w.data } ∧
        (∀ n p, stageKey n p ≠ stageKey w.obj.toNat x.pos → t.stage n p = s.stage n p) ∧
        t = { s with spent := t.spent, trace := t.trace, lanes := t.lanes, entries := t.entries, stages := t.stages }) ∧
    (∀ a s1, s.stage w.obj.toNat x.pos = none → s.accOk (wingOf w.obj.toNat) (s.domOf x.pos) 1 = true →
      s.allocAccs (wingOf w.obj.toNat) 1 = some (a, s1) →
      ∃ t, exec (.payloadWrite x w) s = .next t ∧ s.answered t x .payloadWrite w .ok 0 ∧
        t.stage w.obj.toNat x.pos = some { acc := a, dom := s.domOf x.pos, written := BitVec.twoPow 32 (w.arg.toNat % 32),
                                           data := accSetDword 0 (w.arg.toNat % 32) w.data, claimed := false } ∧
        (∀ n p, stageKey n p ≠ stageKey w.obj.toNat x.pos → t.stage n p = s.stage n p) ∧
        t.ablocks = s1.ablocks ∧
        t.useOf (wingOf w.obj.toNat) (s.domOf x.pos) =
          { s.useOf (wingOf w.obj.toNat) (s.domOf x.pos) with
            ops := (s.useOf (wingOf w.obj.toNat) (s.domOf x.pos)).ops + 1
            acc := (s.useOf (wingOf w.obj.toNat) (s.domOf x.pos)).acc + 256 } ∧
        s.wq.woken t.wq ∧ s.wk.woken t.wk ∧
        t = { s with spent := t.spent, trace := t.trace, lanes := t.lanes, entries := t.entries, stages := t.stages,
                     free := t.free, ablocks := t.ablocks, use := t.use, wq := t.wq, wk := t.wk })

/-- R258: LEDGER_POST records an EMPTY or POISONED chunk of the window as PROVISIONAL with its CRC and producer, and completes the
EAGER waits on it with OK 1, which enter its taint set (R262). -/
def Obligations.LedgerPosts : Prop :=
  ∀ (s : State) (x : Src) (w : CmdW) (o : Obj) (l : Ledger),
    s.reaches x .ledgerPost w → s.obj w.obj.toNat = some o → o.body = .ledger l → l.faulted = false → l.binding = false →
    l.locate w.chunk = .inWindow → (∀ k, l.chunk w.chunk = some k → k.st = .poisoned) →
    distinctSlots (s.waiters w.obj.toNat) →
    let met := (s.waiters w.obj.toNat).filter (fun y => y.forChunk w.chunk && y.isEager)
    let k : Chunk := ({ st := .provisional, crc := w.crc, producer := x.pos
                        replays := ((l.chunk w.chunk).map Chunk.replays).getD 0, taint := 0, taintAll := false } : Chunk).taintBy
                       (met.filterMap (fun y => l.consumer y.pos))
    ∃ t, exec (.ledgerPost x w) s = .next t ∧ s.answered t x .ledgerPost w .ok 1 ∧
      s.puts t w.obj.toNat (some { o with body := .ledger { l with chunks := tset none l.chunks w.chunk.toNat (some k) } }) ∧
      s.wakes t w.obj.toNat ((s.waiters w.obj.toNat).filter (fun y => !(y.forChunk w.chunk && y.isEager)))
        (met.map (fun y => (y.pos, y.slot, Status.ok, 1))) ∧
      s.serves t

/-- R259: a consumer's LEDGER_CHECK with the posted CRC commits a PROVISIONAL chunk, advances LOW past committed chunks and completes
the waits on the chunk with OK 2. With another CRC it poisons the chunk (R263): it counts a replay, marks the live consumers that the taint
set names as owed, records the chunk as OWED_FIRST when none was owed before, clears the taint set, completes every slot of an owed
consumer with TAINTED and the producer's slots on the chunk with POISONED, and counts, records and raises it. Checks of committed, retired
and poisoned chunks change no ledger state. -/
def Obligations.LedgerChecks : Prop :=
  ∀ (s : State) (x : Src) (w : CmdW) (o : Obj) (l : Ledger) (i : Nat),
    s.reaches x .ledgerCheck w → s.obj w.obj.toNat = some o → o.body = .ledger l → l.faulted = false → l.binding = false →
    l.consumer x.pos = some i → distinctSlots (s.waiters w.obj.toNat) →
    (∀ k, l.locate w.chunk = .inWindow → l.chunk w.chunk = some k → k.st = .provisional → k.crc = w.crc →
      ∃ t, exec (.ledgerCheck x w) s = .next t ∧ s.answered t x .ledgerCheck w .ok 2 ∧
        s.puts t w.obj.toNat (some { o with body := .ledger (Ledger.retire 256 { l with
          chunks := tset none l.chunks w.chunk.toNat (some { k with st := .committed }) }) }) ∧
        s.wakes t w.obj.toNat ((s.waiters w.obj.toNat).filter (fun y => !y.forChunk w.chunk))
          (((s.waiters w.obj.toNat).filter (fun y => y.forChunk w.chunk)).map (fun y => (y.pos, y.slot, Status.ok, 2))) ∧
        s.serves t) ∧
    (∀ k, l.locate w.chunk = .inWindow → l.chunk w.chunk = some k → k.st = .provisional → k.crc ≠ w.crc → k.replays < 3 →
      s.mild (bFIL (fileOf w.obj.toNat)) 1 →
      let f := fileOf w.obj.toNat
      let ws := s.waiters w.obj.toNat
      let owes (i : Nat) (e : Ent) : Bool := e.arr || (e.live && (if i < 64 then k.taint.getLsbD i else k.taintAll))
      let told (y : Waiter) : Bool := l.consumers.zipIdx.any (fun z => owes z.2 z.1 && !z.1.relay && z.1.who == y.pos)
      let asked (y : Waiter) : Bool := y.forChunk w.chunk && y.pos == k.producer
      let first := if l.consumers.any (fun e => e.arr) then l.owedFirst else w.chunk
      ∃ t l', exec (.ledgerCheck x w) s = .next t ∧ s.answered t x .ledgerCheck w .poisoned 3 ∧
        s.puts t w.obj.toNat (some { o with body := .ledger l' }) ∧
        l' = { l with
          chunks := tset none l.chunks w.chunk.toNat
            (some { k with st := .poisoned, crc := 0, replays := k.replays + 1, taint := 0, taintAll := false })
          owedFirst := first, consumers := l'.consumers } ∧
        l'.consumers.length = l.consumers.length ∧
        (∀ (j : Nat) (e : Ent), l.consumers[j]? = some e →
          l'.consumers[j]? = some { e with arr := owes j e && (e.relay || !ws.any (fun y => y.pos == e.who)) }) ∧
        s.wakes t w.obj.toNat (ws.filter (fun y => !told y && !asked y))
          ((ws.filter told).map (fun y => (y.pos, y.slot, Status.tainted, BitVec.ofNat 51 first.toNat)) ++
            (ws.filter (fun y => !told y && asked y)).map (fun y => (y.pos, y.slot, Status.poisoned, BitVec.ofNat 51 w.chunk.toNat))) ∧
        t.file f = { s.file f with
          poisonCnt := sat 0xFFFF (s.file f).poisonCnt, ldgLast := some (false, k.replays + 1, w.obj.toNat, w.chunk.toNat) } ∧
        (∀ g, g ≠ f → t.file g = s.file g) ∧ s.setsBit t (bFIL f) 1 ∧ s.wq.woken t.wq ∧ s.wk.woken t.wk ∧
        t = { s with spent := t.spent, trace := t.trace, lanes := t.lanes, entries := t.entries, recs := t.recs,
                     slots := t.slots, use := t.use, wq := t.wq, wk := t.wk, waitq := t.waitq, files := t.files,
                     blks := t.blks }) ∧
    ((l.locate w.chunk = .retired ∨ (l.locate w.chunk = .inWindow ∧
        ∃ k, l.chunk w.chunk = some k ∧ k.st = .committed ∧ k.crc = w.crc)) →
      ∃ t, exec (.ledgerCheck x w) s = .next t ∧ s.answered t x .ledgerCheck w .ok 2 ∧ s.answersOnly t) ∧
    (∀ k, l.locate w.chunk = .inWindow → l.chunk w.chunk = some k → k.st = .poisoned →
      ∃ t, exec (.ledgerCheck x w) s = .next t ∧ s.answered t x .ledgerCheck w .poisoned 3 ∧ s.answersOnly t)

/-- R260, R264: LEDGER_READ and WAIT of a caller that is owed nothing answer a chunk's state, WAIT on an uncommitted chunk binds the
slot, and a caller owed a TAINTED gets it once. -/
def Obligations.LedgerReads : Prop :=
  ∀ (s : State) (x : Src) (w : CmdW) (o : Obj) (l : Ledger),
    s.obj w.obj.toNat = some o → o.body = .ledger l → l.faulted = false → l.binding = false → w.eager = false →
    ((∀ i e, l.consumer x.pos = some i → l.consumers[i]? = some e → e.arr = false) →
      (s.reaches x .ledgerRead w → l.consumer x.pos = none → (∀ k, l.chunk w.chunk = some k → k.taintAll = false) →
        ∃ t, exec (.ledgerRead x w) s = .next t ∧ s.answered t x .ledgerRead w .ok (BitVec.ofNat 51 (l.chunkCode w.chunk)) ∧
          s.answersOnly t) ∧
      (s.reaches x .wait w → s.waitFormat (s.caller x .wait w) = none →
        (l.chunkCode w.chunk = 2 →
          ∃ t, exec (.wait x w) s = .next t ∧ s.answered t x .wait w .ok 2 ∧ s.answersOnly t) ∧
        (l.chunkCode w.chunk ≠ 2 →
          ∃ t, exec (.wait x w) s = .next t ∧ s.answered t x .wait w .pending (BitVec.ofNat 51 w.obj.toNat) ∧
            s.waits t x w (.chunk w.chunk false) 0 (BitVec.ofNat 51 w.obj.toNat) ∧ t.recs = s.recs ∧ s.serves t))) ∧
    (∀ op i e, op = .ledgerRead ∨ (op = .wait ∧ s.waitFormat (s.caller x .wait w) = none) → s.reaches x op w →
      l.consumer x.pos = some i → l.consumers[i]? = some e → e.arr = true →
      ∃ t, exec (op.row x w) s = .next t ∧ s.answered t x op w .tainted (BitVec.ofNat 51 l.owedFirst.toNat) ∧
        s.changed t w.obj.toNat (some { o with
          body := .ledger { l with consumers := updAt l.consumers i (fun e => { e with arr := false }) } }))

/-- R103, R104: OPEN on a closed record that its quotas and pools allow writes the record that its parameters give, owned by the
caller's domain and unpinned, with COLD from ARG[15]; a quota or pool that fails answers REFUSED_QUOTA with its kind. A relay joins its
CHILD (R230). An object opened at a number that a retirement has marked SLOW is SLOW and COLD too (DEDUCED, log 55). -/
def Obligations.ObjectsOpen : Prop :=
  ∀ (s : State) (x : Src) (w : CmdW),
    s.reaches x .open w → s.obj w.obj.toNat = none →
    let slow := s.rep.slowObjs.contains w.obj.toNat
    let o (b : Body) : Obj :=
      { owner := s.domOf x.pos, pinned := false, cold := w.arg.getLsbD 15 || slow, slow := slow, body := b }
    let u := s.useOf (wingOf w.obj.toNat) (s.domOf x.pos)
    ((openBodyOf w).typeCode ≠ 7 →
      (∀ b s1, s.allocate w.obj.toNat (s.domOf x.pos) (openBodyOf w) = .ok (b, s1) →
        ∃ t, exec (.open x w) s = .next t ∧ s.answered t x .open w .ok 0 ∧ s.puts t w.obj.toNat (some (o b)) ∧
          t.mblocks = s1.mblocks ∧ t.ablocks = s1.ablocks ∧
          t.useOf (wingOf w.obj.toNat) (s.domOf x.pos) = { u with objs := u.objs + 1, acc := u.acc + 256 * (openBodyOf w).needs.2 } ∧
          t = { s with spent := t.spent, trace := t.trace, lanes := t.lanes, entries := t.entries, recs := t.recs, use := t.use,
                       free := t.free, mblocks := t.mblocks, ablocks := t.ablocks }) ∧
      (∀ k, s.allocate w.obj.toNat (s.domOf x.pos) (openBodyOf w) = .error k →
        ∃ t, exec (.open x w) s = .next t ∧ s.answered t x .open w .refusedQuota (BitVec.ofNat 51 k) ∧ s.answersOnly t)) ∧
    (∀ r, openBodyOf w = .relay r → s.mayUse (s.domOf x.pos) r.child = true → (s.resident r.child).isSome = true →
      r.child ≠ w.obj.toNat → s.relayMayOpen (s.domOf x.pos) r = true → s.objsOk (wingOf w.obj.toNat) (s.domOf x.pos) = true →
      s.accOk (wingOf w.obj.toNat) (s.domOf x.pos) 0 = true →
      ∃ t, exec (.open x w) s = .next t ∧ s.answered t x .open w .ok 0 ∧ t.obj w.obj.toNat = some (o (.relay r)) ∧
        (∃ b, s.barrier r.child = some b ∧ t.barrier r.child = some { b with parent := some w.obj.toNat }) ∧
        (∀ n, n ≠ w.obj.toNat → n ≠ r.child → t.resident n = s.resident n) ∧
        t = { s with spent := t.spent, trace := t.trace, lanes := t.lanes, entries := t.entries, recs := t.recs, use := t.use })

/-- R107, R108: CLOSE completes for every owner of an object with no bound slot, no operation in flight and nothing in progress; a READY
slot and one that NOTIFY bound count as bound (DEDUCED, log 22). It removes the object's record and its grants, zeroes its accumulators
and staged payload words and returns them, returns its list entries, writes a closed record of zeros where the record was paged, and
releases the quota counts. A relay's CHILD has no parent any more. In any other case it answers REFUSED_STATE and changes nothing but the
count of refusals (R115). -/
def Obligations.ObjectsClose : Prop :=
  ∀ (s : State) (x : Src) (w : CmdW) (o : Obj), s.reaches x .close w → s.obj w.obj.toNat = some o →
    let obj := w.obj.toNat
    let v := wingOf obj
    let (n, a) := o.body.needs
    let (mb, ab) := o.body.bases
    let owned := (s.file (fileOf obj)).grants.filter (fun g => g.1 == obj)
    let stages := (List.range 1024).filterMap (fun p => s.stage obj p)
    let mayClose := o.owner = s.domOf x.pos ∧ s.boundTo obj = false ∧ s.inFlight obj = false ∧ o.body.busy = false
    let done (t : State) : Prop :=
      s.answered t x .close w .ok 0 ∧ t.resident obj = none ∧
      (∀ g, t.file g = if g = fileOf obj then { s.file g with grants := (s.file g).grants.filter (fun y => y.1 != obj) } else s.file g) ∧
      -- zeroed and returned
      (∀ i, i < a → t.acc v (ab + i) = 0) ∧ (∀ g ∈ stages, t.acc v g.acc = 0) ∧
      (∀ k, (∀ i, i < a → k ≠ accKey v (ab + i)) → (∀ g ∈ stages, k ≠ accKey v g.acc) → tget 0 t.accs k = tget 0 s.accs k) ∧
      (∀ m p, p < 1024 → t.stage m p = if m = obj then none else s.stage m p) ∧
      t.ablocks = s.ablocks.filter (fun y =>
        !(y.wing == v && !y.lost && (a != 0 && y.base == ab || stages.any (fun g => g.acc == y.base)))) ∧
      t.mblocks = (if n = 0 then s.mblocks else s.mblocks.filter (fun y => !(y.wing == v && y.base == mb && !y.lost))) ∧
      -- the closed record
      ((s.resident obj).any (fun r => r.touched) = true → tget none t.backing obj = none ∧ t.out = .pageWrite (s.recordAddr obj) 0 :: s.out) ∧
      (∀ m, m ≠ obj → tget none t.backing m = tget none s.backing m) ∧
      ((s.resident obj).any (fun r => r.touched) = false → t.backing = s.backing ∧ t.out = s.out) ∧
      -- the quotas
      (∀ d, d < 1024 → t.useOf v d =
        let mine := (stages.filter (fun g => g.dom == d)).length
        let u := s.useOf v d
        { u with
          objs := if d = o.owner then u.objs - 1 - owned.length else u.objs
          acc := u.acc - 256 * (mine + if d = o.owner then a else 0), ops := u.ops - mine }) ∧
      (t.wing v).opsTotal = (s.wing v).opsTotal - stages.length ∧ s.wq.woken t.wq ∧ s.wk.woken t.wk ∧
      t = { s with spent := t.spent, trace := t.trace, lanes := t.lanes, entries := t.entries, recs := t.recs, use := t.use,
                   files := t.files, stages := t.stages, accs := t.accs, mblocks := t.mblocks, ablocks := t.ablocks,
                   backing := t.backing, free := t.free, out := t.out, wq := t.wq, wk := t.wk }
    (mayClose → o.body.typeCode ≠ 7 →
      ∃ t, exec (.close x w) s = .next t ∧ done t ∧ (∀ m, m ≠ obj → t.resident m = s.resident m)) ∧
    (∀ r, mayClose → o.body = .relay r → (s.resident r.child).isSome = true → r.child ≠ obj →
      (∀ b, s.barrier r.child = some b → b.completing = false) →
      ∃ t, exec (.close x w) s = .next t ∧ done t ∧ (∀ m, m ≠ obj → m ≠ r.child → t.resident m = s.resident m) ∧
        (∀ b, s.barrier r.child = some b → t.barrier r.child = some { b with parent := none })) ∧
    (¬ mayClose → s.mayRefuse x →
      ∃ t, exec (.close x w) s = .next t ∧ s.answered t x .close w .refusedState (s.refusedValue obj) ∧ s.refusesOnly t x .close w)

/-- R106, R109: BIND_MEMBERS by the owner appends entries that may be bound to a list that is not full and answers its length; PIN and
UNPIN set and clear the pin bit. -/
def Obligations.ObjectsBindAndPin : Prop :=
  ∀ (s : State) (x : Src) (w : CmdW) (o : Obj),
    s.obj w.obj.toNat = some o → o.owner = s.domOf x.pos →
    (s.reaches x .bindMembers w →
      let c := s.caller x .bindMembers w
      (∀ b, o.body = .barrier b → s.mayBind c b.members b.mcount true = true →
        ∃ t, exec (.bindMembers x w) s = .next t ∧
          s.answered t x .bindMembers w .ok (BitVec.ofNat 51 (b.members ++ bindEntries w).length) ∧
          s.changed t w.obj.toNat (some { o with body := .barrier { b with members := b.members ++ bindEntries w } })) ∧
      (∀ k, o.body = .token k → s.mayBind c k.givers k.gcount false = true →
        ∃ t, exec (.bindMembers x w) s = .next t ∧
          s.answered t x .bindMembers w .ok (BitVec.ofNat 51 (k.givers ++ bindEntries w).length) ∧
          s.changed t w.obj.toNat (some { o with body := .token { k with givers := k.givers ++ bindEntries w } })) ∧
      (∀ l, o.body = .ledger l → s.mayBind c l.consumers l.ccount false = true →
        ∃ t, exec (.bindMembers x w) s = .next t ∧
          s.answered t x .bindMembers w .ok (BitVec.ofNat 51 (l.consumers ++ bindEntries w).length) ∧
          s.changed t w.obj.toNat (some { o with body := .ledger { l with consumers := l.consumers ++ bindEntries w } }))) ∧
    (s.reaches x .pin w → o.pinned = false → o.slow = false → s.pinned (fileOf w.obj.toNat) < 7680 →
      ∃ t, exec (.pin x w) s = .next t ∧ s.answered t x .pin w .ok 0 ∧ s.changed t w.obj.toNat (some { o with pinned := true })) ∧
    (s.reaches x .unpin w → o.pinned = true →
      ∃ t, exec (.unpin x w) s = .next t ∧ s.answered t x .unpin w .ok 0 ∧ s.changed t w.obj.toNat (some { o with pinned := false }))

/-- R110, R111: GRANT by the owner to another enabled domain records the grant and charges the owner one object; a revocation of a
grant whose domain is not involved with the object removes it and returns the charge. -/
def Obligations.ObjectsGrant : Prop :=
  ∀ (s : State) (x : Src) (w : CmdW) (o : Obj),
    s.obj w.obj.toNat = some o → o.owner = s.domOf x.pos →
    let d := w.arg.toNat % 1024
    let f := fileOf w.obj.toNat
    let v := wingOf w.obj.toNat
    (s.reaches x .grant (grantWord w false) → (w.obj.toNat, d) ∉ (s.file f).grants → d ≠ o.owner → (s.domain d).enabled = true →
      s.objsOk v o.owner = true → (s.file f).grants.length < 1024 →
      ∃ t, exec (.grant x w) s = .next t ∧ s.answered t x .grant (grantWord w false) .ok 0 ∧
        t.like ((s.modFile f (fun y => { y with grants := y.grants ++ [(w.obj.toNat, d)] })).modUse v o.owner
          (fun u => { u with objs := u.objs + 1 }))) ∧
    (s.reaches x .grant (grantWord w true) → (w.obj.toNat, d) ∈ (s.file f).grants → s.involved w.obj.toNat d o.body = false →
      ∃ t, exec (.grantRevoke x w) s = .next t ∧ s.answered t x .grant (grantWord w true) .ok 0 ∧
        t.like ((s.modFile f (fun y => { y with grants := y.grants.filter (fun g => g != (w.obj.toNat, d)) })).modUse v o.owner
          (fun u => { u with objs := u.objs - 1 })))

/-! ### Agent commands on no object -/

/-- R79: the first check that fails gives the answer: a disabled position NOT_FOUND, an empty bucket REFUSED_QUOTA 6, a malformed word
MALFORMED with the reason of the rule, a reserved opcode MALFORMED 1; then, on an object, a number that the domain may not use
NOT_FOUND, and a contained file ABORTED with the number. The place of the contained-file check among them (log 24), reason 3 for the flags
of the queued path on the slot path (log 27) and lane D for what checks 1 to 4 refuse (log 28) are DEDUCED. R116, R353: on the slot path a
command whose record is not at hand is answered DEFERRED 5 and its page-in starts, and one that needs a row locked for a remap DEFERRED 6.
R112: one that finds the operation table full is answered DEFERRED 1 at its admission (log 78). -/
def Obligations.ChecksInOrder : Prop :=
  ∀ (s : State) (x : Src) (w : CmdW), s.presented x w →
    (∀ op, (∀ v, x.path = .win v → s.windowStuck (s.caller x op w) = false) → (op = .grant → w = grantWord w (w.arg.getLsbD 10)) →
      ((s.posEnt x.pos).enabled = false →
        ∃ t, exec (op.row x w) s = .next t ∧ s.answeredAs t x (x.path matches .win _) [] w .notFound 0 ∧ s.answersOnly t) ∧
      ((s.posEnt x.pos).enabled = true → s.takeToken (srcWing x) (s.domOf x.pos) = none →
        ∃ t, exec (op.row x w) s = .next t ∧ s.answeredAs t x (x.path matches .win _) [] w .refusedQuota 6 ∧ s.answersOnly t) ∧
      (∀ r, s.enters x w → formatReason op w (s.caller x op w).onWindow (s.identity x.pos) = some r →
        ∃ t, exec (op.row x w) s = .next t ∧ s.answeredAs t x (x.path matches .win _) [] w .malformed (BitVec.ofNat 51 r) ∧
          s.answersOnly t) ∧
      (∀ ahead, s.takes x op w → s.meets x op w → op.onObject = true → op ≠ .payloadWrite → s.mustFollow (srcHeld x op w) = false →
        x.path = .slot ahead → s.opFreeWith x.mates.2 (wingOf w.obj.toNat) = false →
        ∃ t, exec (op.row x w) s = .next t ∧ s.answered t x op w .deferred 1 ∧
          (∀ v, t.wing v = if v = posWing x.pos then { s.wing v with deferCnt := sat 0xFFFF (s.wing v).deferCnt } else s.wing v) ∧
          t = { s with spent := t.spent, trace := t.trace, lanes := t.lanes, wq := t.wq, wk := t.wk }) ∧
      (s.takes x op w → s.meets x op w → op.onObject = true → s.mustFollow (srcHeld x op w) = false →
        (op = .payloadWrite ∨ s.opFreeWith x.mates.2 (wingOf w.obj.toNat) = true) →
        (s.mayUse (s.domOf x.pos) w.obj.toNat = false →
          ∃ t, exec (op.row x w) s = .next t ∧ s.answered t x op w .notFound 0 ∧ s.answersOnly t) ∧
        (s.mayUse (s.domOf x.pos) w.obj.toNat = true → (serviceOnly op = false ∨ s.domOf x.pos = 0) →
          s.fileContained w.obj.toNat = true →
          ∃ t, exec (op.row x w) s = .next t ∧ s.answered t x op w .aborted (BitVec.ofNat 51 w.obj.toNat) ∧ s.answersOnly t) ∧
        (∀ ahead, x.path = .slot ahead → s.mayUse (s.domOf x.pos) w.obj.toNat = true → (serviceOnly op = false ∨ s.domOf x.pos = 0) →
          s.fileContained w.obj.toNat = false →
          let n := fileOf w.obj.toNat
          let y := s.file n
          (∀ r, s.resident w.obj.toNat = some r → s.rowBusy w.obj.toNat r = true →
            ∃ t, exec (op.row x w) s = .next t ∧ s.answered t x op w .deferred 6 ∧ s.answersOnly t) ∧
          (s.resident w.obj.toNat = none → y.pageins.contains w.obj.toNat = false → y.pageins.length < 80 →
            ∃ t, exec (op.row x w) s = .next t ∧ s.answered t x op w .deferred 5 ∧
              (∀ m, t.file m = if m = n then { y with missCnt := sat 0xFFFF y.missCnt, pageins := y.pageins ++ [w.obj.toNat] } else s.file m) ∧
              t = { s with spent := t.spent, trace := t.trace, lanes := t.lanes, files := t.files
                           out := if y.pageins.length < 16 then .pageRead (s.recordAddr w.obj.toNat) :: s.out else s.out })))) ∧
    (∀ opc, s.enters x w →
      ∃ t, exec (.reservedOpcode x w opc) s = .next t ∧ s.answeredAs t x (x.path matches .win _) [] w .malformed 1 ∧
        s.answersOnly t)

/-- NOP answers the caller's identity and domain (Table 3.3). VOTE and UNVOTE set and withdraw the caller's votes for the wings of the
mask and answer them (R315). -/
def Obligations.NopAndVotes : Prop :=
  ∀ (s : State) (x : Src) (w : CmdW),
    (s.heard x .nop w →
      ∃ t, exec (.nop x w) s = .next t ∧
        s.answered t x .nop w .ok (BitVec.ofNat 51 ((s.identity x.pos).toNat + 2 ^ 26 * s.domOf x.pos)) ∧ s.answersOnly t) ∧
    (s.heard x .vote w → (∀ v ∈ maskWings w.arg.toNat, s.active v = true) →
      ∃ t, exec (.vote x w) s = .next t ∧
        s.answered t x .vote w .ok (BitVec.ofNat 51 ((if t.vote .q x.pos then 1 else 0) + (if t.vote .k x.pos then 2 else 0))) ∧
        (∀ v p, t.vote v p = (if p = x.pos ∧ v ∈ maskWings w.arg.toNat then true else s.vote v p) ∨ 1024 ≤ p) ∧
        t = { s with spent := t.spent, trace := t.trace, lanes := t.lanes, entries := t.entries, votes := t.votes }) ∧
    (s.heard x .unvote w →
      ∃ t, exec (.unvote x w) s = .next t ∧
        s.answered t x .unvote w .ok (BitVec.ofNat 51 ((if t.vote .q x.pos then 1 else 0) + (if t.vote .k x.pos then 2 else 0))) ∧
        (∀ v p, t.vote v p = (if p = x.pos ∧ v ∈ maskWings w.arg.toNat then false else s.vote v p) ∨ 1024 ≤ p) ∧
        t = { s with spent := t.spent, trace := t.trace, lanes := t.lanes, entries := t.entries, votes := t.votes })

/-- R84, R86, R189: POLL of a bound slot answers PENDING with its VALUE, POLL and CANCEL_WAIT of a READY slot answer its completion and
free it, and on slot 7 both take the first notice word, or answer OK 0 when there is none. -/
def Obligations.SlotsPoll : Prop :=
  ∀ (s : State) (x : Src) (op : Op) (w : CmdW), op = .poll ∨ op = .cancelWait → s.heard x op w →
    (∀ r, op = .poll → w.slot ≠ 7 → s.slot x.pos w.slot.toNat = some r → r.ready = none →
      ∃ t, exec (op.row x w) s = .next t ∧ s.answered t x op w .pending r.value ∧ s.wq.woken t.wq ∧ s.wk.woken t.wk ∧
        t = { s with spent := t.spent, trace := t.trace, lanes := t.lanes, entries := t.entries, wq := t.wq, wk := t.wk }) ∧
    (∀ r st v, w.slot ≠ 7 → s.slot x.pos w.slot.toNat = some r → r.ready = some (st, v) → st ≠ .refusedState → r.entry = none →
      ∃ t, exec (op.row x w) s = .next t ∧ s.answered t x op w st v ∧
        (∀ q j, t.slot q j = if 8 * q + j = 8 * x.pos + w.slot.toNat then none else s.slot q j) ∧
        t.useOf r.qwing r.dom = { s.useOf r.qwing r.dom with slots := (s.useOf r.qwing r.dom).slots - 1 } ∧
        s.wq.woken t.wq ∧ s.wk.woken t.wk ∧
        t = { s with spent := t.spent, trace := t.trace, lanes := t.lanes, entries := t.entries, slots := t.slots, use := t.use,
                     wq := t.wq, wk := t.wk }) ∧
    (∀ n l, w.slot = 7 → (s.noteQ x.pos).words = n :: l →
      ∃ t, exec (op.row x w) s = .next t ∧ s.answered t x op w .ok n.word ∧
        t.noteQ x.pos = { s.noteQ x.pos with words := l } ∧ (∀ q, q ≠ x.pos → t.noteQ q = s.noteQ q) ∧
        s.wq.woken t.wq ∧ s.wk.woken t.wk ∧
        t = { s with spent := t.spent, trace := t.trace, lanes := t.lanes, entries := t.entries, notes := t.notes,
                     wq := t.wq, wk := t.wk }) ∧
    (w.slot = 7 → s.noteQ x.pos = NoteQ.empty →
      ∃ t, exec (op.row x w) s = .next t ∧ s.answered t x op w .ok 0 ∧ s.wq.woken t.wq ∧ s.wk.woken t.wk ∧
        t = { s with spent := t.spent, trace := t.trace, lanes := t.lanes, entries := t.entries, wq := t.wq, wk := t.wk })

/-- R85: CANCEL_WAIT of a bound slot withdraws the waiting operation, frees the slot and answers OK with the object, 0 for a hold
request. -/
def Obligations.WaitsCancel : Prop :=
  ∀ (s : State) (x : Src) (w : CmdW) (r : SlotRec),
    s.heard x .cancelWait w → w.slot ≠ 7 → s.slot x.pos w.slot.toNat = some r → r.ready = none → r.entry = none →
    (∀ obj y, r.obj = some obj → (s.resident obj).isSome = true →
      (s.waiters obj).find? (fun z => z.pos == x.pos && z.slot == w.slot.toNat) = some y →
      (y.kind.isLock = false ∧ ∀ n, y.kind ≠ .amount n) →
      ∃ t, exec (.cancelWait x w) s = .next t ∧ s.answered t x .cancelWait w .ok (BitVec.ofNat 51 obj) ∧
        (∀ q j, t.slot q j = if 8 * q + j = 8 * x.pos + w.slot.toNat then none else s.slot q j) ∧
        t.waiters obj = dequeue (s.waiters obj) x.pos w.slot.toNat ∧ (∀ n, n ≠ obj → t.waiters n = s.waiters n) ∧
        t.useOf r.qwing r.dom = { s.useOf r.qwing r.dom with
          slots := (s.useOf r.qwing r.dom).slots - 1, ops := (s.useOf r.qwing r.dom).ops - 1 } ∧
        s.wq.woken t.wq ∧ s.wk.woken t.wk ∧
        t = { s with spent := t.spent, trace := t.trace, lanes := t.lanes, entries := t.entries, slots := t.slots, use := t.use,
                     wq := t.wq, wk := t.wk, waitq := t.waitq }) ∧
    (r.obj = none →
      ∃ t, exec (.cancelWait x w) s = .next t ∧ s.answered t x .cancelWait w .ok 0 ∧
        (∀ q j, t.slot q j = if 8 * q + j = 8 * x.pos + w.slot.toNat then none else s.slot q j) ∧
        t.holds.recs = s.holds.recs.filter (fun h => !(h.who == HoldBy.pos x.pos && h.granted.isNone)) ∧
        s.wq.woken t.wq ∧ s.wk.woken t.wk ∧
        t = { s with spent := t.spent, trace := t.trace, lanes := t.lanes, entries := t.entries, slots := t.slots, use := t.use,
                     wq := t.wq, wk := t.wk, holds := { s.holds with recs := t.holds.recs } })

/-- R268: HOLD_REQUEST of a caller without one, with fewer than 64 in all and room in its quota and the operation table, records the
request and answers PENDING 0, or answers GRANTED at once when it joins a forced hold whose grants are made (R271); HOLD_DONE ends the
caller's granted hold (R272). -/
def Obligations.HoldsAsk : Prop :=
  ∀ (s : State) (x : Src) (w : CmdW),
    let joins := s.holds.forced && s.holds.grantsDone && s.domOf x.pos == 0
    let r : HoldRec :=
      { who := .pos x.pos, slot := w.slot.toNat, dom := s.domOf x.pos, us := w.arg.toNat % 65536, urgent := w.arg.getLsbD 16
        at_ := s.now, granted := if joins then some (s.now + 1000 * (w.arg.toNat % 65536)) else none, forced := joins, barriers := [] }
    (s.heard x .holdRequest w → s.holdOf (.pos x.pos) = none → s.holds.recs.length < 64 →
      s.opsOk (posWing x.pos) (s.domOf x.pos) = true → s.opFree (posWing x.pos) = true →
      (joins = true →
        ∃ t, exec (.holdRequest x w) s = .next t ∧
          s.answered t x .holdRequest w .granted (BitVec.ofNat 51 (w.arg.toNat % 65536)) ∧
          t.like { s with holds := { s.holds with recs := s.holds.recs ++ [r] } }) ∧
      (joins = false → w.arg.getLsbD 16 = false →
        ∃ t, exec (.holdRequest x w) s = .next t ∧ s.answered t x .holdRequest w .pending 0 ∧
          t.slot x.pos w.slot.toNat = some { obj := none, home := .tcu, dom := s.domOf x.pos, qwing := posWing x.pos, value := 0,
                                             entry := none, ready := none } ∧
          s.wq.woken t.wq ∧ s.wk.woken t.wk ∧
          t = { s with spent := t.spent, trace := t.trace, lanes := t.lanes, entries := t.entries, slots := t.slots, use := t.use,
                       wq := t.wq, wk := t.wk, holds := { s.holds with recs := s.holds.recs ++ [r] } })) ∧
    (s.heard x .holdDone w → s.holding (.pos x.pos) = true → s.holds.forced = false → (∀ y ∈ s.barriers, y.2.holding = false) →
      ∃ t, exec (.holdDone x w) s = .next t ∧ s.answered t x .holdDone w .ok 0 ∧
        t.like { s with holds := { s.holds with recs := s.holds.recs.filter (fun h => h.who != .pos x.pos) } })

/-- R213, R214: SEQ_START of a sequencer that may run makes the start ply its current one, in WAITING, with its watches, loop counters
and anchor fresh, its wait's object checked (R201) and the watches that it uses set (R199), at the moment that log 64 names (DESIGN CHOICE); SEQ_STOP stops a WAITING or HALTED one and lets an ACTING one finish its ply (Table 7.7). -/
def Obligations.SequencersStart : Prop :=
  ∀ (s : State) (x : Src) (w : CmdW),
    let k := w.arg.toNat % 32
    let e := s.seqEnt k
    (∀ p, s.heard x .seqStart w → s.seqVisible k (s.domOf x.pos) = true → s.img.plyValid w.amount = true → w.amount < 65536 →
      (s.seq k).running = false → s.contained (bSEQ (seqWing k)) = false → (s.posEnt e.actPos).enabled = true →
      (s.posEnt e.actPos).dom = e.dom → s.running e.dom < (s.domain e.dom).seqRun → s.opsOk (seqWing k) e.dom = true →
      s.opFree (seqWing k) = true → (∀ h ∈ s.held, ∀ a, h.req ≠ .seq k a) →
      (∀ u ∈ s.seam, u.unissued k = false ∧ u.forget k = u) → s.displacedPly w.amount = false →
      (∀ y ∈ s.onHold, y.2 ≠ .ply k ∧ y.2 ≠ .met k) → s.mustWait (some (seqWing k)) (s.plyHalf w.amount) = false →
      s.lockedRow (plyWing w.amount) ≠ some (56 + plyRow w.amount / 512, plyRow w.amount % 512) →
      s.rowFind (plyWing w.amount) (28672 + plyRow w.amount) = .clean → s.ply w.amount = some p → plyReserved p = false →
      plyWcond p ≠ 6 →
      (∀ o ∈ e.plyObjs p, s.mayUse e.dom o = true ∧ s.atHand o ∧ s.mustWait (some (seqWing k)) (wingOf o) = false) →
      (∀ o, e.waitObj p = some o → ∃ y, s.obj o = some y ∧ y.body.typeCode ∈ (match plyWcond p with
        | 1 => [1, 7]
        | 2 => [6]
        | 3 => [1, 2, 4]
        | _ => [5])) →
      let arrives (i : Nat) : Prop := ∃ a ∈ plyActions p, actKind (plyAct p a) = 1 ∧ actArg (plyAct p a) % 4 = i
      (∀ i, arrives i → ∃ y, s.obj (e.watch i) = some y ∧ y.body.typeCode = 1) →
      ∃ t, exec (.seqStart x w) s = .next t ∧ s.answered t x .seqStart w .ok 0 ∧
        t.seq k = { Seq.reset with state := .waiting, pc := w.amount, anchor := s.now, cur := some p, plyAt := s.now,
                                   wcond := plyWcond p, watches := (t.seq k).watches } ∧
        -- a watch starts at its object's generation as it is first used, a ledger's at chunk 0 (R199)
        (t.seq k).watches.length = 4 ∧
        (∀ i, i < 4 → ((t.seq k).watches.getD i none).isSome = true ↔
          ((plyWcond p = 1 ∨ plyWcond p = 2) ∧ plyWarg p % 4 = i ∨ arrives i)) ∧
        (∀ i y c, ((t.seq k).watches.getD i none) = some c → s.obj (e.watch i) = some y → match y.body with
          | .barrier b => c = b.gen
          | .relay r => c = r.pgen
          | _ => c = 0) ∧
        (∀ j, j ≠ k → t.seq j = s.seq j) ∧
        t.useOf (seqWing k) e.dom = { s.useOf (seqWing k) e.dom with ops := (s.useOf (seqWing k) e.dom).ops + 1 } ∧
        s.wq.woken t.wq ∧ s.wk.woken t.wk ∧
        t = { s with spent := t.spent, trace := t.trace, lanes := t.lanes, entries := t.entries, seqs := t.seqs, use := t.use,
                     wq := t.wq, wk := t.wk, badPages := [] }) ∧
    (s.heard x .seqStop w → s.seqVisible k (s.domOf x.pos) = true → (∀ h ∈ s.holds.recs, h.who ≠ .seq k) →
      ((s.seq k).state = .waiting ∨ (s.seq k).state = .halted →
        ∃ t, exec (.seqStop x w) s = .next t ∧ s.answered t x .seqStop w .ok (BitVec.ofNat 51 (s.seq k).pc) ∧
          (t.seq k).state = .stopped ∧ (t.seq k).pc = (s.seq k).pc ∧ (∀ j, j ≠ k → t.seq j = s.seq j) ∧
          s.wq.woken t.wq ∧ s.wk.woken t.wk ∧
          t = { s with spent := t.spent, trace := t.trace, lanes := t.lanes, entries := t.entries, seqs := t.seqs, use := t.use,
                       wq := t.wq, wk := t.wk }) ∧
      (∀ p, (s.seq k).state = .acting → (s.seq k).cur = some p →
        ∃ t, exec (.seqStop x w) s = .next t ∧
          s.answered t x .seqStop w .ok (BitVec.ofNat 51 (if plyEnd p then (s.seq k).pc else (seqNext (s.seq k) p).1)) ∧
          t.like (s.modSeq k (fun q => { q with state := .stopping }))))

/-- R11: an offset that no register has reads 0 and ignores writes; READ_REG of a register that the domain may see answers its
contents, with the witness in VALUE[47:32] for a STAT register read by domain 0 (R345), and 0 for one it may not see; WRITE_REG by domain 0
writes the fields that it may write (R13, R14). -/
def Obligations.RegistersReadAndWrite : Prop :=
  ∀ (s : State) (x : Src) (w : CmdW),
    (regAt w.arg.toNat = none →
      (s.heard x .readReg w → ∃ t, exec (.readReg x w) s = .next t ∧ s.answered t x .readReg w .ok 0 ∧ s.answersOnly t) ∧
      (s.heard x .writeReg w → ∃ t, exec (.writeReg x w) s = .next t ∧ s.answered t x .writeReg w .ok 0 ∧ s.answersOnly t)) ∧
    (∀ r, regAt w.arg.toNat = some r → s.heard x .readReg w →
      ((∀ n, r ≠ .pc n) → (∀ b i, r ≠ .fault b i) →
        ∃ t, exec (.readReg x w) s = .next t ∧
          s.answered t x .readReg w .ok (BitVec.ofNat 51 (if s.regVisible r (s.domOf x.pos) then s.readRaw r % 2 ^ 32 else 0)) ∧
          s.answersOnly t) ∧
      (∀ b i, r = .fault b i → (s.blk b).parityIn = 0 → s.domOf x.pos = 0 →
        ∃ t, exec (.readReg x w) s = .next t ∧
          s.answered t x .readReg w .ok (BitVec.ofNat 51 (s.readFault b i % 2 ^ 32 +
            (if i = 0 then (s.blk b).sqn.toNat * 2 ^ 32 else 0))) ∧ s.answersOnly t)) ∧
    (∀ r, regAt w.arg.toNat = some r → s.heard x .writeReg w → s.domOf x.pos = 0 → r.writable = true →
      (∀ b i, r = .fault b i → (s.blk b).parityIn = 0) → (∀ n, r ≠ .trCtl ∧ r ≠ .trSel ∧ r ≠ .pcSel n) →
      ∃ t, exec (.writeReg x w) s = .next t ∧ s.answered t x .writeReg w .ok 0 ∧
        t.like (s.writeRaw r (w.data.truncate 32)))

/-- R42, R96, R126, R191, R222, R254, R362: a write of 1 to a wing's CLR bit by domain 0 sets the counters of its register to 0 and
changes nothing else. -/
def Obligations.WingCountersClear : Prop :=
  ∀ (s : State) (x : Src) (tag : BitVec 8) (v : Wing), s.domOf x.pos = 0 →
    (∀ off bit, (off, bit) = (byWing v 0x70040 0xB0040, 2 ^ 16) → s.heard x .writeReg (writeWord tag off bit) →
      ∃ t, exec (.ingLoadClrCnt x tag v) s = .next t ∧ s.answered t x .writeReg (writeWord tag off bit) .ok 0 ∧
        t.like (s.modWing v (fun y => { y with deferCnt := 0 }))) ∧
    (∀ off bit, (off, bit) = (byWing v 0x70044 0xB0044, 2 ^ 31) → s.heard x .writeReg (writeWord tag off bit) →
      ∃ t, exec (.ingWinClr x tag v) s = .next t ∧ s.answered t x .writeReg (writeWord tag off bit) .ok 0 ∧
        t.like (s.modWing v (fun y => { y with lostCnt := 0, badCnt := 0 }))) ∧
    (∀ off bit, (off, bit) = (byWing v 0x70058 0xB0058, 2 ^ 31) → s.heard x .writeReg (writeWord tag off bit) →
      ∃ t, exec (.ingRefuseClr x tag v) s = .next t ∧ s.answered t x .writeReg (writeWord tag off bit) .ok 0 ∧
        t.like (s.modWing v (fun y => { y with crossCnt := 0 }))) ∧
    (∀ off bit, (off, bit) = (byWing v 0x78040 0xB8040, 2 ^ 31) → s.heard x .writeReg (writeWord tag off bit) →
      ∃ t, exec (.wakeNoteClr x tag v) s = .next t ∧ s.answered t x .writeReg (writeWord tag off bit) .ok 0 ∧
        t.like (s.modWing v (fun y => { y with dropCnt := 0 }))) ∧
    (∀ off bit, (off, bit) = (byWing v 0x58000 0x98000, 2 ^ 31) → s.heard x .writeReg (writeWord tag off bit) →
      ∃ t, exec (.seqPageClr x tag v) s = .next t ∧ s.answered t x .writeReg (writeWord tag off bit) .ok 0 ∧
        t.like (s.modWing v (fun y => { y with pageMiss := 0, checkFail := 0 }))) ∧
    (∀ off bit, (off, bit) = (byWing v 0x60120 0xA0120, 2 ^ 31) → s.heard x .writeReg (writeWord tag off bit) →
      ∃ t, exec (.cmbLvlerrClr x tag v) s = .next t ∧ s.answered t x .writeReg (writeWord tag off bit) .ok 0 ∧
        t.like (s.modWing v (fun y => { y with remoteFail := 0, genErr := 0, noCtx := 0 }))) ∧
    (∀ off bit, (off, bit) = (byWing v 0x30040 0x30044, 2 ^ 31) → s.heard x .writeReg (writeWord tag off bit) →
      ∃ t, exec (.repScrubClr x tag v) s = .next t ∧ s.answered t x .writeReg (writeWord tag off bit) .ok 0 ∧
        t.like (s.modWing v (fun y => { y with passCnt := 0, ceCnt := 0 })))

/-- R67, R126, R251, R274, R306, R328, R403, R404: the other register writes with a row of their own, by domain 0. Reclaiming the flash
finds its mode anew, and where it finds none the block stays as it is (log 73, DESIGN CHOICE); the TRACE instrument writes the trace
buffer's controls as their registers do (R397). -/
def Obligations.RegistersClear : Prop :=
  ∀ (s : State) (x : Src) (tag : BitVec 8), s.domOf x.pos = 0 →
    (∀ (f : BitVec 3) (off : Nat), off = faultBase (bFIL f.toNat) + 0x44 → s.heard x .writeReg (writeWord tag off (2 ^ 31)) →
      ∃ t, exec (.filPageClr x tag f) s = .next t ∧ s.answered t x .writeReg (writeWord tag off (2 ^ 31)) .ok 0 ∧
        t.like (s.modFile f.toNat (fun y => { y with missCnt := 0, wbCnt := 0 }))) ∧
    (∀ (f : BitVec 3) (off : Nat), off = faultBase (bFIL f.toNat) + 0xA0 → s.heard x .writeReg (writeWord tag off (2 ^ 31)) →
      ∃ t, exec (.filLedgerClr x tag f) s = .next t ∧ s.answered t x .writeReg (writeWord tag off (2 ^ 31)) .ok 0 ∧
        t.like (s.modFile f.toNat (fun y => { y with faultCnt := 0, lateCnt := 0, poisonCnt := 0 }))) ∧
    (s.heard x .writeReg (writeWord tag 0x1010C (2 ^ 31)) →
      ∃ t, exec (.clrAll x tag) s = .next t ∧ s.answered t x .writeReg (writeWord tag 0x1010C (2 ^ 31)) .ok 0 ∧
        t.like { s with susp := { s.susp with table := [], overflow := 0 } }) ∧
    (s.heard x .writeReg (writeWord tag 0x1010C (2 ^ 30)) →
      ∃ t, exec (.clrSel x tag) s = .next t ∧ s.answered t x .writeReg (writeWord tag 0x1010C (2 ^ 30)) .ok 0 ∧
        t.like { s with susp := { s.susp with table := tset none s.susp.table s.susp.sel none } }) ∧
    (∀ (k : BitVec 4) (off : Nat), off = faultBase (bSHP k.toNat) + 0x48 → s.heard x .writeReg (writeWord tag off (2 ^ 31)) →
      ∃ t, exec (.shpCnt0Clr x tag k) s = .next t ∧ s.answered t x .writeReg (writeWord tag off (2 ^ 31)) .ok 0 ∧
        t.like (s.modPort k.toNat (fun p => { p with downCnt := 0, retryCnt := 0, qbad := 0, qdrop := 0 }))) ∧
    (s.heard x .writeReg (writeWord tag 0xE010C (2 ^ 31)) →
      ∃ t, exec (.tunCntClr x tag) s = .next t ∧ s.answered t x .writeReg (writeWord tag 0xE010C (2 ^ 31)) .ok 0 ∧
        t.like { s with tun := { s.tun with fallback := 0, retx := 0, lost := 0 } }) ∧
    (s.heard x .writeReg (writeWord tag 0x10144 (2 ^ 31)) →
      ∃ t, exec (.tcuHoldcntClr x tag) s = .next t ∧ s.answered t x .writeReg (writeWord tag 0x10144 (2 ^ 31)) .ok 0 ∧
        t.like { s with holds := { s.holds with barCnt := 0, forcedCnt := 0, overrunCnt := 0 } }) ∧
    (s.heard x .writeReg (writeWord tag 0x1019C (2 ^ 31)) →
      ∃ t, exec (.tcuPwrcntClr x tag) s = .next t ∧ s.answered t x .writeReg (writeWord tag 0x1019C (2 ^ 31)) .ok 0 ∧
        t.like { s with pwrc := { s.pwrc with adjCnt := 0, abortCnt := 0, lateRdy := 0 } }) ∧
    (s.heard x .writeReg (writeWord tag 0x20014 (2 ^ 31)) →
      ∃ t, exec (.flashRelease x tag) s = .next t ∧ s.answered t x .writeReg (writeWord tag 0x20014 (2 ^ 31)) .ok 0 ∧
        t.iml.release = true ∧ t.iml.released = (s.iml.released || s.iml.bootDone) ∧
        t.like { s with iml := t.iml, out := if s.iml.released || !s.iml.bootDone then s.out else .flResetPulse :: s.out } ∧
        t.iml = { s.iml with release := t.iml.release, released := t.iml.released }) ∧
    (∀ y : Sfdp, s.heard x .writeReg (writeWord tag 0x20014 0) →
      ∃ t, exec (.flashReclaim x ⟨tag, y⟩) s = .next t ∧ s.answered t x .writeReg (writeWord tag 0x20014 0) .ok 0 ∧
        t.like { s with
          iml := { s.iml with
            release := false, released := false, sfdp := y
            flashMode := if s.iml.released then flashModeOf s.rom y else s.iml.flashMode }
          out := if s.iml.released then .flResetPulse :: s.out else s.out }) ∧
    (s.network = true → ∀ v : BitVec 32,
      -- the access inserts the TRACE segment (log 98)
      let u : State := { s with tap := { s.tap with sib := BitVec.twoPow 37 Instrument.trace.sib } }
      exec (.traceEnable .test .ctl v) s = .next (u.writeRaw .trCtl v) ∧ exec (.traceEnable .test .sel v) s = .next (u.writeRaw .trSel v)) ∧
    (∀ v : BitVec 32, s.heard x .writeReg (writeWord tag 0x10200 v.toNat) →
      ∃ t, exec (.traceEnable (.agent x tag) .ctl v) s = .next t ∧ s.answered t x .writeReg (writeWord tag 0x10200 v.toNat) .ok 0 ∧
        t.trace.ctl = v ∧
        (v.getLsbD 31 = true → s.trace.ctl.getLsbD 31 = false →
          t.trace.next = 0 ∧ t.trace.wrapped = false ∧ t.trace.stopped = false ∧ t.trace.dropped = 0) ∧ s.answersOnly t) ∧
    (∀ (n : BitVec 2) (code : BitVec 4), s.heard x .writeReg (writeWord tag (0x10230 + 4 * n.toNat) code.toNat) →
      ∃ t, exec (.pcselWrite x tag n code) s = .next t ∧
        s.answered t x .writeReg (writeWord tag (0x10230 + 4 * n.toNat) code.toNat) .ok 0 ∧
        tget 0 t.trace.pcSel n.toNat = code.toNat ∧ tget 0 t.trace.pc n.toNat = 0 ∧ s.answersOnly t)

/-- R345: CLEAR_STATUS clears the bits of its mask that no newer event has set again, and answers OK with STAT, or CLEAR_PARTIAL when a
bit of the mask stays. -/
def Obligations.StatusClears : Prop :=
  ∀ (s : State) (x : Src) (w : CmdW) (b : Nat), s.heard x .clearStatus w → faultRegAt w.arg.toNat = some (b, 0) →
    (s.blk b).parityIn = 0 → (s.blk b).fstate = .normal →
    let m := w.data.extractLsb' 0 32
    let hit := (s.blk b).clearable m (w.data.extractLsb' 32 16)
    (∀ i, hit.getLsbD i = true → s.condTrue b i = false) →
    ∃ t, exec (.clearStatus x w) s = .next t ∧
      s.answered t x .clearStatus w (if (s.blk b).stat &&& ~~~ hit &&& m = 0 then .ok else .clearPartial)
        (((s.blk b).stat &&& ~~~ hit).zeroExtend 51) ∧
      t.like (s.modBlk b (fun y => y.clearBits hit))

/-- R157, R184, R266: RESIGN by domain 0 marks a live entry resigned; on a barrier whose generation still waits for another member, the
next release carries the RESIGNED note, and the member's own waits complete with RESIGNED. -/
def Obligations.MembersResign : Prop :=
  ∀ (s : State) (x : Src) (w : CmdW) (o : Obj), s.reaches x .resign w → s.domOf x.pos = 0 → s.obj w.obj.toNat = some o →
    (∀ b i e j e', o.body = .barrier b → b.binding = false → entIdx b.members (entryOf w.ent0).relay (entryOf w.ent0).who = some i →
      b.members[i]? = some e → e.res = false → e.adv = false → j ≠ i → b.members[j]? = some e' → e'.live = true → e'.arr = false →
      s.stage w.obj.toNat (entryOf w.ent0).who = none → distinctSlots (s.waiters w.obj.toNat) →
      let mine (y : Waiter) : Bool := !(entryOf w.ent0).relay && y.pos == (entryOf w.ent0).who
      ∃ t, exec (.resign x w) s = .next t ∧ s.answered t x .resign w .ok 0 ∧
        s.puts t w.obj.toNat (some { o with
          body := .barrier { b with members := updAt b.members i (fun e => { e with res := true }), note := true } }) ∧
        s.wakes t w.obj.toNat ((s.waiters w.obj.toNat).filter (fun y => !mine y))
          (((s.waiters w.obj.toNat).filter mine).map
            (fun y => (y.pos, y.slot, Status.resigned, BitVec.ofNat 51 (b.gen.toNat % 65536)))) ∧
        s.serves t) ∧
    (∀ k i e, o.body = .token k → k.binding = false → k.givers[i]? = some e → e.live = true →
      (entryOf w.ent0).relay = e.relay → (entryOf w.ent0).who = e.who → i ≠ k.nextGiver →
      (∀ j y, k.givers[j]? = some y → y.relay = e.relay → y.who = e.who → j = i) →
      ∃ t, exec (.resign x w) s = .next t ∧ s.answered t x .resign w .ok 0 ∧
        s.changed t w.obj.toNat (some { o with
          body := .token { k with givers := updAt k.givers i (fun e => { e with res := true }) } })) ∧
    (∀ l i e, o.body = .ledger l → l.faulted = false → l.binding = false → l.consumers[i]? = some e → e.live = true →
      (entryOf w.ent0).relay = e.relay → (entryOf w.ent0).who = e.who →
      (∀ j y, l.consumers[j]? = some y → y.relay = e.relay → y.who = e.who → j = i) →
      ∃ t, exec (.resign x w) s = .next t ∧ s.answered t x .resign w .ok 0 ∧
        s.changed t w.obj.toNat (some { o with
          body := .ledger { l with consumers := updAt l.consumers i (fun e => { e with res := true, arr := false }) } }))

/-- R122, R123: REASSIGN moves an idle position to another enabled domain; REMAP puts an enabled spare in the place of an idle position,
with its domain and scheduler position, in every list entry and every SCHED_POS that names it, with its staging blocks, its votes and its
notices, and disables that position. -/
def Obligations.PositionsMove : Prop :=
  ∀ (s : State) (x : Src) (w : CmdW),
    let a := w.arg.toNat % 1024
    let b := w.data.toNat % 1024
    (s.heard x .reassign w → (s.posEnt a).enabled = true → (s.domain b).enabled = true → (s.posEnt a).dom ≠ b → s.engaged a = false →
      ∃ t, exec (.reassign x w) s = .next t ∧ s.answered t x .reassign w .ok 0 ∧
        t.like { s with posmap := tset PosEnt.disabled s.posmap a { s.posEnt a with dom := b } }) ∧
    (s.heard x .remap w → (s.posEnt a).enabled = true → (s.posEnt b).spare = true → (s.posEnt b).enabled = false →
      s.engaged a = false →
      let sched (p : Nat) : Nat := if (s.posEnt p).schedPos = a then b else (s.posEnt p).schedPos
      let who (e : Ent) : Ent := if e.relay = false ∧ e.who = a then { e with who := b } else e
      let moved (o o' : Option Obj) : Prop := o' = o.map (Obj.moved a b) ∧
        (o'.map (fun y => y.body.entries)).getD [] = ((o.map (fun y => y.body.entries)).getD []).map who
      ∃ t, exec (.remap x w) s = .next t ∧ s.answered t x .remap w .ok 0 ∧
        -- steps 1, 3 and 5
        t.posEnt b = { s.posEnt b with dom := (s.posEnt a).dom, schedPos := sched a, enabled := true } ∧
        t.posEnt a = { s.posEnt a with schedPos := sched a, enabled := false } ∧
        (∀ p, p ≠ a → p ≠ b → (s.posEnt p).enabled = true → t.posEnt p = { s.posEnt p with schedPos := sched p }) ∧
        -- step 2
        (∀ n, (s.resident n = none → t.resident n = none) ∧ ∀ r, s.resident n = some r →
          ∃ r', t.resident n = some r' ∧ r' = { r with obj := r'.obj } ∧ moved r.obj r'.obj) ∧
        (∀ n, (tget none s.backing n = none → tget none t.backing n = none) ∧ ∀ r, tget none s.backing n = some r →
          ∃ r', tget none t.backing n = some r' ∧ r' = { r with obj := r'.obj } ∧ moved r.obj r'.obj) ∧
        (∀ n, twf none s.stages = true → (s.stage n a).isSome = true → t.stage n b = s.stage n a ∧ t.stage n a = none) ∧
        (∀ v, t.vote v b = s.vote v a ∧ t.vote v a = false) ∧
        -- step 4: the spare's queue takes the words and the count in their order, across the seam when it lies in the other wing
        (let q := s.noteQ a
         s.noteQ b = NoteQ.empty → q.words.length ≤ 7 → q.overflow ≤ 0x7FFF → q.words.Pairwise (fun m n => m.merges n = false) →
         (∀ u ∈ s.seam, u.noteFor a = false) → t.noteQ a = NoteQ.empty ∧
         (s.active (posWing b) = true → posWing a = posWing b ∨ s.contained bSEAM = false → t.noteQ b = q ∧ t.seam = s.seam) ∧
         (posWing a ≠ posWing b → s.seamOpen (posWing b) = false → t.noteQ b = NoteQ.empty ∧ ∃ l, t.seam = s.seam ++ l ∧
           (∀ u ∈ l, u.into = posWing b) ∧
           l.map (fun u => u.item) = q.words.map (fun n => Work.note b (some n) none) ++
             (if q.overflow = 0 then [] else [Work.overflow b q.overflow]))) ∧
        t = { s with spent := t.spent, trace := t.trace, lanes := t.lanes, entries := t.entries, posmap := t.posmap, recs := t.recs,
                     backing := t.backing, stages := t.stages, notes := t.notes, seam := t.seam, seamNext := t.seamNext, votes := t.votes,
                     wq := t.wq, wk := t.wk, pwrc := t.pwrc })

/-! ### Answers, wakes and ticks -/

/-- R93: the owner's read of its whole response entry returns the 128 bits and clears DONE and LOST; any other read returns 0 and
changes nothing. R81: a position's oldest late completion drives lane L, and a REFUSED_STATE
counts as it does (R115). R80: a discarded SUBMIT write is counted.
R27: a deterministic command that a block on its path holds has no answer on lane D and does not count as outstanding; its answer comes
on lane L.
R91: INFO names the window's wing, and an unlisted offset reads 0; R92: a write to one is discarded.
R33, R92: a queued-path command that waits on the mesh at an ACTIVE window goes on: a NOP is answered in its entry, and the command
waits no longer. -/
def Obligations.AnswersReach : Prop :=
  (∀ (s : State), s.calm →
     (∀ v p q (t2 : BitVec 2) size single, s.inReset = false → p < 768 →
       let e : EntryId := { win := v, pos := p, t := t2.toNat }
       (size = 16 → single = true → q = p → (s.entry e).slot = none →
         ∃ t, exec (.responseEntryRead v q e.off size single) s = .next t ∧
           t.entry e = { s.entry e with isDone := false, lost := false } ∧ (∀ e' : EntryId, e'.key ≠ e.key → t.entry e' = s.entry e') ∧
           t = { s with entries := t.entries, out := .windowRead v e.off q (s.entry e).bits :: s.out }) ∧
       (size ≠ 16 ∨ single = false ∨ q ≠ p →
         exec (.responseEntryRead v q e.off size single) s = .next { s with out := .windowRead v e.off q 0 :: s.out })) ∧
     (∀ v q (off : BitVec 16) size single, s.inReset = false → off.toNat < 0x4000 →
       let d : BitVec 128 := if off.toNat / 8 = 0x20 then BitVec.ofNat 128 (infoWord v / 2 ^ (8 * (off.toNat % 8)) % 2 ^ (8 * size)) else 0
       exec (.responseEntryRead v q off size single) s = .next { s with out := .windowRead v off q d :: s.out }) ∧
     (∀ p r l, s.runs → s.active (posWing p) = true → (∀ h ∈ s.held, h.req = .slot p → ∀ b late, h.place ≠ .caught b late) →
       (s.lane p).queue = r :: l →
       let u := s.modLane p (fun y => { y with l := some r.resp, queue := l })
       let n := wd (posWing p) (s.domOf p)
       (r.resp.status ≠ .refusedState → exec (.lateCompletion p) s = .next u) ∧
       (r.resp.status = .refusedState →
         (s.domain (s.domOf p)).refuseLimit = 0 ∨ tget 0 s.refusals n + 1 < (s.domain (s.domOf p)).refuseLimit →
         exec (.lateCompletion p) s = .next { u with refusals := tset 0 s.refusals n (tget 0 s.refusals n + 1) })) ∧
     (∀ v stamp (off : BitVec 16), s.inReset = false →
       (off.toNat < 16 → s.mild (bING v) 1 →
         ∃ t, exec (.badSubmit v ⟨stamp, off⟩) s = .next t ∧ (t.wing v).badCnt = sat 0xFFFF (s.wing v).badCnt ∧
           t = { s with wq := t.wq, wk := t.wk, blks := t.blks, trace := t.trace }) ∧
       (16 ≤ off.toNat → exec (.badSubmit v ⟨stamp, off⟩) s = .next s))) ∧
  (∀ (s : State) (x : Src) (op : Op) (w : CmdW) (ahead b : Nat),
     let y : Src := { x with path := .slot ahead }
     let site := s.siteOf (s.caller y op w)
     x.path = .caught ahead b → s.takes y op w → s.prompt site = true → site ≠ .port → (op = .grant → w = grantWord w (w.arg.getLsbD 10)) →
     ∃ t c m, exec (op.row x w) s = .next t ∧ (∀ p, t.lane p = s.lane p) ∧ t.outstanding x.pos = s.outstanding x.pos ∧
       t.held = insertCame { srcHeld y op w with
         place := .caught b false, charged := c, merged := m, mates := (0, 0), n := s.seamNext, came := s.seamNext } s.held) ∧
  (∀ (s : State) (x : Src) (w : CmdW) (v : Wing) (n came : Nat),
     let h : Held := { winHeld v x.pos (0, 0) .nop false w with n := n, came := came }
     let u : State := { s with held := s.held.erase h }
     x.path = .win v → h ∈ s.held → u.heard x .nop w →
     ∃ t, exec (.queuedCommandResume x.pos v (BitVec.ofNat 2 w.tag.toNat)) s = .next t ∧
       u.answered t x .nop w .ok (BitVec.ofNat 51 ((s.identity x.pos).toNat + 2 ^ 26 * s.domOf x.pos)) ∧ u.answersOnly t)

/-- R88, R89: a beat that arrives as it was sent changes the bits of its slot at the leaves of its mask and no other leaf.
R114: at the µs tick every bucket gains its domain's rate, up to its depth. That RATE_TICK moves the timebase on to the next microsecond is
log 12 (DESIGN CHOICE). -/
def Obligations.BeatsAndBuckets : Prop :=
  (∀ (s : State) (v : Wing) (k : BitVec 4) (ty : BeatType) (i : BitVec 3) (m : BitVec 48) (rest : List (Nat × BitVec 56)),
     s.between → s.active v = true → popBeat k.toNat (s.wing v).beats = some (encodeBeat ty i m, rest) →
     ∃ t, exec (.wakeBeat v k 0) s = .next t ∧
       (∀ p, t.leaf p = if p / 48 = k.toNat ∧ m.getLsbD (p % 48) = true then (s.leaf p).take ty.code.toNat i.toNat else s.leaf p) ∧
       (t.wing v).beats = rest ∧ s.wq.woken t.wq ∧ s.wk.woken t.wk ∧
       t = { s with leaves := t.leaves, wq := t.wq, wk := t.wk, trace := t.trace }) ∧
  (∀ (s : State), s.between → s.tickRests →
     ∃ t, exec .rateTick s = .next t ∧ s.passes t (1000 - s.now % 1000) ∧ s.bucketsGain t ∧
       t = { s with now := t.now, spent := t.spent, trace := t.trace, tsync := t.tsync, lockDir := t.lockDir, dirLag := t.dirLag
                    wq := t.wq, wk := t.wk })

/-- R117, R119: a page-in installs the record written in this start-up, and a closed record with PAGE_STALE where the stored start-up's
or the object's number is another; the first page-in that waits then goes to the mesh (R116). A FLAG_SET of a window that waited for the
record goes on when it comes: it gives back its place in the operation table, and its answer is in its entry. A write-back leaves the record in the
backing region with the start-up's number, and frees its slot. That a record never written is stale is log 8 (DESIGN CHOICE), and that an
object is SLOW by its number log 55 (DEDUCED). -/
def Obligations.RecordsPage : Prop :=
  ∀ (s : State) (obj : BitVec 20), s.between → s.active (wingOf obj.toNat) = true → s.roomy (fileOf obj.toNat) →
    let f := fileOf obj.toNat
    (∀ slot, obj.toNat ∈ (s.file f).pageins.take 16 → s.resident obj.toNat = none → s.pickSlot f = some slot →
      s.wanted obj.toNat = false → (∀ y ∈ s.onHold, y.1 ≠ .room f) → s.mild (bFIL f) 4 →
      let fresh (b : Backing) : Prop := b.epoch = s.iml.bootSeq ∧ b.num = obj.toNat
      let slow := s.rep.slowObjs.contains obj.toNat
      ∃ t, exec (.pageIn obj false) s = .next t ∧
        (∀ b, tget none s.backing obj.toNat = some b → fresh b →
          t.resident obj.toNat = some { slot := slot, touched := true, evicting := false, obj := b.obj.map (fun o =>
            { o with cold := o.cold || slow, slow := slow, pinned := o.pinned && !slow }) } ∧ t.blks = s.blks) ∧
        ((∀ b, tget none s.backing obj.toNat = some b → ¬ fresh b) →
          t.resident obj.toNat = some { slot := slot, obj := none, touched := true, evicting := false } ∧ s.setsBit t (bFIL f) 4) ∧
        (∀ n, n ≠ obj.toNat → t.resident n = s.resident n) ∧
        (t.file f).pageins = (s.file f).pageins.filter (fun y => y != obj.toNat) ∧
        t = { s with recs := t.recs, files := t.files, blks := t.blks, free := s.free + 1, trace := t.trace
                     out := match (s.file f).pageins[16]? with
                       | some n => .pageRead (s.recordAddr n) :: s.out
                       | none => s.out }) ∧
    (∀ (slot : Nat) (h : Held) (e : EntryId) (o : Obj) (n : BitVec 32),
      obj.toNat ∈ (s.file f).pageins.take 16 → s.resident obj.toNat = none → s.pickSlot f = some slot →
      (∀ y ∈ s.onHold, y.1 ≠ .room f ∧ y.1 ≠ .record obj.toNat) →
      tget none s.backing obj.toNat = some { epoch := s.iml.bootSeq, num := obj.toNat, obj := some o } → o.body = .flag false n →
      s.held = [h] → h.place = .file obj.toNat → h.req = .win e → h.op = .flagSet → h.w.obj = obj → h.bad = false → h.mute = false →
      h.charged = true → s.contained bSEAM = false → s.fileContained obj.toNat = false → s.upsets = [] →
      s.lockedRow (wingOf obj.toNat) = none → s.waiters obj.toNat = [] → s.mayUse (s.domOf e.pos) obj.toNat = true →
      s.opsOkWith h.mates.1 (wingOf obj.toNat) (s.domOf e.pos) = true → s.opFreeWith h.mates.2 (wingOf obj.toNat) = true →
      (s.entry e).isDone = false → (s.entry e).slot = none → (s.entry e).flight = none →
      let slow := s.rep.slowObjs.contains obj.toNat
      let o1 := { o with cold := o.cold || slow, slow := slow, pinned := o.pinned && !slow, body := .flag true (n + 1) }
      ∃ t, exec (.pageIn obj false) s = .next t ∧
        t.resident obj.toNat = some { slot := slot, touched := true, evicting := false, obj := some o1 } ∧
        (∀ m, m ≠ obj.toNat → t.resident m = s.resident m) ∧
        t.entry e = { s.entry e with
          resp := some { status := .ok, tag := h.w.tag, value := 0 }, isDone := true, inFlight := false } ∧
        (∀ g, g.key ≠ e.key → t.entry g = s.entry g) ∧
        (t.file f).pageins = (s.file f).pageins.filter (fun y => y != obj.toNat) ∧
        t = { s.dropOp (wingOf obj.toNat) (s.domOf e.pos) with
          held := [], recs := t.recs, files := t.files, entries := t.entries, free := s.free + 1, trace := t.trace
          out := match (s.file f).pageins[16]? with
            | some n => .pageRead (s.recordAddr n) :: s.out
            | none => s.out }) ∧
    (∀ r, s.resident obj.toNat = some r → r.evicting = true →
      ∃ t, exec (.writeBack obj false) s = .next t ∧ t.resident obj.toNat = none ∧
        (∀ n, n ≠ obj.toNat → t.resident n = s.resident n) ∧
        tget none t.backing obj.toNat = some { epoch := s.iml.bootSeq, num := obj.toNat, obj := r.obj } ∧
        (∀ n, n ≠ obj.toNat → tget none t.backing n = tget none s.backing n) ∧
        (t.file f).wbCnt = sat 0xFF (s.file f).wbCnt ∧ t = { s with recs := t.recs, files := t.files, backing := t.backing })

/-- R141: OPERAND_FOLD completes wherever the combiner works and the oldest operand of the file's queue has its barrier at hand: it
folds that operand into the barrier's working accumulator and returns its staging block, zeroed; a promoted payload that waited for
room takes the operand's place in the queue (R136). -/
def Obligations.OperandsFold : Prop :=
  ∀ (s : State) (f : BitVec 3) (y : Operand) (l : List Operand) (b : Barrier),
    s.between → s.active (wingOfFile f.toNat) = true → s.contained (bCMB (wingOfFile f.toNat)) = false →
    (s.file f.toNat).combineQ = y :: l → fileOf y.obj = f.toNat → s.barrier y.obj = some b → s.atHand y.obj →
    s.fileContained y.obj = false → s.operandLocked (wingOfFile f.toNat) y = false →
    let v := wingOfFile f.toNat
    let q := FileSt.fill 1 { s.file f.toNat with combineQ := l }
    ∃ t, exec (.operandFold f) s = .next t ∧
      (y.acc ≠ some b.accBase → t.acc v b.accBase = foldOperand b.combine b.pwords (b.folded == 0) (s.acc v b.accBase) y.data) ∧
      t.barrier y.obj = some { b with folded := b.folded + 1 } ∧ (∀ n, n ≠ y.obj → t.resident n = s.resident n) ∧
      (∀ a, y.acc = some a → t.acc v a = 0) ∧
      (∀ a, a < 4096 → a ≠ b.accBase → y.acc ≠ some a → t.acc v a = s.acc v a) ∧
      (t.file f.toNat).combineQ = q.combineQ ∧ (t.file f.toNat).promoted = q.promoted ∧ s.wq.woken t.wq ∧ s.wk.woken t.wk ∧
      t = { s with accs := t.accs, ablocks := t.ablocks, recs := t.recs, files := t.files, use := t.use, wq := t.wq, wk := t.wk,
                   trace := t.trace }

/-- R135, R136, R141: when every operand of a complete generation is folded, the finishing pass forms the result. Without a parent relay
it goes to the result accumulator, the working one is cleared, the generation is released, and the held advance arrivals without payload
are the first of the next one. With a parent relay that cannot take the child yet, the barrier is PARENT_WAIT with the result in its
working accumulator. -/
def Obligations.CombinesFinish : Prop :=
  ∀ (s : State) (obj : BitVec 20) (o : Obj) (b : Barrier),
    s.between → s.active (wingOf obj.toNat) = true → s.contained (bCMB (wingOf obj.toNat)) = false →
    s.atHand obj.toNat → s.fileContained obj.toNat = false → s.obj obj.toNat = some o → o.body = .barrier b → b.combining = true →
    s.unfolded obj.toNat = false → b.holding = false → b.parentWait = false → b.pwords ≠ 0 → b.binding = false →
    let v := wingOf obj.toNat
    let r := finishResult b.combine b.pwords b.folded (s.acc v b.accBase)
    (b.parent = none → (∀ y ∈ b.members, y.relay = false) → (∀ z ∈ b.advQ, z.2 = false) →
      b.advQ = [] ∨ (∃ j y, b.members[j]? = some y ∧ y.live = true ∧ ∀ z ∈ b.advQ, z.1 ≠ j) → distinctSlots (s.waiters obj.toNat) →
      let val := BitVec.ofNat 51 (b.gen.toNat % 65536 + 2 ^ 16 * (accWord r 0).toNat + if b.note then 2 ^ 48 else 0)
      ∃ t, exec (.combineFinish obj) s = .next t ∧ t.acc v (b.accBase + 1) = r ∧ t.acc v b.accBase = 0 ∧
        (∀ n, n < 4096 → n ≠ b.accBase → n ≠ b.accBase + 1 → t.acc v n = s.acc v n) ∧
        s.puts t obj.toNat (some { o with body := .barrier { b with
          gen := b.gen + 1, arrived := b.advQ.length, advQ := [], fallen := false, combining := false, folded := 0, note := false
          deadline := if b.advQ ≠ [] ∧ b.fallAfter ≠ 0 then s.now + b.fallAfter else 0
          relNote := b.note
          members := b.members.mapIdx (fun j y => { y with arr := b.advQ.any (fun z => z.1 == j), adv := false }) } }) ∧
        s.wakes t obj.toNat ((s.waiters obj.toNat).filter (fun y => !(y.kind == .gen b.gen)))
          (((s.waiters obj.toNat).filter (fun y => y.kind == .gen b.gen)).map (fun y => (y.pos, y.slot, Status.released, val))) ∧
        s.wq.woken t.wq ∧ s.wk.woken t.wk ∧
        t = { s with accs := t.accs, recs := t.recs, slots := t.slots, use := t.use, wq := t.wq, wk := t.wk, waitq := t.waitq
                     trace := t.trace }) ∧
    (∀ relay, b.parent = some relay → s.takesChild relay = false →
      ∃ t, exec (.combineFinish obj) s = .next t ∧ t.acc v b.accBase = r ∧
        (∀ n, n < 4096 → n ≠ b.accBase → t.acc v n = s.acc v n) ∧
        s.puts t obj.toNat (some { o with body := .barrier { b with combining := false, parentWait := true } }) ∧
        t = { s with accs := t.accs, recs := t.recs, trace := t.trace })

/-- R151 to R153: a flag fall whose deadline has passed with the generation incomplete marks it fallen, writes a straggler report into
the file's ring, and completes its waiters with FLAG_FALL when the barrier aborts on fall. -/
def Obligations.FlagsFall : Prop :=
  ∀ (s : State) (obj : BitVec 20) (o : Obj) (b : Barrier),
    s.between → s.active (wingOf obj.toNat) = true → s.fileContained obj.toNat = false → s.atHand obj.toNat → s.obj obj.toNat = some o →
    o.body = .barrier b → b.deadline ≠ 0 → b.deadline ≤ s.now → b.completing = false → b.fallen = false →
    s.mild (bFIL (fileOf obj.toNat)) 0 → s.mild (bWAKE .q) 1 → s.mild (bWAKE .k) 1 → distinctSlots (s.waiters obj.toNat) →
    let f := fileOf obj.toNat
    let hit := if b.abortOnFall then (s.waiters obj.toNat).filter (fun y => y.kind == .gen b.gen) else []
    ∃ t, exec (.flagFall obj) s = .next t ∧ s.puts t obj.toNat (some { o with body := .barrier { b with fallen := true } }) ∧
      tget none (t.file f).ring (s.file f).ringNext = some (stragglerOf obj.toNat b) ∧
      (t.file f).ringNext = ((s.file f).ringNext + 1) % 16 ∧
      s.wakes t obj.toNat (if b.abortOnFall then (s.waiters obj.toNat).filter (fun y => !(y.kind == .gen b.gen)) else s.waiters obj.toNat)
        (hit.map (fun y => (y.pos, y.slot, Status.flagFall, BitVec.ofNat 51 (b.gen.toNat % 65536)))) ∧
      t = { s with recs := t.recs, files := t.files, blks := t.blks, trace := t.trace, notes := t.notes, seam := t.seam, seamNext := t.seamNext
                   wq := t.wq, wk := t.wk, pwrc := t.pwrc, slots := t.slots, use := t.use, waitq := t.waitq }

/-- R170: the second walk of a queued lock request completes it with STALEMATE and the closing holder when it finds a chain, and else
leaves it waiting. -/
def Obligations.SecondWalks : Prop :=
  ∀ (s : State) (obj : BitVec 20) (p : Nat) (o : Obj) (l : Lock) (y : Waiter),
    s.between → s.active (wingOf obj.toNat) = true → s.fileContained obj.toNat = false → s.atHand obj.toNat → s.obj obj.toNat = some o →
    o.body = .lock l → l.held = true → s.dirLag = [] →
    (s.waiters obj.toNat).find? (fun z => z.pos == p && z.kind == .lock true) = some y → distinctSlots (s.waiters obj.toNat) →
    (s.stalemate obj.toNat p l.holder = none →
      ∃ t, exec (.secondStalemateWalk obj p) s = .next t ∧ t = { s.setWaiters obj.toNat
        ((s.waiters obj.toNat).map (fun z => if z == y then { z with kind := .lock false } else z)) with trace := t.trace }) ∧
    (∀ h, s.stalemate obj.toNat p l.holder = some h →
      ∃ t, exec (.secondStalemateWalk obj p) s = .next t ∧
        s.wakes t obj.toNat (dequeue (s.waiters obj.toNat) p y.slot)
          [(p, y.slot, Status.stalemate, BitVec.ofNat 51 (s.identity h).toNat)] ∧
        t.lockDir = dirApply s.lockDir (wingOf obj.toNat) p obj.toNat none ∧ s.wq.woken t.wq ∧ s.wk.woken t.wk ∧
        t = { s with recs := t.recs, lockDir := t.lockDir, dirLag := t.dirLag, resets := t.resets, slots := t.slots,
                     use := t.use, wq := t.wq, wk := t.wk, waitq := t.waitq, trace := t.trace })

/-- R87, R374: the reset notice of a position whose slots hold no waiting operation frees its slots, notices, entries and late answers,
withdraws its votes, and leaves its locks to be orphaned; R171: orphaning a held lock without waiters marks it ORPHANED and sends the
notice, else the first waiter gets it with GRANTED_ORPHAN. -/
def Obligations.PositionsReset : Prop :=
  ∀ (s : State) (p : Nat), s.between → p < 768 →
    (s.resets.length < 16 → (∀ r ∈ s.resets, r.eff = true) → s.active (posWing p) = true → (∀ h ∈ s.holds.recs, h.who ≠ .pos p) →
      (∀ i r, i < 7 → s.slot p i = some r → r.ready.isSome = true ∨ r.entry.isSome = true) →
      (∀ x ∈ s.stages, x.1 % 1024 ≠ p) →
      ∃ t, exec (.rstNotify p) s = .next t ∧ (∀ v, t.vote v p = false) ∧ (∀ i, i < 7 → t.slot p i = none) ∧
        t.noteQ p = NoteQ.empty ∧ (∀ v i, i < 4 → t.entry { win := v, pos := p, t := i } = Entry.empty) ∧
        t.lane p = { s.lane p with queue := [] } ∧ (∀ q, q ≠ p → t.lane q = s.lane q) ∧
        t.resets = s.resets ++ [{ pos := p, eff := true, locks := s.locksOf .q p ++ s.locksOf .k p }] ∧
        t = { s with votes := t.votes, slots := t.slots, notes := t.notes, entries := t.entries, lanes := t.lanes, use := t.use,
                     held := t.held, glockReqs := t.glockReqs, wq := t.wq, wk := t.wk, resets := t.resets }) ∧
    (∀ obj ob l, s.resets = [{ pos := p, eff := true, locks := [obj] }] → s.resetSettled p = true → s.active (wingOf obj) = true →
      s.atHand obj → s.fileContained obj = false → s.obj obj = some ob → ob.body = .lock l → l.global = none → l.held = true → l.holder = s.identity p →
      s.active (posWing (s.posEnt p).schedPos) = true → (posWing (s.posEnt p).schedPos = wingOf obj ∨ s.contained bSEAM = false) →
      (s.noteQ (s.posEnt p).schedPos).words = [] →
      (s.waiters obj = [] →
        ∃ t, exec (.orphaning p) s = .next t ∧
          s.puts t obj (some { ob with body := .lock { l with held := false, orphaned := true } }) ∧ t.resets = [] ∧
          t.lockDir = dirApply s.lockDir (wingOf obj) p obj none ∧
          (t.noteQ (s.posEnt p).schedPos).words = [.orphan obj p false] ∧ s.wq.woken t.wq ∧ s.wk.woken t.wk ∧
          t = { s with recs := t.recs, lockDir := t.lockDir, dirLag := t.dirLag, resets := t.resets, notes := t.notes,
                       wq := t.wq, wk := t.wk, trace := t.trace }) ∧
      (∀ y rest, s.waiters obj = y :: rest → distinctSlots (y :: rest) → (∀ z ∈ rest, z.prio ≤ y.prio) →
        ∃ t, exec (.orphaning p) s = .next t ∧ s.lockPassed t obj ob l y .grantedOrphan ∧ t.resets = [] ∧
          (t.noteQ (s.posEnt p).schedPos).words = [.orphan obj p true]))

/-! ### Sequencers and holds -/

/-- R201, R202, R204 to R206, R208: a wait that is met consumes what Table 7.4 says, and a ply without actions is then complete: at END the
sequencer is DONE and its operation ends; an action is issued, has the effect of Table 7.5 and is answered; a sequencer that a forced hold
pauses only records that its wait is met (R215). -/
def Obligations.SequencerWaits : Prop :=
  ∀ (s : State) (k : BitVec 5) (p : BitVec 128),
    let q := s.seq k.toNat
    s.between → q.cur = some p → q.state = .waiting → q.pageWait = false → q.checking = false → q.met = false →
    (∀ h ∈ s.holds.recs, h.who ≠ .seq k.toNat) →
    (∀ i q1, (i = Instr.seqWaitMet k ∧ s.waitServed k.toNat p = true ∧
          (∀ o, (s.seqEnt k.toNat).waitObj p = some o → s.atHand o) ∧
          (∃ b, s.waitMet k.toNat p = .ok b ∧ b = true) ∧ q1 = consume q p) ∨
        (i = Instr.seqTimeWait k ∧ plyWcond p = 5 ∧ timeTarget q p ≤ s.now ∧
          q1 = { q with anchor := if plyWarg p / 2 ^ 21 % 2 = 1 then timeTarget q p else q.anchor }) →
      s.active (seqWing k.toNat) = true → s.stepping (seqWing k.toNat) = false →
      (s.holds.forced = true →
        exec i s = .next (s.modSeq k.toNat (fun _ => { q1 with met := true }))) ∧
      (s.holds.forced = false → plyActions p = [] → plyEnd p = true →
        ∃ t, exec i s = .next t ∧
          t.seq k.toNat = { q1 with state := .done, pageWait := false, met := false, checking := false, waitingActs := 0, answers := []
                                    bad := none, ahead := [] } ∧
          (∀ j, j ≠ k.toNat → t.seq j = s.seq j) ∧
          (∀ e, s.img.seqs[k.toNat]? = some e → t.useOf (seqWing k.toNat) e.dom =
            { s.useOf (seqWing k.toNat) e.dom with ops := (s.useOf (seqWing k.toNat) e.dom).ops - 1 }) ∧
          s.wq.woken t.wq ∧ s.wk.woken t.wk ∧
          t = { s with seqs := t.seqs, use := t.use, wq := t.wq, wk := t.wk, trace := t.trace }) ∧
      -- a ply with one action: it is issued and its unit answers (Table 7.5)
      (∀ a, s.holds.forced = false → plyActions p = [a] → (∀ h ∈ s.held, ∀ c, h.req ≠ .seq k.toNat c) →
        let e := s.seqEnt k.toNat
        let x := plyAct p a
        let m := actArg x
        let obj := if actKind x = 1 then e.watch (m % 4) else e.obj (m % 4096)
        let issued (t : State) (n : Nat) (st : Status) : Prop :=
          t.seq k.toNat = { q1 with state := .acting, met := false, waitingActs := 1, answers := [(a, n, st)], bad := none } ∧
          ∀ j, j ≠ k.toNat → t.seq j = s.seq j
        (s.atHand obj → s.fileContained obj = false → s.mayUse e.dom obj = true → s.active (wingOf obj) = true →
          s.mustWait (some (seqWing k.toNat)) (wingOf obj) = false → s.waiters obj = [] →
          ∀ ob body', s.obj obj = some ob →
            ((∃ b n, actKind x = 2 ∧ ob.body = .flag b n ∧ body' = .flag true (n + 1)) ∨
              (∃ b n, actKind x = 3 ∧ ob.body = .flag b n ∧ body' = .flag false n) ∨
              (∃ n, actKind x = 4 ∧ ob.body = .sem n ∧ n + (m / 4096 + 1) < 2 ^ 31 ∧ body' = .sem (n + (m / 4096 + 1))) ∨
              (∃ n, actKind x = 5 ∧ ob.body = .token n ∧ n.binding = false ∧ n.gcount = 0 ∧ n.givers = [] ∧
                n.credits + (m / 4096 + 1) ≤ n.capacity ∧ body' = .token { n with credits := n.credits + (m / 4096 + 1) }) ∨
              (∃ b j y j' y', actKind x = 1 ∧ m / 8 % 2 = 0 ∧ ob.body = .barrier b ∧ b.binding = false ∧
                agentIdx b.members e.actPos = some j ∧ b.members[j]? = some y ∧ y.res = false ∧ y.arr = false ∧ j' ≠ j ∧
                b.members[j']? = some y' ∧ y'.live = true ∧ y'.arr = false ∧
                b.gen.truncate 16 = (((q1.watches.getD (m % 4) none).getD 0).truncate 16 + BitVec.ofNat 16 (m / 4 % 2) : BitVec 16) ∧
                body' = .barrier { b with
                  members := updAt b.members j (fun y => { y with arr := true }), arrived := b.arrived + 1
                  deadline := if b.arrived = 0 ∧ b.fallAfter ≠ 0 ∧ b.deadline = 0 then s.now + b.fallAfter else b.deadline })) →
            ∃ t, exec i s = .next t ∧ issued t obj .ok ∧ s.puts t obj (some { ob with body := body' }) ∧
              (∀ n, t.waiters n = s.waiters n) ∧
              t = { s with seqs := t.seqs, recs := t.recs, trace := t.trace, free := t.free, waitq := t.waitq }) ∧
        (actKind x = 6 → s.contained (bWAKE (posWing m)) = false → s.active (posWing m) = true →
          s.mustWait (some (seqWing k.toNat)) (posWing m) = false →
          ∃ t, exec i s = .next t ∧ issued t 0 .ok ∧
            (t.wing (posWing m)).beats =
              (s.wing (posWing m)).beats ++ [(portOf m, encodeBeat .set 7 (BitVec.twoPow 48 (m % 48)))] ∧
            s.wq.woken t.wq ∧ s.wk.woken t.wk ∧ t = { s with seqs := t.seqs, wq := t.wq, wk := t.wk, trace := t.trace }) ∧
        (actKind x = 7 → ∃ t, exec i s = .next t ∧ issued t 0 .refusedState ∧ t = { s with seqs := t.seqs, trace := t.trace }) ∧
        (∀ chip : BitVec 16, actKind x = 8 → chip = BitVec.ofNat 16 (plyAct p 2) → chip ≠ s.me → sameBoard chip s.me = true →
          s.active (shpWing (seatOf chip)) = true → s.mustWait (some (seqWing k.toNat)) (shpWing (seatOf chip)) = false →
          (s.port (seatOf chip)).still → 0 < (s.port (seatOf chip)).credits.getD 3 0 →
          s.contained (bCMB (shpWing (seatOf chip))) = false →
          ∃ t, exec i s = .next t ∧ issued t obj .ok ∧
            s.linkSends t (seatOf chip) (s.number3 (remoteFrame s.me chip e.dom (m / 4096 % 4) obj)).1 ∧
            (t.chip chip).sent3 = (s.chip chip).sent3 + 1 ∧ (∀ c, c ≠ chip → t.chip c = s.chip c) ∧
            t = { s with seqs := t.seqs, ports := t.ports, chips := t.chips, out := t.out, trace := t.trace })))

/-- R207, R210, R217: an answer of an action is taken, and after a refused one the actions not yet issued are dropped; while other
answers are outstanding the sequencer waits for them, and with the last one it halts with the slot, the object and the status of the
first action refused (that every action issued is awaited, and the first refusal recorded, is log 47).
R219, R220, R378: a ply page whose read ends in an error is read once more, and so is one that fails its check; one whose check holds enters a free frame of
the cache, and the read that has waited longest goes to the mesh. -/
def Obligations.SequencerAnswers : Prop :=
  (∀ (s : State) (k : BitVec 5) (p : BitVec 128) (a obj : Nat) (st : Status) (l : List (Nat × Nat × Status)),
     let q := s.seq k.toNat
     let ok := acceptedAnswer st
     let left := if ok then s.seam else s.seam.filter (fun u => !u.unissued k.toNat)
     let kept := if ok then s.held else s.held.filter (fun h => !h.unissued k.toNat)
     let acts := q.waitingActs - 1 - ((s.seam.length - left.length) + (s.held.length - kept.length))
     let first := if ok then q.bad else q.bad.or (some (a, obj, st))
     s.between → q.cur = some p → q.answers = (a, obj, st) :: l →
     (acts ≠ 0 →
       exec (.seqActionAnswer k) s = .next (({ s with seam := left, held := kept } : State).modSeq k.toNat (fun q => { q with
         answers := l, waitingActs := acts, bad := first }))) ∧
     (∀ a1 obj1 st1, acts = 0 → first = some (a1, obj1, st1) → q.running = true → (∀ h ∈ s.holds.recs, h.who ≠ .seq k.toNat) →
       s.mild (bSEQ (seqWing k.toNat)) 1 →
       ∃ t, exec (.seqActionAnswer k) s = .next t ∧
         t.seq k.toNat = { q with
           state := .halted, reason := .actionRefused, haltObj := obj1, haltSlot := a1, haltSt := st1.code.toNat, pageWait := false
           met := false, checking := false, waitingActs := 0, answers := [], bad := none, ahead := [] } ∧
         (∀ j, j ≠ k.toNat → t.seq j = s.seq j) ∧
         t = { s with seqs := t.seqs, use := t.use, wq := t.wq, wk := t.wk, trace := t.trace, blks := t.blks, seam := left
                      held := kept })) ∧
  (∀ (s : State) (v : Wing) (page : Nat) (plies : List (BitVec 128)) (r : PageRead),
     s.between → page < 15360 → ((s.wing v).pageReads.take 8).find? (fun y => y.page == page) = some r →
     (∀ err, (err = true ∨ s.img.pageCheck[page]? ≠ some (crc32c (plies.foldl (fun l p => l ++ leBytes 16 p.toNat) []))) →
       let mesh := err && !r.repeated
       mesh = true ∨ r.second = false →
       exec (.plyPageArrival v page plies err) s = .next ((s.modWing v (fun x => { x with
         pageReads := x.pageReads.map (fun y => if y.page = page then { y with second := y.second || !mesh, repeated := mesh } else y) })).emit
           (.plyRead (s.img.plyBacking + 1024 * page)))) ∧
     (plies.length = 64 → s.img.pageCheck[page]? = some (crc32c (plies.foldl (fun l p => l ++ leBytes 16 p.toNat) [])) →
       s.freeFrames ≠ [] → (∀ k, (s.seq k).waitsPage page = false) → (∀ k, seqWing k = v → (s.seq k).ahead = []) →
       ∃ t, exec (.plyPageArrival v page plies false) s = .next t ∧ tget [] t.pages page = plies ∧
         tget 0 t.pageFrame page ∈ s.freeFrames ∧
         (∀ n, n ≠ page → tget [] t.pages n = tget [] s.pages n ∧ tget 0 t.pageFrame n = tget 0 s.pageFrame n) ∧
         (s.upsets = [] → t.upsets = []) ∧
         t = { s.modWing v (fun x => { x with pageReads := x.pageReads.filter (fun y => y.page != page) }) with
               pages := t.pages, pageFrame := t.pageFrame, free := s.free + 1, upsets := t.upsets
               out := match (s.wing v).pageReads[8]? with
                 | some r => .plyRead (s.plyAddr r.page) :: s.out
                 | none => s.out }))

/-- R271, R272: a forced hold begins when a domain-0 request has waited for the hold wait limit or is urgent; when no sequencer delays
them, every pending domain-0 request is granted; a granted hold whose duration has passed ends and is counted. -/
def Obligations.HoldsForced : Prop :=
  ∀ (s : State), s.between → s.noneHolding →
    (s.holds.forced = false → (∃ h ∈ s.holds.recs, h.forces s.img.power.waitLimit s.now = true) → s.mild bTCU 1 →
      ∃ t, exec .forcedHoldBegin s = .next t ∧
        t.holds = { s.holds with forced := true, forcedAt := s.now, grantsDone := false, forcedCnt := sat 0xFF s.holds.forcedCnt } ∧
        t = { s with holds := t.holds, blks := t.blks, trace := t.trace }) ∧
    (s.holds.forced = true → s.holds.grantsDone = false → (∀ k, k < 32 → s.delaysGrants k = false) →
      (∃ h ∈ s.holds.recs, h.dom = 0 ∧ h.granted = none) →
      ∃ t, exec .forcedHoldGrant s = .next t ∧
        t.holds = { s.holds with
          grantsDone := true
          recs := s.holds.recs.map (fun h =>
            if h.dom == 0 && h.granted.isNone then { h with granted := some (s.now + 1000 * h.us), forced := true } else h) } ∧
        (∀ h p r, h ∈ s.holds.recs → h.dom = 0 → h.granted = none → h.who = .pos p → s.slot p h.slot = some r → r.ready = none →
          (∀ g ∈ s.holds.recs, g.who = .pos p → g = h) → h.slot < 8 → (∀ g ∈ s.holds.recs, g.slot < 8) →
          t.slot p h.slot = some { r with ready := some (.granted, BitVec.ofNat 51 h.us) }) ∧
        t = { s with holds := t.holds, slots := t.slots, use := t.use, wq := t.wq, wk := t.wk, pwrc := t.pwrc, trace := t.trace }) ∧
    (∀ who h g, s.holdOf who = some h → h.granted = some g → g ≤ s.now → s.holds.forced = false → s.mild bTCU 2 →
      ∃ t, exec (.holdDurationEnd who) s = .next t ∧
        t.holds = { s.holds with recs := s.holds.recs.filter (fun y => y.who != who), overrunCnt := sat 0xFF s.holds.overrunCnt } ∧
        t = { s with holds := t.holds, blks := t.blks, trace := t.trace })

/-! ### Groups, levels and time -/

/-- R228, R240: after ALM_READY a chip joins a group, seats its arbiter and sends HELLO to every participant; a HELLO answers, is answered
once for each BOOT_SEQ (log 39, DEDUCED), and a named arbiter that does not answer within 200 µs is passed over. ALIVE frames carry the sender's links and go out on a
carrier that has sent nothing for 10 µs. -/
def Obligations.GroupsJoin : Prop :=
  ∀ (s : State), s.between →
    (∀ e, s.active .q = true → s.active .k = true → s.img.groups = [e] → e.top = 1 → e.has s.me = true → s.img.peers = [] →
      s.group 0 = GroupSt.absent → (∀ c, (s.chip c).silent = false) →
      let all := (boardChips s.board).filter e.has
      let others := all.filter (fun c => c != s.me)
      others ≠ [] → (∀ c ∈ others, (s.port (seatOf c)).state = .training ∧ (s.port (seatOf c)).via = none) →
      ∃ t, exec .groupJoin s = .next t ∧ (t.group 0).state = .joining ∧ (t.group 0).joinAt = s.now ∧
        (t.group 0).arbs = [(e.arbL1.bind (fun k => all.find? (fun c => seatOf c == k))).orElse (fun _ => all.head?), none, none] ∧
        (∀ g, g ≠ 0 → t.group g = s.group g) ∧
        (∀ c ∈ others, (t.chip c).heard = true ∧
          t.port (seatOf c) = { s.port (seatOf c) with
            waitQ := (s.port (seatOf c)).waitQ ++ [s.hello 0 c], sched := (s.port (seatOf c)).sched.keep (s.port (seatOf c)).waitQ }) ∧
        (∀ j, (∀ c ∈ others, seatOf c ≠ j) → t.port j = s.port j) ∧
        t = { s with groups := t.groups, chips := t.chips, ports := t.ports }) ∧
    (∀ (k : BitVec 4) e f, s.receives k.toNat e f → (s.group f.group.toNat).state = .up →
      let g := f.group.toNat
      let x := s.group g
      let key := (f.src, BitVec.ofNat 32 (f.num 8 4))
      (x.answered.contains key = true →
        ∃ t, exec (.hello k e f) s = .next t ∧ s.linked t k.toNat e 0 false ∧ (∀ c, t.chip c = s.heardBy k.toNat f c) ∧
          t = { s with ports := t.ports, chips := t.chips, out := t.out }) ∧
      (x.answered.contains key = false → x.resigned.contains f.src = false → f.src = s.boardChip k.toNat → s.mayReply k.toNat e 0 →
        ∃ t, exec (.hello k e f) s = .next t ∧ s.linkReplied t k.toNat 0 (s.hello g f.src) ∧
          t.group g = { x with answered := x.answered.filter (fun y => y.1 != f.src) ++ [key]
                               passed := x.passed.filter (fun c => c != f.src) } ∧
          (∀ j, j ≠ g → t.group j = s.group j) ∧ (∀ c, t.chip c = s.heardBy k.toNat f c) ∧
          t = { s with groups := t.groups, ports := t.ports, chips := t.chips, out := t.out, trace := t.trace })) ∧
    (∀ e c d, s.img.groups = [e] → e.top = 1 → e.has s.me = true → (s.group 0).state = .joining →
      (s.group 0).joinAt + 200000 ≤ s.now → e.arbL1 = some (seatOf c) → s.arb 0 1 = some c → c ≠ s.me → sameBoard c s.me = true →
      (∀ y ∈ (s.group 0).answered, y.1 ≠ c) → d ∈ s.boardMem 0 s.board → d ≠ s.me → d ≠ c → d ∉ (s.group 0).passed →
      (∀ y ∈ (s.group 0).answered, y.1 ≠ d) → c ∉ (s.group 0).resigned →
      ∃ t, exec (.helloTimeout c) s = .next t ∧ (t.group 0).state = .joining ∧
        (t.group 0).passed = (s.group 0).passed ++ [c] ∧
        (t.group 0).arbs = [((s.boardLive 0 s.board).filter (fun y => y != c)).head?, none, none] ∧
        (∀ g, g ≠ 0 → t.group g = s.group g) ∧ t = { s with groups := t.groups }) ∧
    (∀ (k : BitVec 4) e f, s.receives k.toNat e f → (∀ j, (s.port j).state ≠ .down) →
      ∃ t, exec (.alive k e f) s = .next t ∧ s.linked t k.toNat e 0 true ∧
        (∀ c, t.chip c = if c = f.src then { s.heardBy k.toNat f c with links := BitVec.ofNat 16 (f.num 0 2) }
                         else s.heardBy k.toNat f c) ∧
        t = { s with ports := t.ports, chips := t.chips, out := t.out }) ∧
    (∀ k : BitVec 4, s.portOn k.toNat = true → (s.port k.toNat).lastTx + 10000 ≤ s.now →
      ((s.port k.toNat).state = .quiet →
        ∃ t, exec (.aliveDue (.port k)) s = .next t ∧ t.port k.toNat = { s.port k.toNat with lastTx := s.now } ∧
          (∀ j, j ≠ k.toNat → t.port j = s.port j) ∧
          t.out = .quiet k.toNat (encodeQuiet (BitVec.ofNat 4 (seatOf s.me)) 5) :: s.out ∧ t = { s with ports := t.ports, out := t.out }) ∧
      (s.active (shpWing k.toNat) = true → (s.port k.toNat).still → 0 < (s.port k.toNat).credits.getD 0 0 →
        s.contained (bCMB (shpWing k.toNat)) = false →
        ∃ t, exec (.aliveDue (.port k)) s = .next t ∧ s.linkSends t k.toNat (s.aliveFrame (s.boardChip k.toNat)) ∧
          t = { s with ports := t.ports, out := t.out, trace := t.trace })) ∧
    (∀ i, s.tunStill i → (s.ctx i).lastTx + 10000 ≤ s.now →
      ∃ t, exec (.aliveDue (.ctx i)) s = .next t ∧ s.sendsData t i (s.aliveFrame (s.ctx i).peer) ∧
        t = { s with tun := t.tun, out := t.out, trace := t.trace })

/-- R240, R250 to R252: a chip from which nothing has come for 30 µs is silent, and is reported with cause 2 to the arbiter of a group;
a report merges with the entry of its triple, takes a free entry or is counted as overflow (its witness count, and when SUSPECT is raised:
log 51); a triple is forgotten after its chip has been live for 1 ms, counted from the later of the report and the return (log 77). -/
def Obligations.SuspectsReported : Prop :=
  ∀ (s : State), s.between →
    (∀ c, s.quietTooLong c = true → s.joined = [] → (∀ x ∈ s.glocks, x.2 = Glock.free) →
      ∃ t, exec (.chipSilent c) s = .next t ∧ t.chip c = { s.chip c with silent := true } ∧ (∀ d, d ≠ c → t.chip d = s.chip d) ∧
        t = { s with chips := t.chips }) ∧
    (∀ c g, s.quietTooLong c = true → s.joined = [g] → s.mem g c = true → c ≠ s.me → (s.grp g).top = 1 → (s.group g).state = .up →
      (s.group g).arbs = [some s.me, none, none] → (s.group g).awaits = [] → (s.group g).owes = [] → (s.group g).flying = [] →
      (s.group g).leaving = [] → (s.group g).told = [] → (s.group g).unready = [] → (s.group g).resigned.contains s.me = false →
      s.levelsRest →
      (∀ x ∈ s.glocks, x.2 = Glock.free) →
      (∀ x ∈ s.susp.reported, x.1 ≠ (c, 1, BitVec.ofNat 8 g)) → s.susp.table = [] → s.susp.raisedAt = [] → s.mild bTCU 0 →
      ∃ t i, exec (.chipSilent c) s = .next t ∧ t.chip c = { s.chip c with silent := true } ∧ (∀ d, d ≠ c → t.chip d = s.chip d) ∧
        ((c, 1, BitVec.ofNat 8 g), s.now) ∈ t.susp.reported ∧ i < 64 ∧
        t.susp.table = [(i, some { chip := c, level := 1, group := BitVec.ofNat 8 g, cause := 2, witness := 1, madeAt := s.now,
                                   raisedWith := 1 })] ∧
        s.setsBit t bTCU 0 ∧ (∀ h, t.group h = s.group h) ∧
        t = { s with chips := t.chips, susp := t.susp, free := t.free, blks := t.blks, trace := t.trace, groups := t.groups }) ∧
    (∀ (k : BitVec 4) e f, s.receives k.toNat e f →
      let c := BitVec.ofNat 16 (f.num 0 2)
      (s.susp.raisedAt.find? (fun x => x.1 == c.toNat)).any (fun x => decide (s.now < x.2 + 10000)) = true →
      twf none s.susp.table = true →
      (∀ i y, tget none s.susp.table i = some y → y.is c f.level f.group = true →
        (∀ j z, tget none s.susp.table j = some z → z.is c f.level f.group = true → j = i) →
        ∃ t, exec (.suspect k e f) s = .next t ∧ s.linked t k.toNat e 0 false ∧ (∀ d, t.chip d = s.heardBy k.toNat f d) ∧
          tget none t.susp.table i = some { y with witness := sat 0xFFFF y.witness } ∧
          (∀ j, j ≠ i → tget none t.susp.table j = tget none s.susp.table j) ∧
          t = { s with ports := t.ports, chips := t.chips, out := t.out, susp := { s.susp with table := t.susp.table } }) ∧
      ((∀ j z, tget none s.susp.table j = some z → z.is c f.level f.group = false) →
        (∀ j, j < 64 → tget none s.susp.table j = none →
          ∃ t i, exec (.suspect k e f) s = .next t ∧ s.linked t k.toNat e 0 false ∧ (∀ d, t.chip d = s.heardBy k.toNat f d) ∧
            i < 64 ∧ tget none s.susp.table i = none ∧
            tget none t.susp.table i = some { chip := c, level := f.level, group := f.group, cause := f.num 2 1, witness := 1
                                              madeAt := s.now, raisedWith := 0 } ∧
            (∀ j, j ≠ i → tget none t.susp.table j = tget none s.susp.table j) ∧
            t = { s with ports := t.ports, chips := t.chips, out := t.out, free := t.free
                         susp := { s.susp with table := t.susp.table } }) ∧
        ((∀ j, j < 64 → (tget none s.susp.table j).isSome = true) →
          ∃ t, exec (.suspect k e f) s = .next t ∧ s.linked t k.toNat e 0 false ∧ (∀ d, t.chip d = s.heardBy k.toNat f d) ∧
            t = { s with ports := t.ports, chips := t.chips, out := t.out
                         susp := { s.susp with overflow := sat 0xFFFF s.susp.overflow } }))) ∧
    (∀ c level g, (s.chip c).silent = false → (s.chip c).liveFrom + 1000000 ≤ s.now →
      exec (.suspectForget c level g) s = .next { s with susp := { s.susp with
        reported := s.susp.reported.filter (fun y => !(y.1 == (c, level, g) && decide (y.2 + 1000000 ≤ s.now))) } })

/-- R233, R235 to R239, R300: a level message joins its generation's context as the part that its FTYPE and LEVEL name, once for each
sender; a RELEASE gives the result, a FALL marks the level fallen and ends the waits of an aborting CHILD, and a level deadline is met
once or sets DEADLINE. A release of PGEN at a chip that has contributed releases CHILD with the result and advances PGEN. -/
def Obligations.LevelsGather : Prop :=
  (∀ (s : State) (k : BitVec 4) (e : Eof) (f : Frame), s.receives k.toNat e f →
    (∀ (c : BitVec 16) (i : Instr) (ty : BitVec 8) (vl : Nat) (l : Lvl) (x y : LvlCtx), s.levelTaken ty f l x →
      x.waiting s.me → s.mem l.g s.me = true →
      ((ty = 0x10 ∧ i = .arrival k e f ∧ vl = 1 ∧ f.level = 1 ∧ s.leavingChip l.g f.src = false ∧ f.src ≠ s.me ∧
          y = x.add .l1 f.src (framePayload f)) ∨
        (ty = 0x10 ∧ i = .arrival k e f ∧ vl = 1 ∧ f.level = 2 ∧ y = x.add .treeA f.src (framePayload f)) ∨
        (ty = 0x10 ∧ i = .arrival k e f ∧ vl = 1 ∧ f.level = 3 ∧ sameCluster f.src s.me = false ∧
          y = x.add .l3 f.src (framePayload f)) ∨
        (ty = 0x11 ∧ i = .half1 k e f ∧ vl = 1 ∧ y = (if l.top = 3 ∧ s.isArb l.g 2 = true ∧ (s.place2 l.g).rootB = some f.src then
          { x with half1 := some (framePayload f) } else x.add .treeB f.src (framePayload f))) ∨
        (ty = 0x12 ∧ i = .rsWord k e f ∧ vl = 1 ∧ f.src ≠ s.me ∧ y = x.add .rs f.src (framePayload f)) ∨
        (ty = 0x19 ∧ i = .agWord k e f ∧ vl = 2 ∧ y = x.add .ag f.src (framePayload f)) ∨
        (ty = 0x1A ∧ i = .half1Down k e f ∧ vl = 2 ∧ s.isNode l.g = false ∧ y = { x with half1 := some (framePayload f) }) ∨
        (ty = 0x18 ∧ i = .release k e f ∧ vl = 2 ∧ f.level = 1 ∧ s.isNode l.g = false ∧
          y = { x with rel := some (framePayload f), whole := true })) →
      ∃ t, exec i s = .next t ∧ s.linked t k.toNat e vl false ∧ t.lctx l.key = some y ∧ (∀ j, j ≠ l.key → t.lctx j = s.lctx j) ∧
        t.chip c = s.heardBy k.toNat f c ∧
        t = { s with ports := t.ports, chips := t.chips, out := t.out, lctxs := t.lctxs, trace := t.trace }) ∧
    (∀ l x o b, s.levelTaken 0x08 f l x → s.isNode l.g = false → x.fell.contains f.level.toNat = false → s.obj l.child = some o →
      o.body = .barrier b → distinctSlots (s.waiters l.child) →
      let hit := if b.parentWait && b.abortOnFall && l.gen == l.pgen then (s.waiters l.child).filter (fun y => y.kind == .gen b.gen)
                 else []
      ∃ t, exec (.fall k e f) s = .next t ∧ s.linked t k.toNat e 0 false ∧
        t.lctx l.key = some { x with fell := x.fell ++ [f.level.toNat] } ∧ (∀ j, j ≠ l.key → t.lctx j = s.lctx j) ∧
        s.wakes t l.child (if b.parentWait && b.abortOnFall && l.gen == l.pgen then
            (s.waiters l.child).filter (fun y => !(y.kind == .gen b.gen)) else s.waiters l.child)
          (hit.map (fun y => (y.pos, y.slot, Status.flagFall, BitVec.ofNat 51 (b.gen.toNat % 65536)))) ∧
        s.wq.woken t.wq ∧ s.wk.woken t.wk ∧
        t = { s with ports := t.ports, chips := t.chips, out := t.out, lctxs := t.lctxs, trace := t.trace, slots := t.slots
                     use := t.use, wq := t.wq, wk := t.wk, waitq := t.waitq }) ∧
    (∀ l x r own o b, s.levelTaken 0x18 f l x → s.relay f.obj.toNat = some r → l.gen = l.pgen → f.level = 1 → s.isNode l.g = false →
      l.allToAll = true → x.own = some own → x.l1.isSome = true → x.rel = none → x.whole = false →
      s.listedIn f.obj.toNat = none → l.child ≠ f.obj.toNat → s.obj l.child = some o →
      o.body = .barrier b → b.parentWait = true → b.combining = false → b.holding = false → b.advQ = [] → b.binding = false →
      b.pwords ≠ 0 → (∀ y ∈ b.members, y.relay = false ∧ y.adv = false) → distinctSlots (s.waiters l.child) →
      (∀ j, j ≠ l.key → s.lctx j = none) → twf none s.lctxs = true → (∀ y ∈ s.barriers, y.1 ≠ l.child → y.2.parentWait = false) →
      s.wq.parked = [] → s.wk.parked = [] → (s.group l.g).state ≠ .failover → (s.group l.g).flying = [] → (s.group l.g).told = [] →
      (s.group l.g).unready = [] →
      let w := wingOf l.child
      let val := BitVec.ofNat 51 (b.gen.toNat % 65536 + 2 ^ 16 * (accWord (framePayload f) 0).toNat + if b.note then 2 ^ 48 else 0)
      ∃ t, exec (.release k e f) s = .next t ∧ s.linked t k.toNat e 2 false ∧ t.lctxs = [] ∧
        t.relay f.obj.toNat = some { r with pgen := r.pgen + 1, inFlight := false } ∧
        t.obj l.child = some { o with body := .barrier { b with
          gen := b.gen + 1, arrived := 0, deadline := 0, fallen := false, parentWait := false, folded := 0, note := false
          relNote := b.note, members := b.members.map (fun e => { e with arr := false }) } } ∧
        (∀ n, n ≠ l.child → n ≠ f.obj.toNat → t.resident n = s.resident n) ∧
        t.acc w (b.accBase + 1) = framePayload f ∧ t.acc w b.accBase = 0 ∧
        s.wakes t l.child ((s.waiters l.child).filter (fun y => !(y.kind == .gen b.gen)))
          (((s.waiters l.child).filter (fun y => y.kind == .gen b.gen)).map (fun y => (y.pos, y.slot, Status.released, val))) ∧
        s.wq.woken t.wq ∧ s.wk.woken t.wk ∧ (∀ g, t.group g = s.group g) ∧
        t = { s with ports := t.ports, chips := t.chips, out := t.out, lctxs := t.lctxs, gather := t.gather, trace := t.trace
                     recs := t.recs, accs := t.accs, slots := t.slots, use := t.use, wq := t.wq, wk := t.wk, waitq := t.waitq
                     groups := t.groups })) ∧
  (∀ (s : State), s.between →
    (∀ (relay : BitVec 20) (gen : BitVec 32) (level : BitVec 2) x l d, s.lctx (lvlKey relay.toNat gen) = some x →
      d ∈ x.deadlines → d.1 = level.toNat → d.2 ≤ s.now → s.active (wingOf relay.toNat) = true →
      s.atHand relay.toNat → s.fileContained relay.toNat = false → s.lvl relay.toNat gen = some l →
      let miss := s.missingAt l x level.toNat
      (miss = [] ∨ x.rel.isSome = true →
        ∃ t, exec (.levelDeadline relay gen level) s = .next t ∧
          t.lctx l.key = some { x with deadlines := x.deadlines.filter (fun d => d.1 != level.toNat) } ∧
          (∀ j, j ≠ l.key → t.lctx j = s.lctx j) ∧ t = { s with lctxs := t.lctxs, trace := t.trace }) ∧
      (miss ≠ [] → x.rel = none → s.isArb l.g level.toNat = false →
        (∀ c ∈ miss, ∃ y ∈ s.susp.reported, y.1 = (c, level, BitVec.ofNat 8 l.g)) → s.mild (bCMB (wingOf relay.toNat)) 2 →
        ∃ t, exec (.levelDeadline relay gen level) s = .next t ∧
          t.lctx l.key = some { x with deadlines := x.deadlines.filter (fun d => d.1 != level.toNat) } ∧
          (∀ j, j ≠ l.key → t.lctx j = s.lctx j) ∧ s.setsBit t (bCMB (wingOf relay.toNat)) 2 ∧
          t = { s with lctxs := t.lctxs, blks := t.blks, trace := t.trace })))

/-- R240 to R242: a TAKEOVER with a newer term names the level's arbiter and standby, and is answered; one with an older term changes
nothing; the end of the answers that a takeover awaits ends FAILOVER. R245: a participant answers the arbiter's question about a chip, and
marks the chip resigned when it is told so. The TAKEOVER that a chip sends back ends its answers, and the LEVEL of a RESIGN frame tells
question and resignation apart (log 41). R176: the standby stores and acknowledges the arbiter's copy of a global lock; a copy that is
not acknowledged raises ARBITER or GLOCK_ECC (R333), and no exchange for 1 ms raises TIMEBASE. How frames name the standby's copy is log 33
(DESIGN CHOICE). -/
def Obligations.RolesPass : Prop :=
  ∀ (s : State), s.between →
    (∀ (k : BitVec 4) e f, s.receives k.toNat e f → s.contained (bCMB (shpWing k.toNat)) = false → s.levelsRest →
      let g := f.group.toNat
      let x := s.group g
      let a := BitVec.ofNat 16 (f.num 0 2)
      let c := BitVec.ofNat 16 (f.num 0 2)
      (newer f.term (x.terms.getD 0 0) = false → f.term ≠ x.terms.getD 0 0 → f.level = 1 → sameBoard a s.me = true →
        ∃ t, exec (.takeover k e f) s = .next t ∧ s.linked t k.toNat e 0 false ∧ (∀ d, t.chip d = s.heardBy k.toNat f d) ∧
          t = { s with ports := t.ports, chips := t.chips, out := t.out }) ∧
      (newer f.term (x.terms.getD 0 0) = true → f.level = 1 → a = s.boardChip k.toNat → g ∈ s.joined → 1 ≤ (s.grp g).top →
        x.state = .up → x.everUp = true → x.awaits = [] → x.owes = [] → x.flying = [] → s.relaysOf g = [] → s.mayReply k.toNat e 0 →
        let y := { x with
          terms := setLevel x.terms 1 f.term, arbs := setLevel x.arbs 1 (some a)
          sbys := setLevel x.sbys 1 (if f.num 4 1 % 2 = 1 then some (BitVec.ofNat 16 (f.num 2 2)) else none), told := [], unready := [] }
        ∃ t, exec (.takeover k e f) s = .next t ∧ t.group g = y ∧ (∀ h, h ≠ g → t.group h = s.group h) ∧
          s.linkReplied t k.toNat 0 (t.takeoverFrame g 1 a (t.sby g 1) a) ∧
          (∀ d, t.chip d = s.heardBy k.toNat f d) ∧
          t = { s with groups := t.groups, ports := t.ports, chips := t.chips, out := t.out, trace := t.trace }) ∧
      (∀ r, f.level ≠ 0 → s.termNow g f → s.relayAt f.obj.toNat = some r → f.num 0 1 = 1 → (f.gen - r.pgen).toNat ≤ 1 →
        ∃ t, exec (.answer k e f) s = .next t ∧ s.linked t k.toNat e 0 false ∧
          t.group g = { x with told := (x.told ++ [(f.obj.toNat, f.gen)]).eraseDups } ∧ (∀ h, h ≠ g → t.group h = s.group h) ∧
          (∀ d, t.chip d = s.heardBy k.toNat f d) ∧ t = { s with groups := t.groups, ports := t.ports, chips := t.chips, out := t.out }) ∧
      (f.level ≠ 0 → f.level.toNat ≤ (s.grp g).top → g ∈ s.joined → a = s.me → f.term = x.terms.getD (f.level.toNat - 1) 0 →
        x.arbs.getD (f.level.toNat - 1) none = some s.me → (f.level.toNat, f.src) ∈ x.awaits →
        x.owes = [] → x.flying = [] → x.state = .failover → x.everUp = true → (∀ y ∈ x.awaits, s.live g y.2 = true) →
        let left := x.awaits.filter (fun y => y != (f.level.toNat, f.src))
        ∃ t, exec (.takeover k e f) s = .next t ∧ s.linked t k.toNat e 0 false ∧
          t.group g = { x with
            awaits := left, state := if left = [] then .up else .failover, told := if left = [] then [] else x.told
            unready := if left = [] then [] else x.unready } ∧
          (∀ h, h ≠ g → t.group h = s.group h) ∧ (∀ d, t.chip d = s.heardBy k.toNat f d) ∧
          t = { s with groups := t.groups, ports := t.ports, chips := t.chips, out := t.out }) ∧
      (f.level = 1 → g ∈ s.joined → x.arbs.getD 0 none = some f.src → (∀ z ∈ x.leaving, z.1 = c → f.src ∉ z.2.1) →
        f.src = s.boardChip k.toNat → s.mayReply k.toNat e 0 →
        ∃ t, exec (.resignFrame k e f) s = .next t ∧ t.group g = { x with asked := (x.asked ++ [c]).eraseDups } ∧
          (∀ h, h ≠ g → t.group h = s.group h) ∧ s.linkReplied t k.toNat 0 (s.resignFrame g 1 c f.src) ∧
          (∀ d, t.chip d = s.heardBy k.toNat f d) ∧
          t = { s with groups := t.groups, ports := t.ports, chips := t.chips, out := t.out, trace := t.trace }) ∧
      (f.level = 0 → x.leaving = [] ∧ x.arbs.getD 0 none = some f.src ∨ (∃ z, x.leaving = [z] ∧ f.src ∈ z.2.1) →
        ∃ t, exec (.answer k e f) s = .next t ∧ s.linked t k.toNat e 0 false ∧
          t.group g = (match x.leaving with
            | z :: _ => { x with leaving := [(z.1, z.2.1, z.2.2 ++ [(f.obj.toNat, f.gen)])] }
            | [] => { x with coming := (x.coming ++ [(f.obj.toNat, f.gen)]).eraseDups }) ∧
          (∀ h, h ≠ g → t.group h = s.group h) ∧ (∀ d, t.chip d = s.heardBy k.toNat f d) ∧
          t = { s with groups := t.groups, ports := t.ports, chips := t.chips, out := t.out }) ∧
      (∀ b, f.level = 2 → g ∈ s.joined → c ≠ s.me → x.resigned.contains c = false → s.relaysOf g = [] →
        x.arbs = [some b, none, none] → b ≠ s.me → b ≠ c → s.live g b = true → (s.grp g).top = 1 → x.state = .up → x.awaits = [] →
        x.owes = [] → x.flying = [] →
        let near := sameBoard c s.me && sameBoard f.src s.me
        ∃ t, exec (.resignFrame k e f) s = .next t ∧ s.linked t k.toNat e 0 false ∧
          t.group g = { x with resigned := x.resigned ++ [c], asked := x.asked.filter (fun d => d != c)
                               leaving := x.leaving.filter (fun z => z.1 != c)
                               expects := if near then x.expects ++ x.coming.map (fun z => (c, z)) else x.expects
                               coming := if near then [] else x.coming, told := [], unready := [] } ∧
          (∀ h, h ≠ g → t.group h = s.group h) ∧ (∀ d, t.chip d = s.heardBy k.toNat f d) ∧
          t = { s with groups := t.groups, ports := t.ports, chips := t.chips, out := t.out
                       susp := { s.susp with
                         reported := s.susp.reported.filter (fun y => !(y.1.1 == c && y.1.2.2.toNat == g))
                         table := s.susp.table.filter (fun y => y.2.all (fun z => !(z.chip == c && z.group.toNat == g))) } })) ∧
    (∀ c : GlockCopy,
      (c.lock < 64 → s.sby 0 2 = some s.me →
        ∃ t, exec (.standbyCopy c) s = .next t ∧
          t.glock c.lock = { holder := c.holder, orphaned := c.orphaned, waiters := c.waiters, prio := c.prio
                             eff := hi c.prio (glockTop c.waiters) } ∧
          (∀ n, n ≠ c.lock → t.glock n = s.glock n) ∧ t.out = .standbyAck c.lock :: s.out ∧
          t = { s with glocks := t.glocks, out := t.out }) ∧
      (s.sby 0 2 ≠ some s.me → exec (.standbyCopy c) s = .next s)) ∧
    (∀ kind src, (kind = CopyKind.level ∧ s.hasRole = true ∧ src = 3 ∨ kind = CopyKind.glock ∧ s.servesGlocks = true ∧ src = 4) →
      s.active .k = true → s.mild (bCMB .k) src →
      ∃ t, exec (.standbyCopyTimeout kind) s = .next t ∧ s.setsBit t (bCMB .k) src ∧ t = { s with blks := t.blks, trace := t.trace }) ∧
    (s.timebaseOff = true → s.condTrue bTCU 5 = false → s.mild bTCU 5 →
      ∃ t, exec .exchangeTimeout s = .next t ∧ t.conds = (bTCU, 5) :: s.conds ∧ s.setsBit t bTCU 5 ∧
        t = { s with conds := t.conds, blks := t.blks, trace := t.trace }) ∧
    (s.timebaseOff = false →
      exec .exchangeTimeout s = .next { s with conds := s.conds.filter (fun x => x != (bTCU, 5)) })

/-- R247, R248, R284: a TIME request is answered at once with its own time, and an answer from the master gives the offset by which the
first exchange steps the timebase forward and later ones change its rate (half of an odd sum is taken downwards: log 89); a follower sends a request each period, and the master marks
its QUIET links at each multiple of 16 µs. R391: a probe of an open context is a TIME request that its answer ends. -/
def Obligations.TimesFollow : Prop :=
  ∀ (s : State), s.between →
    (∀ (k : BitVec 4) e f, s.receives k.toNat e f →
      let t1 := f.num 0 8
      let t2 := f.num 8 8
      let t3 := f.num 16 8
      (t2 = 0 → t3 = 0 → f.src = s.boardChip k.toNat → s.mayReply k.toNat e 0 → s.now % 2 ^ 64 ≠ 0 →
        ∃ t, exec (.time k e f) s = .next t ∧ s.linkReplied t k.toNat 0 (s.timeFrame f.src t1 s.now s.now) ∧
          (∀ d, t.chip d = s.heardBy k.toNat f d) ∧ s.reclassed t ∧
          t = { s with ports := t.ports, chips := t.chips, out := t.out, tun := t.tun, trace := t.trace }) ∧
      (¬ (t2 = 0 ∧ t3 = 0) → s.tsync.master = some f.src → s.tsync.t1 = some t1 → 0 ∈ s.joined → f.src ≠ s.me →
        (s.group 0).arbs.getD 0 none = some f.src → s.contained bTCU = false → twf 0 s.spent = true →
        let offset : Int := (((t2 : Int) - t1) + ((t3 : Int) - s.now)) / 2
        let step : Nat := if s.tsync.stepped = false ∧ 0 < offset then offset.natAbs else 0
        (if s.tsync.stepped = true then offset.natAbs ≤ 1000 else s.tsync.first = none) →
        ∃ t, exec (.time k e f) s = .next t ∧ s.linked t k.toNat e 0 false ∧ (∀ d, t.chip d = s.heardBy k.toNat f d) ∧
          t.now = s.now + step ∧
          t.tsync = { s.tsync with
            t1 := none, state := if offset.natAbs ≤ 20 then 2 else 1, offset := offset
            delay := ((s.now - t1) - (t3 - t2)) / 2, stepped := true, slew := if s.tsync.stepped then offset else 0
            first := some (s.tsync.first.getD t.now), doneAt := t.now } ∧
          -- the buckets gain for the µs ticks that the step crosses (R114)
          (∀ v d, d < 1024 → tget 0 t.spent (wd v d) =
            tget 0 s.spent (wd v d) - (t.now / 1000 - s.now / 1000) * byWing v (s.domain d).rateQ (s.domain d).rateK) ∧
          t = { s with ports := t.ports, chips := t.chips, out := t.out, now := t.now, tsync := t.tsync, spent := t.spent
                       conds := s.conds.filter (fun x => x != (bTCU, 5)) }) ∧
      (∀ i, ¬ (t2 = 0 ∧ t3 = 0) → s.tsync.master ≠ some f.src → s.ctxOf f.src = some i → (s.ctx i).probeT1 = some t1 →
        (∀ g ∈ s.joined, (s.group g).state ≠ .joining) →
        ∃ t, exec (.time k e f) s = .next t ∧ s.linked t k.toNat e 0 false ∧ (∀ d, t.chip d = s.heardBy k.toNat f d) ∧
          t.ctx i = { s.ctx i with probeT1 := none
                                   probes := ((((s.now - t1) - (t3 - t2)) / 2) :: (s.ctx i).probes).take 16 } ∧
          (∀ j, j ≠ i → t.ctx j = s.ctx j) ∧
          t = { s with ports := t.ports, chips := t.chips, out := t.out, tun := { s.tun with ctxs := t.tun.ctxs } })) ∧
    (∀ c period, s.timeMaster = some (c, period) → s.tsync.last + period ≤ s.now → s.tsync.master = some c →
      (s.markLink c = true ∨ sameBoard c s.me = true ∧ s.fastOk (seatOf c) = false →
        exec .timeExchangeDue s = .next { s with tsync := { s.tsync with last := s.now } }) ∧
      (sameBoard c s.me = false → (s.pwr .k).state = .adjourned →
        ∃ t, exec .timeExchangeDue s = .next t ∧ s.exits t .k 7 6 ∧
          t = { s with wq := t.wq, wk := t.wk, pwrc := { s.pwrc with announcing := false }, trace := t.trace }) ∧
      (s.active (shpWing (seatOf c)) = true → sameBoard c s.me = true → (s.port (seatOf c)).still →
        0 < (s.port (seatOf c)).credits.getD 0 0 → s.contained (bCMB (shpWing (seatOf c))) = false →
        ∃ t, exec .timeExchangeDue s = .next t ∧ t.tsync = { s.tsync with last := s.now, t1 := some s.now } ∧
          s.linkSends t (seatOf c) (s.timeFrame c s.now 0 0) ∧ s.reclassed t ∧
          t = { s with tsync := t.tsync, ports := t.ports, out := t.out, tun := t.tun, trace := t.trace })) ∧
    (∀ i g, s.tunStill i → (s.ctx i).probeAt + 1024000 ≤ s.now → g ∈ s.joined → s.isNode g = true →
      (s.farNeighbours g).contains (s.ctx i).peer = true →
      ∃ t, exec (.probeDue i) s = .next t ∧ (t.ctx i).probeT1 = some s.now ∧ (t.ctx i).probeAt = s.now ∧
        (t.ctx i).probes = (s.ctx i).probes ∧ s.sendsData t i (s.timeFrame (s.ctx i).peer s.now 0 0) ∧
        t = { s with tun := t.tun, out := t.out, trace := t.trace }) ∧
    (∀ k : BitVec 4, (s.port k.toNat).state = .quiet → (s.port k.toNat).loop = none →
      let c := s.boardChip k.toNat
      let nominal := (s.now + 8000) / 16000 * 16000
      let offset : Int := (nominal : Int) + s.tsync.delay - s.now
      s.tsync.master = some c → 0 ∈ s.joined → c ≠ s.me → (s.group 0).arbs.getD 0 none = some c → s.contained bTCU = false →
      s.tsync.stepped = true → offset.natAbs ≤ 1000 → s.copiesNothing c → twf 0 s.spent = true →
      ∃ t, exec (.quietTime k k) s = .next t ∧ t.chip c = (s.chip c).heardAt s.now ∧ (∀ d, d ≠ c → t.chip d = s.chip d) ∧
        t.tsync = { s.tsync with
          state := if offset.natAbs ≤ 20 then 2 else 1, offset := offset, slew := offset
          first := some (s.tsync.first.getD s.now), doneAt := s.now } ∧
        t = { s with chips := t.chips, tsync := t.tsync, conds := s.conds.filter (fun x => x != (bTCU, 5)) }) ∧
    (s.now % 16000 = 0 → s.isArb 0 1 = true → 0 ∈ s.joined →
      let hit := (List.range 16).filter (fun k => s.portOn k && (s.port k).state == .quiet && s.mem 0 (s.boardChip k))
      ∃ t, exec .quietTimeMarkDue s = .next t ∧
        (∀ k, t.port k = if k ∈ hit then { s.port k with lastTx := s.now } else s.port k) ∧
        t.out = hit.reverse.map (fun k => Out.quiet k (encodeQuiet (BitVec.ofNat 4 (seatOf s.me)) 4)) ++ s.out ∧
        t = { s with ports := t.ports, out := t.out })

/-- R205, R296: a REMOTE frame with a new number is executed as a command on its object and its number is recorded; one whose number was
executed is discarded, and one beyond the next number is refused. R299: a frame of a reserved FTYPE is discarded and counted. -/
def Obligations.RemotesAct : Prop :=
  ∀ (s : State) (k : BitVec 4) (e : Eof) (f : Frame), s.receives k.toNat e f →
    (∀ o n1 body, s.contained (bCMB .k) = false → f.src ≠ s.me →
      let f' : Frame := { f with ftype := 0x20 }
      let h := remoteHeld (shpWing k.toNat) f'
      let obj := f.obj.toNat
      s.judge3 f' = .execute → s.mustFollow h = false → s.active (wingOf obj) = true → s.mayUse f.dom.toNat obj = true →
      s.mustWait (some (shpWing k.toNat)) (wingOf obj) = false → s.fileContained obj = false → s.atHand obj → s.obj obj = some o →
      distinctSlots (s.waiters obj) →
      ((∃ b n, o.body = .flag b n ∧ f.num 0 1 % 4 = 0 ∧ body = .flag true (n + 1) ∧
          n1 = (if b then s.waiters obj else [],
                if b then [] else (s.waiters obj).map (fun y => (y.pos, y.slot, Status.ok, BitVec.ofNat 51 (n + 1).toNat)))) ∨
        (∃ b n, o.body = .flag b n ∧ f.num 0 1 % 4 = 1 ∧ body = .flag false n ∧ n1 = (s.waiters obj, [])) ∨
        (∃ n, o.body = .sem n ∧ f.num 0 1 % 4 = 2 ∧ n + 1 < 2 ^ 31 ∧ body = .sem (serve (s.waiters obj) (n + 1)).2.2 ∧
          n1 = ((serve (s.waiters obj) (n + 1)).2.1,
                (serve (s.waiters obj) (n + 1)).1.map (fun y => (y.1.pos, y.1.slot, Status.ok, BitVec.ofNat 51 y.2)))) ∨
        (∃ c, o.body = .token c ∧ f.num 0 1 % 4 = 3 ∧ c.gcount = 0 ∧ c.givers = [] ∧ c.credits + 1 ≤ c.capacity ∧
          body = .token { c with credits := (serve (s.waiters obj) (c.credits + 1)).2.2 } ∧
          n1 = ((serve (s.waiters obj) (c.credits + 1)).2.1,
                (serve (s.waiters obj) (c.credits + 1)).1.map (fun y => (y.1.pos, y.1.slot, Status.ok, BitVec.ofNat 51 y.2))))) →
      ∃ t, exec (.remote k e f) s = .next t ∧ s.linked t k.toNat e 3 false ∧ s.puts t obj (some { o with body := body }) ∧
        s.wakes t obj n1.1 n1.2 ∧
        (∀ d, t.chip d = if d = f.src then
            { s.heardBy k.toNat f d with exec3 := some (BitVec.ofNat 32 (f.num 0x28 4), f.seq3) } else s.heardBy k.toNat f d) ∧
        s.wq.woken t.wq ∧ s.wk.woken t.wk ∧
        t = { s with ports := t.ports, chips := t.chips, out := t.out, recs := t.recs, slots := t.slots, use := t.use
                     wq := t.wq, wk := t.wk, waitq := t.waitq, trace := t.trace }) ∧
    (s.contained (bCMB .k) = false → f.src ≠ s.me → s.judge3 { f with ftype := 0x20 } = .discard →
      ∃ t, exec (.remote k e f) s = .next t ∧ s.linked t k.toNat e 3 false ∧ (∀ d, t.chip d = s.heardBy k.toNat f d) ∧
        t = { s with ports := t.ports, chips := t.chips, out := t.out }) ∧
    (f.src ≠ s.me → s.contained (bCMB .k) = true ∨ s.judge3 { f with ftype := 0x20 } = .refuse →
      ∃ t, exec (.remote k e f) s = .next t ∧ t.port k.toNat = (s.port k.toNat).took e false s.now ∧
        t.out = .ctl k.toNat (.refuse e.lseq (s.port k.toNat).expect 3 1) :: s.out ∧
        (∀ j, j ≠ k.toNat → t.port j = s.port j) ∧ (∀ d, t.chip d = s.heardBy k.toNat f d) ∧
        t = { s with ports := t.ports, chips := t.chips, out := t.out }) ∧
    (ftypeKnown f.ftype.toNat = false → s.mild (bCMB (shpWing k.toNat)) 0 →
      let w := shpWing k.toNat
      ∃ t, exec (.reservedFtype k e f) s = .next t ∧ s.linked t k.toNat e f.vl false ∧ (∀ d, t.chip d = s.heardBy k.toNat f d) ∧
        t.wing w = { s.wing w with genErr := sat 0x3FF (s.wing w).genErr } ∧ t.wing w.other = s.wing w.other ∧
        s.setsBit t (bCMB w) 0 ∧
        t = { s with ports := t.ports, chips := t.chips, out := t.out, wq := t.wq, wk := t.wk, blks := t.blks, trace := t.trace }) ∧
    (ftypeKnown f.ftype.toNat = true → exec (.reservedFtype k e f) s = .next s)

/-- R173 to R176: the arbiter of group 0's L2 grants a free global lock, queues a request for a held one, answers BUSY to LOCK_TRY,
ignores a repeated request (R253), and passes a released or orphaned lock to its first waiter; each change goes to the standby before the
answer. R166, R167: the effective priority follows the holder and the waiters, and one that a request raises goes to the holder's chip,
naming the waiter (log 33). R175: a grant makes the
requester's lock object held and completes its slot. -/
def Obligations.GlobalLocksPass : Prop :=
  ∀ (s : State) (k : BitVec 4) (e : Eof) (f : Frame), s.receives k.toNat e f → s.contained (bCMB .k) = false →
    f.fwd = false → (s.chip (s.boardChip k.toNat)).silent = false → f.src = s.boardChip k.toNat →
    s.judge3 { f with ftype := 0x21 } = .execute →
    let n := f.obj.toNat % 64
    let i := BitVec.ofNat 26 (f.num 4 4)
    let prio := f.num 8 1 % 8
    let try_ := decide (128 ≤ f.num 8 1)
    let x := s.glock n
    let s1 : State := { s with out := (s.sby 0 2).toList.map (fun b => Out.standbyCopy b .glock n) ++ s.out }
    let seen := { (s.chip f.src).heardAt s.now with exec3 := some (BitVec.ofNat 32 (f.num 0x28 4), f.seq3) }
    -- the arbiter's answer to a requester at the chip that sent the frame
    let answers (t s' : State) (j : BitVec 26) (p : Nat) (st : Status) : Prop :=
      s'.linkReplied t k.toNat 3 (s.number3 (glockFrame s.me f.src 2 n j p false st.code.toNat)).1 ∧
        t.chip f.src = { seen with sent3 := (s.chip f.src).sent3 + 1 } ∧ (∀ c, c ≠ f.src → t.chip c = s.chip c)
    let quiet (t s' : State) : Prop := s'.linked t k.toNat e 3 false ∧ t.chip f.src = seen ∧ (∀ c, c ≠ f.src → t.chip c = s.chip c)
    let becomes (t : State) (y : Glock) : Prop :=
      t.glock n = y ∧ (∀ m, m ≠ n → t.glock m = s.glock m) ∧
        t = { s with ports := t.ports, chips := t.chips, out := t.out, glocks := t.glocks, trace := t.trace }
    (s.servesGlocks = true → (s.group 0).arbs.getD 1 none = some s.me → (x.holder = some i ∨ ∃ y ∈ x.waiters, y.1 = i) →
      ∃ t, exec (.glockRequest k e f) s = .next t ∧ becomes t x ∧ quiet t s) ∧
    ((s.grp 0).has s.me = true → 2 ≤ (s.grp 0).top → (s.group 0).arbs.getD 1 none = some s.me → s.mayReply k.toNat e 3 →
      (∀ y ∈ x.waiters, y.1 ≠ i) →
      (x.holder = none → (try_ = true ∨ s.glockFull n i = false) → chipOf i = f.src →
        ∃ t, exec (.glockRequest k e f) s = .next t ∧ becomes t { holder := some i, orphaned := false, waiters := [], prio := prio, eff := prio } ∧
          answers t s1 i prio (if x.orphaned then .grantedOrphan else .granted)) ∧
      (∀ h, x.holder = some h → h ≠ i → try_ = true → chipOf i = f.src →
        ∃ t, exec (.glockRequest k e f) s = .next t ∧ becomes t x ∧
          answers t s h 0 .busy) ∧
      (∀ h, x.holder = some h → h ≠ i → try_ = false → s.glockFull n i = false → prio ≤ x.eff →
        ∃ t, exec (.glockRequest k e f) s = .next t ∧ becomes t { x with waiters := glockEnqueue x.waiters (i, prio) } ∧ quiet t s1) ∧
      (∀ h, x.holder = some h → h ≠ i → try_ = false → s.glockFull n i = false → x.eff < prio → chipOf h = f.src →
        ∃ t, exec (.glockRequest k e f) s = .next t ∧ becomes t { x with waiters := glockEnqueue x.waiters (i, prio), eff := prio } ∧
          answers t s1 i prio .pending) ∧
      (∀ h, x.holder = some h → h ≠ i → try_ = false → s.glockFull n i = true → chipOf i = f.src →
        ∃ t, exec (.glockRequest k e f) s = .next t ∧ becomes t x ∧ answers t s i 0 .stalemate)) ∧
    (∀ row code orphan, (row = Instr.glockRelease k e f ∧ code = Status.granted ∧ orphan = false ∨
        row = Instr.glockOrphanReport k e f ∧ code = Status.grantedOrphan ∧ orphan = true) →
      s.servesGlocks = true → (s.grp 0).has s.me = true → (s.group 0).arbs.getD 1 none = some s.me → x.holder = some i →
      s.mayReply k.toNat e 3 →
      (x.waiters = [] →
        ∃ t, exec row s = .next t ∧ becomes t { holder := none, orphaned := orphan, waiters := [], prio := 0, eff := 0 } ∧ quiet t s1) ∧
      (∀ j p l, x.waiters = (j, p) :: l → chipOf j = f.src →
        ∃ t, exec row s = .next t ∧
          becomes t { holder := some j, orphaned := false, waiters := l, prio := p, eff := hi p (glockTop l) } ∧
          answers t s1 j (hi p (glockTop l)) code)) ∧
    (∀ p, s.servesGlocks = true → (s.group 0).arbs.getD 1 none = some s.me → (i, p) ∈ x.waiters →
      let l := x.waiters.filter (fun y => y.1 != i)
      ∃ t, exec (.glockWithdrawal k e f) s = .next t ∧ quiet t s1 ∧
        becomes t { x with waiters := l, eff := if x.holder.isSome then hi x.prio (glockTop l) else x.eff }) ∧
    (∀ r o l y, s.glockReqOf n i (glockStatus (f.num 9 1)) = some r → r.try_ = none →
      (glockStatus (f.num 9 1) = .granted ∨ glockStatus (f.num 9 1) = .grantedOrphan) →
      s.active (wingOf r.obj) = true → s.mustWait (some (shpWing k.toNat)) (wingOf r.obj) = false → s.atHand r.obj →
      s.fileContained r.obj = false → s.obj r.obj = some o → o.body = .lock l → distinctSlots (s.waiters r.obj) →
      (s.waiters r.obj).find? (fun z => z.pos == r.pos && z.kind.isLock) = some y →
      ∃ t, exec (.glockGrant k e f) s = .next t ∧ quiet t s ∧
        s.puts t r.obj (some { o with body := .lock { l with
          held := true, holder := s.identity r.pos, orphaned := false, prio := r.prio, eff := hi prio r.prio } }) ∧
        t.glockReqs = s.glockReqs.filter (fun z => z != r) ∧
        s.wakes t r.obj (dequeue (s.waiters r.obj) y.pos y.slot)
          [(y.pos, y.slot, glockStatus (f.num 9 1), BitVec.ofNat 51 i.toNat)] ∧
        t.lockDir = dirApply s.lockDir (wingOf r.obj) r.pos r.obj (some .held) ∧ s.wq.woken t.wq ∧ s.wk.woken t.wk ∧
        t = { s with ports := t.ports, chips := t.chips, out := t.out, glockReqs := t.glockReqs, recs := t.recs
                     lockDir := t.lockDir, dirLag := t.dirLag, slots := t.slots, use := t.use, wq := t.wq, wk := t.wk
                     waitq := t.waitq, free := s.free + 1, trace := t.trace })

/-- R279 to R283, R286: a waking quiet frame that the port's masks pass is acknowledged where the quiet transmitter is on (Table 10.3)
and wakes the wing, and else is counted; ARRIVAL starts fast transmission when the wing runs; ACK ends the wait, and COLD is acknowledged
and its lease kept; a frame that is not acknowledged is sent once more, and then the link is DOWN. A link that leaves COLD keeps its
announcement as a frame heard up to now, or to the end of its lease (R283). What COLD does in the other states is log 81 (DEDUCED), and
that a frame which the masks drop has been heard too is log 93 (DEDUCED). -/
def Obligations.QuietFrames : Prop :=
  ∀ (s : State) (k seat : BitVec 4), s.between → (s.port k.toNat).loop = none → s.copiesNothing (s.boardChip seat.toNat) →
    let p := s.port k.toNat
    let c := s.boardChip seat.toNat
    -- the frame's sender has been heard
    let heard : State := if c = s.me then s else s.modChip c (fun y => y.heardAt s.now)
    let others (t : State) : Prop := ∀ j, j ≠ k.toNat → t.port j = s.port j
    let cold : Nat := s.now + 1000000 * (s.link k.toNat).coldLease
    -- the chips as they are known once the link has left COLD, before the frame and with it
    let off : State := if p.state = .cold then s.coldHeard k.toNat else s
    let u : State := if p.state = .cold then heard.coldHeard k.toNat else heard
    let awake : Prop := p.state = .quiet ∨ p.state = .cold ∨ p.state = .training ∨ p.state = .resuming ∨ p.state = .down
    (∀ row w cls, (row = Instr.quietWakeQ k seat ∧ w = Wing.q ∧ cls = 1 ∨ row = Instr.quietWakeK k seat ∧ w = Wing.k ∧ cls = 2) →
      p.state ≠ .off → p.state ≠ .fenced →
      (s.quietMatch k.toNat seat.toNat cls = false →
        ∃ t, exec row s = .next t ∧ t.port k.toNat = { p with qdrop := sat 0xFFFF p.qdrop } ∧ others t ∧
          t = { s with ports := t.ports, chips := heard.chips }) ∧
      (s.quietMatch k.toNat seat.toNat cls = true → p.state = .fast → s.active w = true → exec row s = .next heard) ∧
      (s.quietMatch k.toNat seat.toNat cls = true → awake →
        let q := if p.state = .cold then { p with state := .quiet, coldMine := false, lastTx := s.now } else { p with lastTx := s.now }
        (s.active w = true →
          ∃ t, exec row s = .next t ∧ t.port k.toNat = q ∧ others t ∧ t.out = s.quietOut k.toNat 6 :: s.out ∧
            t = { s with ports := t.ports, out := t.out, chips := u.chips }) ∧
        ((s.pwr w).state = .adjourned ∨ (s.pwr w).state = .deep →
          ∃ t, exec row s = .next t ∧ t.port k.toNat = q ∧ others t ∧ t.out = s.quietOut k.toNat 6 :: s.out ∧
            s.exits t w 5 (16 * k.toNat + cls) ∧
            t = { s with ports := t.ports, out := t.out, chips := u.chips, wq := t.wq, wk := t.wk, trace := t.trace, pwrc := t.pwrc }))) ∧
    (p.state ≠ .off → p.state ≠ .fenced → s.quietMatch k.toNat seat.toNat 3 = false →
      ∃ t, exec (.quietArrival k seat) s = .next t ∧ t.port k.toNat = { p with qdrop := sat 0xFFFF p.qdrop } ∧ others t ∧
        t = { s with ports := t.ports, chips := heard.chips }) ∧
    (s.quietMatch k.toNat seat.toNat 3 = true → s.active (shpWing k.toNat) = true →
      let idle : Out := .run k.toNat (.idle 0xFF 0 0)
      ∀ q o, (p.state = .quiet ∧ q = { p with await := none, coldWish := false, state := .resuming, onWake := false } ∧ o = [idle] ∨
            p.state = .cold ∧ q = { p with coldMine := false, state := .resuming, onWake := false } ∧ o = [idle] ∨
            p.state = .resuming ∧ q = { p with await := none } ∧ o = [] ∨
            (p.state = .training ∨ p.state = .down) ∧ q = { p with lastTx := s.now } ∧ o = [s.quietOut k.toNat 6]) →
        ∃ t, exec (.quietArrival k seat) s = .next t ∧ t.port k.toNat = q ∧ others t ∧ t.out = o ++ s.out ∧
          t = { s with ports := t.ports, out := t.out, chips := u.chips }) ∧
    (s.quietMatch k.toNat seat.toNat 3 = true → (s.pwr (shpWing k.toNat)).state = .adjourned → p.state = .quiet →
      ∃ t, exec (.quietArrival k seat) s = .next t ∧ others t ∧
        t.port k.toNat = { p with await := none, coldWish := false, onWake := true, lastTx := s.now } ∧
        t.out = s.quietOut k.toNat 6 :: s.out ∧ s.exits t (shpWing k.toNat) 5 (16 * k.toNat + 3) ∧
        t = { s with ports := t.ports, out := t.out, chips := heard.chips, wq := t.wq, wk := t.wk, trace := t.trace, pwrc := t.pwrc }) ∧
    (c ≠ s.me →
      (∀ q, (p.state = .training ∧ p.phase = 0 ∧ seat = k ∧ q = { p with aliveIn := p.aliveIn + 1 } ∨
            p.state = .cold ∧ q = { p with state := .quiet, coldMine := false } ∨ p.state = .quiet ∧ q = p) →
        ∃ t, exec (.quietAlive k seat) s = .next t ∧ t.port k.toNat = q ∧ others t ∧
          t.chip c = (off.chip c).heardAt s.now ∧ (∀ d, d ≠ c → t.chip d = off.chip d) ∧ t = { s with ports := t.ports, chips := t.chips }) ∧
      (p.state = .training → p.phase = 0 → seat ≠ k → s.lonely k.toNat →
        ∃ t, exec (.quietAlive k seat) s = .next t ∧ s.downed t k.toNat 1 ∧
          t = { s with ports := t.ports, chips := t.chips, blks := t.blks, trace := t.trace })) ∧
    (∀ a, p.state ≠ .off → p.state ≠ .fenced → p.await = some a →
      ∃ t, exec (.quietAck k seat) s = .next t ∧ others t ∧ t = { s with ports := t.ports, chips := heard.chips } ∧
        t.port k.toNat = if a.cls = 7 then { p with await := none, state := .cold, coldWish := false, coldMine := true, leaseEnd := cold }
                         else { p with await := none }) ∧
    (p.state = .fast → exec (.quietCold k seat) s = .next heard) ∧
    (awake →
      let cools : Prop := p.state = .quiet ∨ p.state = .cold
      let peer := s.boardChip k.toNat
      ∃ t, exec (.quietCold k seat) s = .next t ∧
        t.port k.toNat = { p with state := if p.state = .quiet then .cold else p.state, lastTx := s.now } ∧ others t ∧
        t.out = s.quietOut k.toNat 6 :: s.out ∧
        (cools → t.chip peer = { heard.chip peer with coldTill := cold } ∧ ∀ d, d ≠ peer → t.chip d = heard.chip d) ∧
        (¬cools → t.chips = heard.chips) ∧ t = { s with ports := t.ports, chips := t.chips, out := t.out }) ∧
    (∀ a, p.await = some a → a.cls ≠ 7 →
      let unit := if a.cold then 5000 else 1000
      (a.at_ + unit ≤ s.now → s.now < a.at_ + 2 * unit → a.resent = false →
        ∃ t, exec (.quietAckTimeout k) s = .next t ∧ t.port k.toNat = { p with lastTx := s.now, await := some { a with resent := true } } ∧
          others t ∧ t.out = s.quietOut k.toNat a.cls :: s.out ∧ t = { s with ports := t.ports, out := t.out }) ∧
      (a.at_ + 2 * unit ≤ s.now → s.lonely k.toNat →
        ∃ t, exec (.quietAckTimeout k) s = .next t ∧ s.downed t k.toNat 4 ∧ t = { s with ports := t.ports, chips := off.chips, blks := t.blks, trace := t.trace })) ∧
    (∀ a, p.await = some a → a.cls = 7 → a.at_ + 2000 ≤ s.now → s.lonely k.toNat →
      ∃ t, exec (.coldAckTimeout k) s = .next t ∧ s.downed t k.toNat 4 ∧ t = { s with ports := t.ports, chips := off.chips, blks := t.blks, trace := t.trace }) ∧
    (p.state ≠ .off → p.state ≠ .fenced →
      ∃ t, exec (.quietFrameBad k) s = .next t ∧ t.port k.toNat = { p with qbad := sat 0xFFFF p.qbad } ∧ others t ∧
        t = { s with ports := t.ports })

/-- R285: training goes from DETECT through its phases to FAST, and a phase that takes too long begins the next attempt of the round, or
after the third leaves the link DOWN until the next round; a TRAIN block of the wrong chip or image leaves it DOWN. R286: a link that
resumes is FAST once it has block lock, and then sends what waits. -/
def Obligations.LinksTrain : Prop :=
  ∀ (s : State) (k : BitVec 4), s.between →
    let p := s.port k.toNat
    let others (t : State) : Prop := ∀ j, j ≠ k.toNat → t.port j = s.port j
    let train : Out := .run k.toNat (.train s.me (s.iml.buildId.truncate 32))
    (p.state = .training →
      (∀ q o, (p.phase = 0 ∧ 2 ≤ p.aliveIn ∧ q = { p with phase := 1, phaseAt := s.now } ∧ o = [.prbs k.toNat] ∨
            p.phase = 1 ∧ q = { p with phase := 2, phaseAt := s.now } ∧ o = [train] ∨
            p.phase = 2 ∧ q = { p with phase := 3, phaseAt := s.now } ∧ o = [] ∨
            p.phase = 3 ∧ q = { p with phase := 4, phaseAt := s.now, trainIn := 0 } ∧ o = [train] ∨
            p.phase = 4 ∧ 8 ≤ p.trainIn ∧ p.clear ∧ q = p.fresh s.now ∧ o = [.run k.toNat (.idle 0xFF 0 0)]) →
        ∃ t, exec (.trainingPhaseDone k) s = .next t ∧ t.port k.toNat = q ∧ others t ∧ t.out = o ++ s.out ∧
          t = { s with ports := t.ports, out := t.out }) ∧
      (p.phase = 0 ∧ p.aliveIn < 2 ∨ p.phase = 4 ∧ p.trainIn < 8 → exec (.trainingPhaseDone k) s = .next s) ∧
      (p.phaseAt + phaseLimit p.phase ≤ s.now →
        (p.attempt < 2 →
          ∃ t, exec (.trainingTimeout k) s = .next t ∧ t.port k.toNat = p.detecting (p.attempt + 1) s.now ∧ others t ∧
            t.out = s.quietOut k.toNat 5 :: s.out ∧ t = { s with ports := t.ports, out := t.out }) ∧
        (2 ≤ p.attempt → s.lonely k.toNat →
          ∃ t, exec (.trainingTimeout k) s = .next t ∧ s.downed t k.toNat 3 ∧
            t = { s with ports := t.ports, blks := t.blks, trace := t.trace })) ∧
      (∀ chip build, p.phase = 4 →
        (sameBoard chip s.me = true ∧ seatOf chip = k.toNat ∧ build = s.iml.buildId.truncate 32 →
          ∃ t, exec (.trainBlock k chip build) s = .next t ∧ t.port k.toNat = { p with peerChip := chip, trainIn := p.trainIn + 1 } ∧
            others t ∧ t = { s with ports := t.ports }) ∧
        (sameBoard chip s.me = false ∨ seatOf chip ≠ k.toNat ∨ build ≠ s.iml.buildId.truncate 32 → s.lonely k.toNat →
          ∃ t, exec (.trainBlock k chip build) s = .next t ∧ s.downed t k.toNat 2 ∧ (t.port k.toNat).peerChip = chip ∧
            t = { s with ports := t.ports, blks := t.blks, trace := t.trace }))) ∧
    (p.state = .down → p.loop = none →
      (3 ≤ p.why → p.downAt + 10000000 ≤ s.now →
        ∃ t, exec (.retrainDue k) s = .next t ∧ t.port k.toNat = p.detecting 0 s.now ∧ others t ∧
          t.out = s.quietOut k.toNat 5 :: s.out ∧ t = { s with ports := t.ports, out := t.out }) ∧
      (p.why < 3 → exec (.retrainDue k) s = .next s)) ∧
    (p.state = .resuming → s.active (shpWing k.toNat) = true →
      (p.clear →
        ∃ t, exec (.resumeLock k) s = .next t ∧ t.port k.toNat = p.fresh s.now ∧ others t ∧ t = { s with ports := t.ports }) ∧
      (∀ f, p.waitQ = [f] → p.unacked = [] → p.refusedQ = [] → s.contained (bCMB (shpWing k.toNat)) = false → f.vl < 4 → s.stamp f = (f, s) →
        ∃ t, exec (.resumeLock k) s = .next t ∧ (t.port k.toNat).state = .fast ∧ (t.port k.toNat).waitQ = [] ∧
          (t.port k.toNat).unacked = [{ lseq := 0, f := f }] ∧ (t.port k.toNat).lseq = 1 ∧ others t ∧
          t.out = .frame k.toNat ((p.fresh s.now).eof 0 f) f :: s.out ∧
          t = { s with ports := t.ports, out := t.out, trace := t.trace }))

/-- R290 to R293: an IDLE block acknowledges and returns credits; a NAK or 500 ns without progress replays what is outstanding, and after
RETRY_LIMIT replays the link is DOWN; a refused frame is sent again after 1 µs; a bad frame or one out of sequence is answered once with
NAK. R294: a frame for another seat goes on once. R287: a FAST link quiesces when idle, and both ends then enter QUIET; a frame to send
refuses the request. R288, R289, R298: what a port sends in fast mode reads back as what it sent, bit by bit. -/
def Obligations.FastBlocks : Prop :=
  (∀ f : Frame, f.body.length = 48 → Frame.ofBytes f.bytes = f ∧ ∀ e : Eof, eofOf f.bytes (e.block f).payload = some e) ∧
  (∀ c : Ctl, ctlOf c.block.payload = some c) ∧
  (∀ st bits, descramble st (scramble st bits).2 = ((scramble st bits).1, bits)) ∧
  ∀ (s : State) (k : BitVec 4), s.between → s.active (shpWing k.toNat) = true → (s.port k.toNat).state = .fast →
    (s.port k.toNat).loop = none →
    let p := s.port k.toNat
    let others (t : State) : Prop := ∀ j, j ≠ k.toNat → t.port j = s.port j
    let onlyPorts (t : State) : Prop := t = { s with ports := t.ports, out := t.out }
    -- what a margining point counts, ABORTED at the port's ABORT_AT (R401)
    let counted (q : Port) (n : Nat) : Port :=
      match q.margin with
      | none => q
      | some m =>
        if q.abortAt ≤ m.headers + m.crcs + (m.replays + n) then
          { q with margin := none, marginRes := some (m.headers, m.crcs, m.replays + n, true) }
        else { q with margin := some { m with replays := m.replays + n } }
    let replay (t : State) (q : Port) (l : List TxFrame) : Prop :=
      t.port k.toNat = counted { q with
        replays := q.replays + 1, retryCnt := satAdd 0xFFFF q.retryCnt l.length, ackAt := s.now, lastTx := s.now } l.length ∧ others t ∧
      t.out = (l.map (fun y => Out.frame k.toNat (q.eof y.lseq y.f) y.f)).reverse ++ s.out ∧ s.setsBit t (bSHP k.toNat) 1 ∧
      t = { s with ports := t.ports, out := t.out, blks := t.blks, trace := t.trace }
    let quietNow (q : Port) : Port :=
      { q with state := .quiet, quiescing := false, quiesced := false, peerQuiesce := false, await := none, margin := none }
    (∀ ack (vl : BitVec 2) (n : BitVec 4), p.waitQ = [] → p.quiescing = false → p.peerQuiesce = false →
      ∃ t, exec (.idleBlock k ack vl n) s = .next t ∧ others t ∧ t = { s with ports := t.ports } ∧
        t.port k.toNat = { p.acked ack s.now with credits := returned p.credits vl.toNat n.toNat }) ∧
    (∀ lseq ack i, (idxsFrom (fun (y : TxFrame) => y.lseq == lseq) 0 (p.acked ack s.now).unacked).head? = some i →
      s.mild (bSHP k.toNat) 1 → (p.acked ack s.now).replays < (s.link k.toNat).retryLimit →
      ∃ t, exec (.nak k lseq ack) s = .next t ∧ replay t (p.acked ack s.now) ((p.acked ack s.now).unacked.drop i)) ∧
    (p.unacked ≠ [] → p.ackAt + 500 ≤ s.now →
      (p.replays < (s.link k.toNat).retryLimit → s.mild (bSHP k.toNat) 1 →
        ∃ t, exec (.replayTimeout k) s = .next t ∧ replay t p p.unacked) ∧
      ((s.link k.toNat).retryLimit ≤ p.replays → s.lonely k.toNat →
        ∃ t, exec (.replayTimeout k) s = .next t ∧ s.downed t k.toNat 5 ∧
          t = { s with ports := t.ports, blks := t.blks, trace := t.trace })) ∧
    (∀ lseq ack (vl : BitVec 2) (n : BitVec 4) y, p.waitQ = [] → p.quiescing = false → p.peerQuiesce = false →
      p.unacked.find? (fun z => z.lseq == lseq) = some y →
      let q : Port := p.acked ack s.now
      ∃ t, exec (.refuse k lseq ack vl n) s = .next t ∧ others t ∧ t = { s with ports := t.ports } ∧
        t.port k.toNat = { q with unacked := q.unacked.filter (fun z => z.lseq != lseq), refusedQ := q.refusedQ ++ [(s.now + 1000, y.f)]
                                  credits := returned p.credits vl.toNat n.toNat }) ∧
    (∀ at_ f rest, p.refusedQ = (at_, f) :: rest →
      (s.now < at_ → exec (.refuseResend k) s = .next s) ∧
      (at_ ≤ s.now → p.waitQ = [] → p.unacked = [] → p.quiescing = false → rest.length < 16 → s.stamp f = (f, s) → 0 < p.credits.getD f.vl 0 →
        s.contained (bCMB (shpWing k.toNat)) = false →
        ∃ t, exec (.refuseResend k) s = .next t ∧ s.linkSends t k.toNat f ∧ (t.port k.toNat).refusedQ = rest ∧
          t = { s with ports := t.ports, out := t.out, trace := t.trace })) ∧
    (p.waitQ = [] → p.refusedQ = [] → p.quiescing = false → p.peerQuiesce = false → (s.link k.toNat).quietAfter ≠ 0 →
      p.lastUse + 1000 * (s.link k.toNat).quietAfter ≤ s.now →
      ∃ t, exec (.quiesceStart k) s = .next t ∧ others t ∧ onlyPorts t ∧
        t.port k.toNat = { p with quiescing := true, quiesced := p.quiesced || p.unacked.isEmpty } ∧
        t.out = (if p.unacked = [] ∧ p.quiesced = false then [Out.ctl k.toNat (.quiesce p.ack)] else []) ++ s.out) ∧
    (∀ ack,
      (p.quiescing = true → p.quiesced = true → p.waitQ = [] → p.refusedQ = [] → p.coldWish = false →
        ∃ t, exec (.quiesce k ack) s = .next t ∧ others t ∧ t = { s with ports := t.ports } ∧
          t.port k.toNat = quietNow (p.acked ack s.now)) ∧
      (p.quiescing = false → p.waitQ = [] → p.refusedQ = [] → (p.acked ack s.now).unacked = [] → p.coldWish = false →
        ∃ t, exec (.quiesce k ack) s = .next t ∧ others t ∧ onlyPorts t ∧ t.out = .ctl k.toNat (.quiesce p.ack) :: s.out ∧
          t.port k.toNat = quietNow (p.acked ack s.now)) ∧
      (p.quiescing = true → p.quiesced = true → p.waitQ ≠ [] ∨ p.refusedQ ≠ [] →
        ∃ t, exec (.quiesce k ack) s = .next t ∧ others t ∧ onlyPorts t ∧
          t.port k.toNat = { quietNow (p.acked ack s.now) with
            state := .resuming, onWake := false, lastTx := s.now, coldWish := false, coldMine := false
            await := some { cls := 3, resent := false, cold := false, at_ := s.now + 150 } } ∧
          t.out = .run k.toNat (.idle 0xFF 0 0) :: s.quietOut k.toNat 3 :: s.out) ∧
      (p.quiescing = false ∨ p.quiesced = false →
        (p.waitQ ≠ [] ∨ p.refusedQ ≠ [] → p.waitQ = [] ∨ s.contained (bCMB (shpWing k.toNat)) = true →
          ∃ t, exec (.quiesce k ack) s = .next t ∧ others t ∧ t = { s with ports := t.ports } ∧
            t.port k.toNat = { p.acked ack s.now with quiescing := false, quiesced := false }) ∧
        (∀ f, p.waitQ = [f] → s.stamp f = (f, s) → p.refusedQ = [] → (p.acked ack s.now).unacked = [] → 0 < p.credits.getD f.vl 0 →
          s.contained (bCMB (shpWing k.toNat)) = false →
          ∃ t, exec (.quiesce k ack) s = .next t ∧ s.linkSends t k.toNat f ∧ (t.port k.toNat).quiescing = false ∧
            t = { s with ports := t.ports, out := t.out, trace := t.trace }))) ∧
    (∀ row, (row = Instr.badFrame k ∨ ∃ r e f, r ∈ frameRows ∧ row = r.2 k e f ∧ e.lseq ≠ p.expect) →
      (p.nakSent = true → exec row s = .next s) ∧
      (p.nakSent = false →
        ∃ t, exec row s = .next t ∧ t.port k.toNat = { p with nakSent := true } ∧ others t ∧ onlyPorts t ∧
          t.out = .ctl k.toNat (.nak p.expect p.ack) :: s.out)) ∧
    (∀ r e f, r ∈ frameRows → p.still → e.lseq = p.expect → f.dst ≠ s.me → s.boardChip k.toNat ≠ s.me →
      s.copiesNothing (s.boardChip k.toNat) → (f.fwd = true → s.copiesNothing f.src) →
      let g : Frame := { f with ftype := r.1 }
      let j := seatOf f.dst
      let ack : Out := .ctl k.toNat (.idle p.expect (BitVec.ofNat 2 g.vl) 1)
      (f.fwd = false ∨ f.src = s.me ∨ sameBoard f.dst s.me = false →
        ∃ t, exec (r.2 k e f) s = .next t ∧ others t ∧ onlyPorts { t with chips := s.chips } ∧ t.out = ack :: s.out ∧
          t.port k.toNat = { p.took e (r.1 == 0x02) s.now with qbad := sat 0xFFFF p.qbad } ∧ (∀ c, t.chip c = s.heardBy k.toNat f c)) ∧
      (f.fwd = true → f.src ≠ s.me → sameBoard f.dst s.me = true → j ≠ k.toNat → (s.port j).still → 0 < (s.port j).credits.getD g.vl 0 →
        s.active (shpWing j) = true → s.contained (bCMB (shpWing j)) = false → (shpWing j = shpWing k.toNat ∨ s.contained bSEAM = false) →
        ∃ t, exec (r.2 k e f) s = .next t ∧ t.port k.toNat = p.took e (r.1 == 0x02) s.now ∧
          (t.port j).unacked = [{ lseq := (s.port j).lseq, f := g }] ∧ (t.port j).waitQ = [] ∧
          (∀ i, i ≠ j → i ≠ k.toNat → t.port i = s.port i) ∧ t.out = ack :: .frame j ((s.port j).eof (s.port j).lseq g) g :: s.out ∧
          (∀ c, t.chip c = s.heardBy k.toNat f c) ∧
          t = { s with ports := t.ports, chips := t.chips, out := t.out, trace := t.trace }))

/-- R301 to R303: the next DATA packet of a context is delivered and its ACK owed for 1 µs, a later one is kept and answered by ACK, an
earlier one is answered again, and an ACK takes its frames out of the retransmit pool. R302, R371: OPEN and OPEN_ACK open a context from
SEQ 0; a busy answer is tried again after 8 × RTO. R304, R305: a timeout sends again and doubles its time; after 8 of them, or when the
ring reports the path failed, the context moves to EDGE, and back after a trial. That OPEN is sent again as DATA is, is log 50 (DEDUCED),
and that a DEAD context is opened again by RING with its base time is log 83 (DESIGN CHOICE). -/
def Obligations.TunnelPackets : Prop :=
  ∀ (s : State), s.between → s.tunCalm →
    (∀ (p : Packet) i, p.crcOk = true → p.dst = s.me → p.src ≠ s.me → s.ctxOf p.src = some i → s.copiesNothing p.src →
      let c := s.ctx i
      let others (t : State) : Prop := ∀ j, j ≠ i → t.ctx j = s.ctx j
      let heard (t : State) : Prop :=
        t.chip p.src = (s.chip p.src).heardAt s.now ∧ ∀ d, d ≠ p.src → t.chip d = s.chip d
      let onlyTun (t : State) : Prop := t = { s with tun := { s.tun with ctxs := t.tun.ctxs }, chips := t.chips, out := t.out }
      (c.state = .open → c.trial = none → c.unacked = [] → c.reorder = [] → c.sacked = [] →
        (p.seq = c.rcvNxt → p.frame.ftype = 0x02 → (∀ j, (s.port j).state ≠ .down) →
          ∃ t, exec (.tunnelData p) s = .next t ∧ others t ∧
            t.ctx i = { c with rcvNxt := c.rcvNxt + 1, ackOwed := some (c.ackOwed.getD (s.now + 1000)), lastUse := s.now } ∧
            t = { s with tun := { s.tun with ctxs := t.tun.ctxs }, chips := t.chips }) ∧
        (seqBefore p.seq c.rcvNxt = true →
          ∃ t, exec (.tunnelData p) s = .next t ∧ others t ∧ heard t ∧ t.ctx i = { c with ackOwed := none, lastUse := s.now } ∧
            t.out = .ack (c.head c.edge 0) 0 :: s.out ∧ onlyTun t) ∧
        (p.seq ≠ c.rcvNxt → seqBefore p.seq c.rcvNxt = false → s.reorderUsed < 256 → (p.seq - c.rcvNxt).toNat ≤ 256 →
          let d : TunCtx := { c with reorder := [(p.seq, p.frame)], ackOwed := none, lastUse := s.now }
          ∃ t, exec (.tunnelData p) s = .next t ∧ others t ∧ heard t ∧ t.ctx i = d ∧
            t.out = .ack (d.head c.edge 0) (BitVec.twoPow 256 (p.seq - c.rcvNxt - 1).toNat) :: s.out ∧ onlyTun t)) ∧
      (c.state = .open →
        let left := c.unacked.filter (fun x => !seqBefore x.seq p.ack)
        let acked : TunCtx := { c with
          unacked := left, lastUse := s.now
          sacked := (c.sacked.filter (fun q => !decide ((q - p.ack).toNat ≤ 256)) ++ mapList p.ack p.map).eraseDups.filter
            (fun q => left.any (fun x => x.seq == q)) }
        ∀ d, (c.trial.any (fun q => seqBefore q p.ack) = false ∧ left.length = c.unacked.length ∧ d = acked ∨
            c.trial.any (fun q => seqBefore q p.ack) = false ∧ left.length < c.unacked.length ∧
              d = { acked with backoff := 0, cur := c.base } ∨
            c.trial.any (fun q => seqBefore q p.ack) = true ∧ left.length < c.unacked.length ∧
              d = { acked with edge := false, trial := none, probes := [], probeT1 := none, backoff := 0, cur := c.rto }) →
          ∃ t, exec (.tunnelAck p) s = .next t ∧ others t ∧ heard t ∧ onlyTun t ∧ t.out = s.out ∧ t.ctx i = d) ∧
      (c.unacked = [] →
        let opened : TunCtx := { c with
          state := .open, bootSeq := some p.bootSeq, sndNxt := 0, rcvNxt := 0, waitQ := [], unacked := [], sacked := [], reorder := []
          ackOwed := none, busyAt := none, backoff := 0, cur := c.base, trial := none, lastUse := s.now }
        let seen (t : State) : Prop := t.ctx i = opened ∧ others t ∧ onlyTun t ∧
          t.chip p.src = { (s.chip p.src).heardAt s.now with sent3 := 0, exec3 := none } ∧ ∀ d, d ≠ p.src → t.chip d = s.chip d
        c.peer = p.src → s.tun.lost ≤ 0x7FF →
        (p.buildId = s.iml.buildId → (c.state ≠ .opening ∨ p.src.toNat < s.me.toNat) →
          ∃ t, exec (.tunnelOpen p) s = .next t ∧ seen t ∧
            t.out = .openAck { edge := p.edge, dst := p.src, seq := 0, ack := 0, sack := 0 } (BitVec.ofNat 32 s.iml.bootSeq)
              s.iml.buildId false :: s.out) ∧
        (p.buildId = s.iml.buildId → c.state = .opening → s.me.toNat ≤ p.src.toNat →
          ∃ t, exec (.tunnelOpen p) s = .next t ∧ heard t ∧ t = { s with chips := t.chips }) ∧
        (p.buildId ≠ s.iml.buildId → ∃ t, exec (.tunnelOpen p) s = .next t ∧ heard t ∧ t = { s with chips := t.chips }) ∧
        (c.state = .opening → p.busy = false → ∃ t, exec (.openAck p) s = .next t ∧ seen t ∧ t.out = s.out) ∧
        (c.state = .opening → p.busy = true →
          ∃ t, exec (.openAck p) s = .next t ∧ t.ctx i = { c with busyAt := some s.now } ∧ others t ∧ heard t ∧ onlyTun t ∧
            t.out = s.out))) ∧
    (∀ row (p : Packet), (row = Instr.tunnelData p ∨ row = Instr.tunnelAck p ∨ row = Instr.tunnelOpen p ∨ row = Instr.openAck p) →
      p.crcOk = false ∨ p.dst ≠ s.me → exec row s = .next s) ∧
    (∀ i,
      let c := s.ctx i
      let others (t : State) : Prop := ∀ j, j ≠ i → t.ctx j = s.ctx j
      let due (x : TunTx) : Bool := decide (x.at_ + 1000 * c.cur ≤ s.now)
      -- what neither ACK nor SACK covers, and a trial by RING that is due
      let left := c.unacked.filter (fun x => !c.sacked.contains x.seq)
      let tried := (c.unacked.filter (fun x => c.trial == some x.seq)).filter due
      let oldest : Prop := c.state = .open ∧ tried = [] ∧ c.unacked.head?.any due = true
      let opening : Prop := c.state = .opening ∧ c.busyAt = none ∧ c.sentAt + 1000 * c.cur ≤ s.now
      let again (edge : TunTx → Bool) (l : List TunTx) : List Out := (l.map (fun x => Out.data (c.head (edge x) x.seq) x.f)).reverse
      -- the trial that goes by RING once the frames `l` are sent again: the first of them, where the next DATA packet is to be it
      let trial (tr : Option (BitVec 16)) (l : List TunTx) : Option (BitVec 16) :=
        if c.edge && c.trialArm then (l.head?.map TunTx.seq).or tr else tr
      -- the context once the frames `l` are sent again: their DATA packets carry the ACK that was owed
      let went (l : List TunTx) (tr : Option (BitVec 16)) (d : TunCtx) : TunCtx := { d with
        unacked := c.unacked.map (fun x => if l.contains x then { x with at_ := s.now } else x), lastUse := s.now, lastTx := s.now
        trial := tr, trialArm := d.trialArm && l.isEmpty, ackOwed := if l.isEmpty then c.ackOwed else none }
      let asks : Out := .open (c.head c.edge 0) (BitVec.ofNat 32 s.iml.bootSeq) s.iml.buildId
      (∀ a, c.ackOwed = some a → a ≤ s.now →
        ∃ t, exec (.ackDelay i) s = .next t ∧ t.ctx i = { c with ackOwed := none, lastUse := s.now } ∧ others t ∧
          t.out = .ack (c.head c.edge 0) c.map :: s.out ∧ t = { s with tun := { s.tun with ctxs := t.tun.ctxs }, out := t.out }) ∧
      (oldest → c.backoff < 8 →
        ∃ t, exec (.retransmitTimeout i) s = .next t ∧ others t ∧
          t.out = again (fun x => c.edge && trial c.trial left != some x.seq) left ++ s.out ∧
          t.ctx i = went left (trial c.trial left) { c with backoff := c.backoff + 1, cur := Nat.min (2 * c.cur) (8 * c.rto) } ∧
          t = { s with tun := { s.tun with ctxs := t.tun.ctxs, retx := satAdd 0xFFFF s.tun.retx left.length }, out := t.out }) ∧
      (c.state = .open → tried ≠ [] → c.unacked.head?.all (fun x => !due x || tried.contains x) = true →
        ∃ t, exec (.retransmitTimeout i) s = .next t ∧ others t ∧
          t.out = again (fun x => c.edge && trial none tried != some x.seq) tried ++ s.out ∧
          t.ctx i = went tried (trial none tried) { c with edgeAt := s.now } ∧
          t = { s with tun := { s.tun with ctxs := t.tun.ctxs, retx := satAdd 0xFFFF s.tun.retx tried.length }, out := t.out }) ∧
      (oldest ∨ opening → 8 ≤ c.backoff → c.edge = true → s.mild bTUN 2 →
        ∃ t, exec (.retransmitTimeout i) s = .next t ∧ others t ∧ s.setsBit t bTUN 2 ∧
          t.ctx i = { c with state := .dead, unacked := [], sacked := [], reorder := [], backoff := 0, edge := false, cur := c.rto
                             ackOwed := none, trial := none, trialArm := false, probes := [], probeT1 := none } ∧
          t = { s with tun := { s.tun with ctxs := t.tun.ctxs, lost := satAdd 0x7FF s.tun.lost c.unacked.length }
                       blks := t.blks, trace := t.trace }) ∧
      (opening → c.backoff < 8 →
        ∃ t, exec (.retransmitTimeout i) s = .next t ∧ others t ∧ t.out = asks :: s.out ∧
          t.ctx i = { c with sentAt := s.now, lastUse := s.now, openDue := false, backoff := c.backoff + 1
                             cur := Nat.min (2 * c.cur) (8 * c.rto) } ∧
          t = { s with tun := { s.tun with ctxs := t.tun.ctxs }, out := t.out }) ∧
      (∀ row chip, (row = Instr.ringPathFail chip ∧ s.ctxOf chip = some i ∧ c.state = .open ∨
          row = Instr.retransmitTimeout i ∧ oldest ∧ 8 ≤ c.backoff) → c.edge = false → s.mild bTUN 1 →
        ∃ t, exec row s = .next t ∧ others t ∧ s.setsBit t bTUN 1 ∧ t.out = again (fun _ => true) c.unacked ++ s.out ∧
          t.ctx i = went c.unacked none { c with
            edge := true, backoff := 0, cur := 2 * c.rto, edgeAt := s.now, trialArm := false, probes := [], probeT1 := none } ∧
          t = { s with tun := { s.tun with ctxs := t.tun.ctxs, fallback := sat 0x3FF s.tun.fallback
                                           retx := satAdd 0xFFFF s.tun.retx c.unacked.length }
                       out := t.out, blks := t.blks, trace := t.trace }) ∧
      (∀ row chip, (row = Instr.ringPathFail chip ∧ s.ctxOf chip = some i ∧ c.state = .opening ∨
          row = Instr.retransmitTimeout i ∧ opening ∧ 8 ≤ c.backoff) → c.edge = false → s.mild bTUN 1 →
        ∃ t, exec row s = .next t ∧ others t ∧ s.setsBit t bTUN 1 ∧
          t.out = .open (c.head true 0) (BitVec.ofNat 32 s.iml.bootSeq) s.iml.buildId :: s.out ∧
          t.ctx i = { c with edge := true, backoff := 0, cur := 2 * c.rto, edgeAt := s.now, trial := none, trialArm := false
                             probes := [], probeT1 := none, sentAt := s.now, busyAt := none, lastUse := s.now, openDue := false } ∧
          t = { s with tun := { s.tun with ctxs := t.tun.ctxs, fallback := sat 0x3FF s.tun.fallback }
                       out := t.out, blks := t.blks, trace := t.trace }) ∧
      (∀ chip, s.ctxOf chip = some i → c.edge = true ∨ c.state = .dead → exec (.ringPathFail chip) s = .next s) ∧
      (c.edge = true → c.trial = none → c.state = .open → c.edgeAt + 10000000 ≤ s.now →
        ∃ t, exec (.edgeRetry i) s = .next t ∧ t.ctx i = { c with trialArm := true } ∧ others t ∧
          t = { s with tun := { s.tun with ctxs := t.tun.ctxs } }) ∧
      (∀ a, c.busyAt = some a → c.state = .opening → a + 8000 * c.rto ≤ s.now →
        ∃ t, exec (.openBusyRetry i) s = .next t ∧ t.ctx i = { c with sentAt := s.now, busyAt := none, lastUse := s.now, openDue := false } ∧ others t ∧
          t.out = asks :: s.out ∧ t = { s with tun := { s.tun with ctxs := t.tun.ctxs }, out := t.out }))

/-- R307 to R311: a throttle ceiling bounds the P-level, which changes by a step that no ACTING sequencer sees. R315 to R321: a quiescent
wing without votes idles or adjourns, entry goes from abort point to abort point, and a wake acts at the next one. R320, R283: both
wings deepen once every enabled port is COLD, DOWN or FENCED, and return before a lease ends; a chip awake by then keeps its links COLD
all the same. How quiescence is judged is log 37, when a ceiling is taken log 62 (DEDUCED both), the 64 cycles are counted as log 87 says and
AP3 is left as log 85 says (DESIGN CHOICES), and what deepening and a lease's end judge by is log 90 (DEDUCED). -/
def Obligations.PowerStates : Prop :=
  ∀ (s : State), (∀ w (code : BitVec 2), s.inReset = true →
      exec (.throttleCeiling w code) s = .next (s.modPwr w (fun p => { p with ceil := code.toNat }))) ∧
    (s.between → ∀ (w : Wing),
      let p := s.pwr w
      let powers (row : Instr) (q : Pwr) : Prop := ∃ t, exec row s = .next t ∧ s.powers t w q ∧ t = { s with wq := t.wq, wk := t.wk }
      let chosen (q : Pwr) : Prop := ∃ t, exec (.powerChoice w) s = .next t ∧ s.powers t w q ∧ t.trace.calm w = 0 ∧
        t = { s with wq := t.wq, wk := t.wk, trace := t.trace }
      (∀ code : BitVec 2,
        let e := hi (s.pnom w) code.toNat
        let ack : Bool := (p.thrAck && !decide (p.ceil < code.toNat)) || decide (code.toNat ≤ p.plvl)
        (p.state = .adjourned ∨ p.state = .deep ∨ p.state = .off →
          powers (.throttleCeiling w code) { p with ceil := code.toNat, thrAck := true }) ∧
        (s.active w = true → p.hand = .none →
          (e = p.plvl → powers (.throttleCeiling w code) { p with ceil := code.toNat, thrAck := ack }) ∧
          (e < p.plvl → powers (.throttleCeiling w code)
            { p with ceil := code.toNat, thrAck := ack, target := e, regLvl := e, hand := .stepReg, reqAt := s.now }) ∧
          (p.plvl < e → ∃ t, exec (.throttleCeiling w code) s = .next t ∧ t.wing w.other = s.wing w.other ∧
            t.wing w = { s.wing w with
              draining := true, pwr := { p with ceil := code.toNat, thrAck := ack, target := e, hand := .drain } } ∧
            t = { s with wq := t.wq, wk := t.wk }))) ∧
      (s.anyActing w = true → exec (.frequencyStep w) s = .next s) ∧
      (s.anyActing w = false → s.active w = true → (∀ k, seqWing k = w → (s.seq k).met = false) →
        (p.hand = .step → s.effective w = p.target →
          ∃ t, exec (.frequencyStep w) s = .next t ∧
            s.powers t w { p with plvl := p.target, hand := .none, thrAck := p.acks p.target p.ceil } ∧
            t = { s with wq := t.wq, wk := t.wk, trace := s.trace.setCalm w 0 }) ∧
        (p.hand = .drain → ∃ t, exec (.frequencyStep w) s = .next t ∧ t.wing w.other = s.wing w.other ∧
          t.wing w = { s.wing w with
            draining := false
            pwr := { p with plvl := p.target, regLvl := p.target, hand := .stepReg, reqAt := s.now
                            thrAck := p.acks p.target p.ceil } } ∧
          t = { s with wq := t.wq, wk := t.wk })) ∧
      (s.active w = false ∨ s.contained bTCU = true ∨ s.voteCount w ≠ 0 ∨ s.quiescent w = false ∨ s.cyclesIn w (s.trace.calm w) 64 = false →
        exec (.powerChoice w) s = .next s) ∧
      (s.active w = true → s.contained bTCU = false → s.voteCount w = 0 → s.quiescent w = true → s.cyclesIn w (s.trace.calm w) 64 = true →
        let fits := 1 ≤ s.deepest w ∧ s.fitsH w (exitAdjourned (s.effective w) + s.img.power.beAdj) = true
        (fits → chosen { p with state := .entering, ap := 0, wakePend := none }) ∧
        (¬ fits → chosen { p with state := .idle })) ∧
      (p.state = .entering →
        (p.wakePend = none →
          (p.ap = 0 → s.quiescent w = true → s.edgeQuiet w = true → powers (.abortPointReached w) { p with ap := 1 }) ∧
          (p.ap = 0 → s.quiescent w = false ∨ s.edgeQuiet w = false → exec (.abortPointReached w) s = .next s) ∧
          (p.ap = 1 → powers (.abortPointReached w) { p with ap := 2, oscEn := false, memLvl := 1, hand := .mem, reqAt := s.now }) ∧
          (p.ap = 2 → p.hand ≠ .mem → powers (.abortPointReached w) { p with ap := 3 }) ∧
          (p.ap = 3 → ∃ t, exec (.abortPointReached w) s = .next t ∧
            s.powers t w { p with state := .adjourned, ap := 7, regEn := false, thrAck := true } ∧
            t.pwrc = { s.pwrc with adjCnt := sat 0x7FFF s.pwrc.adjCnt } ∧
            t = { s with wq := t.wq, wk := t.wk, pwrc := t.pwrc, trace := t.trace })) ∧
        (p.ap = 2 → p.hand = .mem → exec (.abortPointReached w) s = .next s) ∧
        (∀ src d at_, p.wakePend = some (src, d, at_) →
          let counted : Pwrc := { s.pwrc with abortCnt := sat 0xFF s.pwrc.abortCnt }
          (p.ap < 2 → s.nothingWaits w → p.hand = .none → s.effective w = p.plvl →
            ∃ t, exec (.abortPointReached w) s = .next t ∧ t.pwrc = counted ∧
              s.powers t w (({ p with
                exitFrom := .entering, lastWake := p.lastWake.map (fun r => { r with ap := p.ap + 1 }) } : Pwr).back s.now) ∧
              t = { s with wq := t.wq, wk := t.wk, pwrc := t.pwrc, trace := t.trace }) ∧
          (p.ap = 2 → p.hand ≠ .mem →
            ∃ t, exec (.abortPointReached w) s = .next t ∧ t.pwrc = counted ∧
              s.powers t w { p with exitFrom := .entering, lastWake := p.lastWake.map (fun r => { r with ap := 3 })
                                    state := .exiting, ap := 7, oscEn := true, hand := .osc, reqAt := s.now, wakePend := none } ∧
              t = { s with wq := t.wq, wk := t.wk, pwrc := t.pwrc, trace := t.trace }) ∧
          (p.ap = 3 →
            ∃ t, exec (.abortPointReached w) s = .next t ∧ t.pwrc = { s.pwrc with adjCnt := sat 0x7FFF s.pwrc.adjCnt } ∧
              s.powers t w { p with
                state := .exiting, ap := 7, wakePend := none, thrAck := true, exitFrom := .adjourned, exitAt := s.now
                reqAt := s.now, hand := .reg, lateExit := false, regEn := true, regLvl := s.effective w, target := s.effective w
                lastWake := some { source := src, state := .entering, ap := 4, detail := d, exit := 0, time := at_ } } ∧
              t = { s with wq := t.wq, wk := t.wk, pwrc := t.pwrc, trace := t.trace })))) ∧
    (s.between →
      let moved (t : State) (st : PState) (lvl : Nat) : Prop := ∀ w, t.wing w = { s.wing w with pwr := { s.pwr w with state := st, memLvl := lvl } }
      let deepens : Prop := s.mayDeepen = true ∨ s.pwrc.announcing = true ∧ s.canDeepen = true
      (deepens → s.portsCold = true →
        ∃ t, exec .deepen s = .next t ∧ moved t .deep 2 ∧ t.pwrc = { s.pwrc with announcing := false } ∧
          t = { s with wq := t.wq, wk := t.wk, pwrc := t.pwrc, trace := t.trace }) ∧
      (deepens → s.portsCold = false →
        let hit := (List.range 16).filter (fun k => s.portOn k && (s.port k).state == .quiet && (s.port k).await.isNone)
        ∃ t, exec .deepen s = .next t ∧ t.pwrc = { s.pwrc with announcing := true } ∧
          (∀ k, t.port k = if k ∈ hit then { s.port k with
            lastTx := s.now, await := some { cls := 7, resent := false, cold := false, at_ := s.now + 150 }, coldWish := true }
            else s.port k) ∧
          t.out = hit.reverse.map (fun k => s.quietOut k 7) ++ s.out ∧
          t = { s with pwrc := t.pwrc, ports := t.ports, out := t.out }) ∧
      (¬deepens → exec .deepen s = .next s) ∧
      ((∃ x ∈ s.leaseEnds, x ≤ s.now) →
        let hit := (List.range 16).filter (fun k => (s.port k).state == .cold)
        let deep : Prop := (s.pwr .q).state = .deep ∧ (s.pwr .k).state = .deep
        let kept (c : ChipSt) : ChipSt :=
          if c.heard then { c with last := Nat.max c.last (Nat.min s.now c.coldTill), coldTill := 0 } else c
        ∃ t, exec .coldLeaseEnd s = .next t ∧ (deep → moved t .adjourned 1) ∧
          (¬deep → t.wq = s.wq ∧ t.wk = s.wk ∧ t.trace = s.trace) ∧ t.pwrc = { s.pwrc with announcing := t.mayDeepen } ∧
          (∀ c, t.chip c = if hit.any (fun k => s.boardChip k == c) then kept (s.chip c) else s.chip c) ∧
          (∀ k, t.port k = if k ∈ hit then { s.port k with
            state := .quiet, coldMine := false, lastTx := s.now
            await := some { cls := 7, resent := false, cold := false, at_ := s.now + 150 }, coldWish := true }
            else s.port k) ∧
          t.out = (hit.map (fun k => [s.quietOut k 7, s.quietOut k 5])).reverse.flatten ++ s.out ∧
          t = { s with wq := t.wq, wk := t.wk, pwrc := t.pwrc, ports := t.ports, chips := t.chips, out := t.out, trace := t.trace }) ∧
      ((∀ x ∈ s.leaseEnds, s.now < x) → exec .coldLeaseEnd s = .next s))

/-- R312, R322: an exit goes from REG_RDY to OSC_RDY, the PLL, MEM_RDY and the sealed move, and then the wing is ACTIVE at the level chosen;
a P-level step waits for REG_RDY (R309); an abort at AP3 is over when the arrays are back; an IDLE wing is ACTIVE when its clock runs.
R323: a ready signal that is absent for 100 µs sets WAKE_LATE. R325: an uncorrectable word in the saved state sets SEAL_ECC and contains
its block. -/
def Obligations.PowerHandshakes : Prop :=
  ∀ (s : State) (w : Wing), s.between → s.overdue w.other = false →
    let p := s.pwr w
    let noLate := s.conds.filter (fun x => x != (bTCU, 3))
    let late := p.lateExit || (p.state == .exiting && p.exitFrom != .entering &&
      decide (p.reqAt + handLimit p.exitFrom p.hand < s.now))
    let powers (row : Instr) (q : Pwr) : Prop :=
      ∃ t, exec row s = .next t ∧ s.powers t w q ∧ t = { s with wq := t.wq, wk := t.wk, conds := noLate }
    (p.hand = .reg → powers (.regRdy w) { p with lateExit := late, oscEn := true, hand := .osc, reqAt := s.now }) ∧
    (p.hand = .stepReg →
      (p.plvl ≠ p.target → powers (.regRdy w) { p with hand := .step }) ∧
      (p.plvl = p.target → s.effective w = p.plvl → powers (.regRdy w) { p with hand := .none })) ∧
    (p.hand = .osc → powers (.oscRdy w) { p with lateExit := late, hand := .pll }) ∧
    (p.hand = .pll →
      ∃ t, exec (.pllLock w) s = .next t ∧ s.powers t w { p with memLvl := 0, hand := .mem, reqAt := s.now } ∧
        t = { s with wq := t.wq, wk := t.wk }) ∧
    (p.hand = .mem →
      (p.state = .exiting → p.exitFrom ≠ .entering → powers (.memRdy w) { p with lateExit := late, hand := .restore }) ∧
      (p.state ≠ .exiting → powers (.memRdy w) { p with lateExit := late, hand := .none }) ∧
      (p.state = .exiting → p.exitFrom = .entering → s.nothingWaits w → s.effective w = p.plvl →
        ∃ t, exec (.memRdy w) s = .next t ∧ s.powers t w (({ p with lateExit := late, hand := .none } : Pwr).back s.now) ∧
          t = { s with wq := t.wq, wk := t.wk, conds := noLate, trace := t.trace })) ∧
    (p.hand = .restore → p.state = .exiting → s.nothingWaits w → s.effective w = p.target →
      let q : Pwr := ({ p with plvl := p.target, hand := .none, thrAck := p.acks p.target p.ceil } : Pwr).back s.now
      let counted : Pwrc := { s.pwrc with lateRdy := satAdd 0xFF s.pwrc.lateRdy (if p.lateExit then 1 else 0) }
      (∀ bad : List Nat, (∀ b ∈ bad, blkWing b ≠ some w) →
        ∃ t, exec (.sealedMoveRestored w bad) s = .next t ∧ s.powers t w q ∧ t.pwrc = counted ∧
          t = { s with wq := t.wq, wk := t.wk, pwrc := t.pwrc, trace := t.trace }) ∧
      (s.mild bTCU 4 → s.contained (bING w) = false →
        ∃ t cause, exec (.sealedMoveRestored w [bING w]) s = .next t ∧ s.powers t w q ∧ t.pwrc = counted ∧ cause < 32 ∧
          t.blk bTCU = (if s.severity bTCU 4 = 0 then s.blk bTCU else (s.blk bTCU).setBit 4) ∧
          t.blk (bING w) = (s.blk (bING w)).containedBy cause ∧
          (∀ b, b ≠ bTCU → b ≠ bING w → t.blk b = s.blk b) ∧
          t = { s with wq := t.wq, wk := t.wk, pwrc := t.pwrc, trace := t.trace, blks := t.blks, free := t.free })) ∧
    (s.overdue w = false → exec (.wakeLate w) s = .next { s with conds := noLate }) ∧
    (s.overdue w = true → s.condTrue bTCU 3 = false → s.mild bTCU 3 →
      ∃ t, exec (.wakeLate w) s = .next t ∧ t.conds = (bTCU, 3) :: s.conds ∧ s.setsBit t bTCU 3 ∧
        t = { s with conds := t.conds, blks := t.blks, trace := t.trace }) ∧
    (p.state = .exiting → p.exitFrom = .idle → s.nothingWaits w → p.hand = .none → s.effective w = p.plvl →
      ∃ t, exec (.idleExit w) s = .next t ∧ s.powers t w (p.back s.now) ∧ t = { s with wq := t.wq, wk := t.wk, trace := t.trace })

/-- R334, R337 to R343: a block whose grace expires, or whose CONTAIN source sets, enters its safe state (Table 12.5): a file answers the
slots that wait there ABORTED, a wake builder flushes its leaves, a port is FENCED. An AUTO block recovers after its quiet period unless
its recovery limit makes its exit MANUAL, which is so from the containment on, and a reload brings the image's severities back: log 48
(DEDUCED); the CAUSE after leaving the safe state is a free value (log 4). R348: an alive pin that stops sets PEER_ALIVE until its next
edge. -/
def Obligations.FaultsReact : Prop :=
  ∀ (s : State), s.between →
    (∀ b,
      let x := s.blk b
      let others (t : State) : Prop := ∀ c, c ≠ b → t.blk c = s.blk c
      (x.fstate = .grace → s.clocked b = true → (x.graceEnd + 999) / 1000 ≤ s.now / 1000 →
        let y : Blk := x.containedBy x.graceBy
        (b = bSEAM ∨ b = bIML ∨ (b = bREP ∧ s.onHold = []) ∨ b = bING .q ∨ b = bING .k ∨
            s.joined = [] ∧ (b = bCMB .q ∨ b = bCMB .k ∨ b = bTUN ∨ b = bTCU ∧ s.active .q = true ∧ s.active .k = true) →
          ∃ t, exec (.graceExpiry b) s = .next t ∧ t.blk b = y ∧ others t ∧ t = { s with blks := t.blks, trace := t.trace }) ∧
        (∀ f, f < 8 → b = bFIL f → s.fileRests f →
          ∃ t, exec (.graceExpiry b) s = .next t ∧ t.blk b = y ∧ others t ∧ t.recs = s.recs ∧ s.fileAborts t f) ∧
        (∀ w : Wing, b = bWAKE w →
          ∃ t, exec (.graceExpiry b) s = .next t ∧ t.blk b = y ∧ others t ∧ t.wing w = { s.wing w with beats := [] } ∧
            t.wing w.other = s.wing w.other ∧ (∀ p, t.leaf p = if p < 768 then { ready := 0xFF, bound := 0xFF } else s.leaf p) ∧
            t = { s with blks := t.blks, wq := t.wq, wk := t.wk, leaves := t.leaves, trace := t.trace }) ∧
        (20 ≤ b → b < 36 →
          let p := s.port (b - 20)
          ∃ t, exec (.graceExpiry b) s = .next t ∧ t.blk b = y ∧ others t ∧
            t.port (b - 20) = { p with
              state := if p.loop.isSome then p.state else .fenced, margin := none, quiescing := false, quiesced := false
              peerQuiesce := false, await := none, coldWish := false, coldMine := false, onWake := false } ∧
            (∀ j, j ≠ b - 20 → t.port j = s.port j) ∧
            t = { s with blks := t.blks, ports := t.ports, trace := t.trace
                         chips := (if p.state = .cold then s.coldHeard (b - 20) else s).chips })) ∧
      (x.fstate ≠ .grace ∨ s.clocked b = false ∨ s.now / 1000 < (x.graceEnd + 999) / 1000 → exec (.graceExpiry b) s = .next s) ∧
      (x.fstate = .contained → x.exitImg = true → x.exitMan = false → x.cause ≠ 31 → x.stat.getLsbD 31 = false →
        x.lastSet + x.quietNs ≤ s.now →
        (x.rlimit ≤ x.rcount →
          ∃ t, exec (.autoRecovery b) s = .next t ∧ t.blk b = { x with exitMan := true } ∧ others t ∧ t = { s with blks := t.blks }) ∧
        (x.rcount < x.rlimit → (∀ h ∈ s.held, ∀ late, h.place ≠ .caught b late) →
          (b = bTCU ∨ b = bIML ∨ b = bREP ∨ b = bSEQ .q ∨ b = bSEQ .k →
            ∃ t cause, exec (.autoRecovery b) s = .next t ∧ cause < 32 ∧
              t.blk b = { x with rcount := sat 0xFFFF x.rcount, fstate := .normal, reloading := false, cause := cause } ∧ others t ∧
              t = { s with blks := t.blks, free := t.free, trace := t.trace }) ∧
          (20 ≤ b → b < 36 → s.portOn (b - 20) = true →
            ∃ t cause, exec (.autoRecovery b) s = .next t ∧ cause < 32 ∧
              t.blk b = { x with rcount := sat 0xFFFF x.rcount, fstate := .normal, reloading := false, cause := cause } ∧ others t ∧
              t.port (b - 20) = (s.port (b - 20)).detecting 0 s.now ∧ (∀ j, j ≠ b - 20 → t.port j = s.port j) ∧
              t.out = s.quietOut (b - 20) 5 :: s.out ∧
              t = { s with blks := t.blks, free := t.free, ports := t.ports, out := t.out, trace := t.trace }))) ∧
      (x.fstate ≠ .contained ∨ x.exitImg = false ∨ x.exitMan = true ∨ s.now < x.lastSet + x.quietNs →
        exec (.autoRecovery b) s = .next s) ∧
      (x.fstate = .reload → x.reloading = true → s.iml.released = false →
        (∃ t, exec (.registerReload b false) s = .next t ∧
          t.blk b = { x.setBit 31 with lastSet := s.now, reloading := false } ∧ others t ∧ t = { s with blks := t.blks, trace := t.trace }) ∧
        (x.stat.getLsbD 31 = true →
          ∃ t, exec (.registerReload b true) s = .next t ∧ others t ∧ t = { s with blks := t.blks } ∧
            t.blk b = { x.load b s.img.sevs with
              fstate := .contained, reloading := false, exitMan := decide (x.rlimit ≤ x.rcount) })) ∧
      (∀ ok, x.fstate ≠ .reload ∨ x.reloading = false ∨ s.iml.released = true → exec (.registerReload b ok) s = .next s)) ∧
    -- an eviction whose write-back fails sets ECC_UE of its file (R378), which contains it where the severity says so
    (∀ (obj : BitVec 20) (r : Resident),
      let f := fileOf obj.toNat
      s.resident obj.toNat = some r → r.evicting = true → s.active (wingOf obj.toNat) = true → s.severity (bFIL f) 5 = 3 →
      s.contained (bFIL f) = false → s.fileRests f →
        ∃ t, exec (.writeBack obj true) s = .next t ∧ t.blk (bFIL f) = (s.blk (bFIL f)).struckBy 5 s.now ∧
          (∀ b, b ≠ bFIL f → t.blk b = s.blk b) ∧ t.resident obj.toNat = some { r with evicting := false } ∧
          (∀ n, n ≠ obj.toNat → t.resident n = s.resident n) ∧ s.fileAborts t f) ∧
    (∀ n : BitVec 2,
      let old := tget AliveIn.none s.alive n.toNat
      let pin (t : State) (y : AliveIn) : Prop :=
        ∀ m, tget AliveIn.none t.alive m = if m = n.toNat then y else tget AliveIn.none s.alive m
      let src := 8 + n.toNat
      (∃ t, exec (.aliveInEdge n) s = .next t ∧ pin t { seen := true, still := false, at_ := s.now } ∧
        t = { s with alive := t.alive, conds := s.conds.filter (fun x => x != (bTCU, src)) }) ∧
      (old.seen = false ∨ s.now < old.at_ + 2000 → exec (.aliveInStop n) s = .next s) ∧
      (old.seen = true → old.at_ + 2000 ≤ s.now → s.condTrue bTCU src = false →
        (s.mild bTCU src →
          ∃ t, exec (.aliveInStop n) s = .next t ∧ pin t { old with still := true } ∧ t.conds = (bTCU, src) :: s.conds ∧
            s.setsBit t bTCU src ∧ t = { s with alive := t.alive, conds := t.conds, blks := t.blks, trace := t.trace }) ∧
        -- a CONTAIN source of the TCU, whose safe state keeps both wings ACTIVE
        (s.severity bTCU src = 3 → s.contained bTCU = false → s.active .q = true → s.active .k = true → s.joined = [] →
          ∃ t, exec (.aliveInStop n) s = .next t ∧ pin t { old with still := true } ∧ t.conds = (bTCU, src) :: s.conds ∧
            t.blk bTCU = (s.blk bTCU).struckBy src s.now ∧ (∀ b, b ≠ bTCU → t.blk b = s.blk b) ∧
            t = { s with alive := t.alive, conds := t.conds, blks := t.blks, trace := t.trace })))

/-- R350 to R355: the scrub engine visits row after row, a corrected error enters the row watch, and a second one, or an uncorrectable word,
queues the row, which a live remap moves to the first good spare or whose bank degrades. R356: a retired ply row is displaced. R66, R67,
R360: a repair record goes to the next position of the ledger, compacted when it is full, and a boot record to its area. That a row which
is queued leaves the watch is log 53, when the ledger starts empty and that a failed write is not tried again log 58, and how the boot
record area is scanned log 59 (DEDUCED all three). -/
def Obligations.RepairsApply : Prop :=
  ∀ (s : State) (w : Wing), s.between →
    let x := s.wing w
    let n := x.scrubAt
    let b := n / 512
    let r := n % 512
    let visited : WingSt := { x with
      scrubAt := if n + 1 = 34048 then 0 else n + 1, passCnt := if n + 1 = 34048 then sat 0x7FFF x.passCnt else x.passCnt }
    let becomes (t : State) (y : WingSt) : Prop := t.wing w = y ∧ t.wing w.other = s.wing w.other
    let serviceable : Prop := (s.bank w b).degraded = false ∧ (s.bank w b).retired.contains r = false ∧ x.remapQ.contains (b, r) = false ∧
      (s.bank w b).spareOf r = none ∧ tget 0 (s.bank w b).remaps r < 3
    let dropped : List Watch := x.watch.filter (fun z => !(z.bank == b && z.row == r))
    -- the row watch as a visit leaves it, and, where the visit counts nothing, before that
    let seen (l : List Watch) : List Watch := l.map (fun y => if y.bank = b ∧ y.row = r then { y with since := false } else y)
    let aged : List Watch := x.watch.map (fun y => if y.bank = b ∧ y.row = r ∧ y.since = false then { y with quiet := y.quiet + 1 } else y)
    let struck (c src : Nat) : Blk := if s.severity c src = 0 then s.blk c else (s.blk c).setBit src
    -- reading the rows finds the same as before, but for one row
    let leaves (t : State) (m : Nat) (y : RowFind) : Prop := ∀ v l, t.rowFind v l = if rowKey v l = rowKey w m then y else s.rowFind v l
    (s.active w = true → s.contained bREP = false →
      (s.rowFind w n = .clean →
        (∃ t, exec (.scrubRow w .clean) s = .next t ∧ t = { s with wq := t.wq, wk := t.wk } ∧
          becomes t { visited with watch := if n < 32768 then seen (aged.filter (fun y => decide (y.quiet < 4))) else x.watch }) ∧
        (∀ k, 1 ≤ k → k ≤ 16 → s.mild bREP 0 →
          let corrects (watch : List Watch) (q : List (Nat × Nat)) : Prop :=
            ∃ t, exec (.scrubRow w (.corrected k)) s = .next t ∧ s.setsBit t bREP 0 ∧ leaves t n .clean ∧
              becomes t { visited with ceCnt := satAdd 0xFFFF x.ceCnt k, watch := watch, remapQ := q } ∧
              t = { s with wq := t.wq, wk := t.wk, upsets := t.upsets, blks := t.blks, trace := t.trace }
          (32768 ≤ n → corrects (seen x.watch) x.remapQ) ∧
          (n < 32768 → serviceable →
            (x.watch.find? (fun y => y.bank == b && y.row == r) = none → x.watch.length < 32 →
              corrects (x.watch ++ [{ bank := b, row := r, count := 1, quiet := 0, since := false }]) x.remapQ) ∧
            (∀ y, x.watch.find? (fun y => y.bank == b && y.row == r) = some y → 1 ≤ y.count →
              -- an access between the visits has counted nothing yet
              (∀ z ∈ x.watch, z.bank = b → z.row = r → z.since = false) → corrects dropped (x.remapQ ++ [(b, r)])))) ∧
        (∀ k (lost : BitVec 16), k ≤ 15 → lost ≠ 0 → b < 32 → serviceable → (k = 0 ∨ s.mild bREP 0) →
          let c := bFIL (4 * w.num + b / 8)
          s.mild c 5 →
          ∃ t, exec (.scrubRow w (.uncorrectable k lost)) s = .next t ∧ t.blk c = struck c 5 ∧
            t.blk bREP = (if k = 0 then s.blk bREP else struck bREP 0) ∧ (∀ d, d ≠ c → d ≠ bREP → t.blk d = s.blk d) ∧
            leaves t n (.uncorrectable 0 lost) ∧
            becomes t { visited with
              ceCnt := if k = 0 then x.ceCnt else satAdd 0xFFFF x.ceCnt k, watch := dropped, remapQ := x.remapQ ++ [(b, r)] } ∧
            t = { s with wq := t.wq, wk := t.wk, upsets := t.upsets, blks := t.blks, trace := t.trace })) ∧
      (∀ bad, x.remapQ = [] → exec (.liveRemap w bad) s = .next s) ∧
      (∀ bad b r rest, x.remapQ = (b, r) :: rest → (∀ y ∈ s.onHold, y.1 ≠ .row w) → ¬ (s.holdsRecords = true ∧ 16 ≤ s.iml.queue.length) →
        let y := ((s.bank w b).usable.take bad).foldl (fun z i => z.spoil i) (s.bank w b)
        let record (type spare : Nat) : RepRec :=
          { type := type, wing := w, bank := b, row := if type = 1 then r else 0, spare := spare, rseq := s.rep.rseq, boot := s.iml.bootSeq
            time := s.now, obj0 := none, obj1 := none }
        -- the row has been copied, which corrects it, and its record sent
        let copied : WingSt := { x with ceCnt := satAdd 0xFFFF x.ceCnt (s.rowFind w (512 * b + r)).words }
        let sent (t : State) (q : RepRec) : Prop := t.iml = { s.iml with queue := s.iml.queue ++ [q] } ∧
          t.rep = { s.rep with banks := t.rep.banks, rseq := (s.rep.rseq + 1) % 2 ^ 32 } ∧
          leaves t (512 * b + r) (.make 0 (s.rowFind w (512 * b + r)).lostAt) ∧
          ∀ v c, 64 * v.num + c ≠ 64 * w.num + b → t.bank v c = s.bank v c
        (∀ i, (s.bank w b).usable[bad]? = some i → s.mild bREP 1 →
          ∃ t, exec (.liveRemap w bad) s = .next t ∧ t.bank w b = y.move r i ∧ sent t (record 1 i) ∧ s.setsBit t bREP 1 ∧
            becomes t { copied with remapQ := rest } ∧
            t = { s with wq := t.wq, wk := t.wk, upsets := t.upsets, rep := t.rep, iml := t.iml, blks := t.blks, trace := t.trace }) ∧
        ((s.bank w b).usable[bad]? = none → (s.bank w b).degraded = false → 48 ≤ b → b < 56 → s.degradedIn w = 0 → s.mild bREP 3 →
          ∃ t, exec (.liveRemap w bad) s = .next t ∧ t.bank w b = { y with degraded := true } ∧ sent t (record 3 0) ∧
            s.setsBit t bREP 3 ∧
            becomes t { copied with watch := x.watch.filter (fun z => z.bank != b), remapQ := rest.filter (fun z => z.1 != b) } ∧
            t.mblocks = s.mblocks ++ [{ wing := w, base := 16384 * (b - 48), size := 16384, lost := true }] ∧
            t = { s with wq := t.wq, wk := t.wk, upsets := t.upsets, rep := t.rep, iml := t.iml, mblocks := t.mblocks, blks := t.blks, trace := t.trace })) ∧
      (∀ row err, x.dispQ.contains row = false → exec (.displacementCopy w row err) s = .next s) ∧
      (∀ row, x.dispQ.contains row = true →
        let y : WingSt := { x with dispQ := x.dispQ.filter (fun z => z != row), displaced := x.displaced ++ [row] }
        (∃ t, exec (.displacementCopy w row false) s = .next t ∧ becomes t y ∧ t.out = .rowWrite w row :: s.out ∧
          t = { s with wq := t.wq, wk := t.wk, out := t.out }) ∧
        (s.mild (bSEQ w) 2 →
          ∃ t, exec (.displacementCopy w row true) s = .next t ∧ becomes t { y with checkFail := sat 0xFF x.checkFail } ∧
            t.badPages = insKey s.badPages (15360 + 4096 * w.num + row) ∧ s.setsBit t (bSEQ w) 2 ∧
            t = { s with wq := t.wq, wk := t.wk, badPages := t.badPages, blks := t.blks, trace := t.trace }))) ∧
    (∀ ok c, s.iml.queue = [] ∨ s.holdsRecords = true → exec (.repairRecordAppend ok c) s = .next s) ∧
    (∀ q rest, s.iml.queue = q :: rest → s.holdsRecords = false →
      (∀ c, s.rep.positions ≠ 0 → s.rep.positions < 2048 →
        (exec (.repairRecordAppend true c) s = .next { s with
          iml := { s.iml with queue := rest }, out := .repairRecord s.rep.copyB s.rep.positions q.word :: s.out
          rep := { s.rep with records := s.rep.records ++ [q], positions := s.rep.positions + 1 } }) ∧
        (s.mild bIML 0 → s.mild bIML 1 →
          ∃ t used, exec (.repairRecordAppend false c) s = .next t ∧ used < 2 ∧ t.iml = { s.iml with queue := rest } ∧
            t.rep = { s.rep with positions := s.rep.positions + used, repRuntime := sat 0xFF s.rep.repRuntime } ∧
            (∀ i, i < 32 → (t.blk bIML).stat.getLsbD i =
              ((s.blk bIML).stat.getLsbD i || (decide (i < 2) && decide (s.severity bIML i ≠ 0)))) ∧
            (∀ d, d ≠ bIML → t.blk d = s.blk d) ∧
            t = { s with iml := t.iml, rep := t.rep, blks := t.blks, free := t.free, trace := t.trace })) ∧
      (s.rep.positions = 0 ∨ 2048 ≤ s.rep.positions →
        let l := inEffect s.rep.records
        let gen := (s.rep.copyGen + 1) % 2 ^ 32
        exec (.repairRecordAppend true true) s = .next { s with
          iml := { s.iml with queue := rest }
          out := .repairRecord (!s.rep.copyB) (1 + l.length) q.word ::
            .compacted (!s.rep.copyB) (ledgerHeader gen :: l.map RepRec.word) :: s.out
          rep := { s.rep with records := l ++ [q], positions := 2 + l.length, copyB := !s.rep.copyB, copyGen := gen } })) ∧
    (∀ ok b0 b1, s.bootRecordDue = false → exec (.bootRecordAppend ⟨ok, b0, b1⟩) s = .next s) ∧
    (∀ b0 b1, s.bootRecordDue = true → s.iml.release = false →
      -- an area that REPAIR has not scanned is scanned first
      let u : State := if s.iml.scanned then s else s.scanBoot b0 b1
      (u.iml.bootNext < 128 →
        exec (.bootRecordAppend ⟨true, b0, b1⟩) s = .next { u with
          out := .bootRecord u.iml.bootSector u.iml.bootNext u.bootRecord.word :: s.out
          iml := { u.iml with bootDone := true, bootNext := u.iml.bootNext + 1 } } ∧
        (s.mild bIML 0 → ∃ t, exec (.bootRecordAppend ⟨false, b0, b1⟩) s = .next t ∧ s.setsBit t bIML 0 ∧
          t.iml = { u.iml with bootDone := true, bootNext := u.iml.bootNext + 1 } ∧
          t = { s with iml := t.iml, blks := t.blks, trace := t.trace })) ∧
      (128 ≤ u.iml.bootNext →
        exec (.bootRecordAppend ⟨true, b0, b1⟩) s = .next { u with
          out := .bootRecord (!u.iml.bootSector) 0 u.bootRecord.word :: .sectorErase (!u.iml.bootSector) :: s.out
          iml := { u.iml with bootDone := true, bootSector := !u.iml.bootSector, bootNext := 1 } }))

/-- R43 to R70, R380: PORESET_N clears the block but for the flash, the stacked memory and the test access, and start-up then goes stage by
stage from AON_UP to READY; a check that fails ends it in HALTED with its code or tries the other slot, and at ALM_READY every enabled
position holds both votes (R315) and the wave of ALIVE_OUT begins (R347). What the stages take from the directory, the ledger and the boot
record area is log 57 to 59, what PORESET_N clears log 60, and when WING_UP ends log 69 (DEDUCED all of them). -/
def Obligations.StartUpStages : Prop :=
  ∀ (s : State),
    (∃ t, exec .poresetAssert s = .next t ∧ s.cleared t ∧ t.iml.porLow = true ∧ t.iml.stage = .aonUp ∧
      t.tap = { s.tap with mbist := false }) ∧
    (s.iml.porLow = false → exec .poresetRelease s = .next s) ∧
    (s.iml.porLow = true →
      (s.tap.ir = .extest → exec .poresetRelease s = .next { s with iml := { s.iml with porLow := false } }) ∧
      (s.tap.ir ≠ .extest → exec .poresetRelease s = .next { s with
        now := 0, iml := { s.iml with porLow := false, stage := .aonUp, holdStop := s.tap.holdBoot } })) ∧
    (s.starting .aonUp →
      (∃ t, exec (.aonUp true) s = .next t ∧ t.iml = { s.iml with stage := .wingUp } ∧
        (∀ w, t.wing w = { s.wing w with pwr := { s.pwr w with regEn := true, regLvl := 1, hand := .reg, reqAt := s.now } }) ∧
        t = { s with iml := t.iml, wq := t.wq, wk := t.wk }) ∧
      (∃ t, exec (.aonUp false) s = .next t ∧ s.halts t 6 ∧ t = { s with iml := t.iml, wq := t.wq, wk := t.wk, blks := t.blks, trace := t.trace })) ∧
    (s.starting .wingUp →
      ((∀ w, (s.pwr w).risen = true) →
        ∃ t, exec .wingUp s = .next t ∧
          t.iml = (if s.iml.holdStop = true ∧ s.tap.holdBoot = true then s.iml else { s.iml with stage := .discovery }) ∧
          (∀ w, t.wing w = { s.wing w with pwr := { s.pwr w with state := .active, plvl := 1, target := 1 } }) ∧
          t = { s with iml := t.iml, wq := t.wq, wk := t.wk, trace := t.trace }) ∧
      ((∃ w, (s.pwr w).risen = false) → exec .wingUp s = .next s) ∧
      ((∃ w, (s.pwr w).dead s.now = true) →
        ∃ t, exec .wingPowerTimeout s = .next t ∧ s.halts t 4 ∧
          t = { s with iml := t.iml, wq := t.wq, wk := t.wk, blks := t.blks, trace := t.trace }) ∧
      ((∀ w, (s.pwr w).dead s.now = false) → exec .wingPowerTimeout s = .next s)) ∧
    (∀ x dir0 dir1, s.starting .discovery →
      let mode := flashModeOf s.rom x
      let read : State := { s with pins := { s.pins with flResetN := true }, iml := { s.iml with flashMode := mode, sfdp := x } }
      (mode = 0 → ∃ t, exec (.discovery x dir0 dir1) s = .next t ∧ read.halts t 3 ∧ t.pins.flResetN = true) ∧
      (mode ≠ 0 → chooseDir (parseDir dir0 x.density) (parseDir dir1 x.density) = none →
        ∃ t, exec (.discovery x dir0 dir1) s = .next t ∧ read.halts t 2 ∧ t.pins.flResetN = true) ∧
      (∀ copy d, mode ≠ 0 → chooseDir (parseDir dir0 x.density) (parseDir dir1 x.density) = some (copy, d) →
        exec (.discovery x dir0 dir1) s = .next { read with
          iml := { read.iml with stage := .load, dir := some d, dirCopy := copy, chip := d.chipId, trying := some d.preferB } })) ∧
    (∀ d b r, s.starting .load → s.iml.dir = some d → s.iml.trying = some b → s.rep.bistRows = [] →
      (∀ m, s.loadCheck d b r = .ok m →
        exec (.load r) s = .next { s with iml := { s.iml with stage := .verify, staged := some m } }) ∧
      (∀ code, s.loadCheck d b r = .error code → ∃ t, exec (.load r) s = .next t ∧ s.slotFailed t b code)) ∧
    (∀ o m b, s.starting .verify → s.iml.staged = some m → s.iml.trying = some b →
      (∀ code, verifyCode s.rom m (s.otpMinimum o) = some code → ∃ t, exec (.verify o) s = .next t ∧ s.slotFailed t b code) ∧
      (verifyCode s.rom m (s.otpMinimum o) = none → (s.readOtp o).loadBody m.body = none →
        ∃ t, exec (.verify o) s = .next t ∧ s.slotFailed t b 8) ∧
      -- a failed read of the OTP is a failure of every later slot too (R57)
      (s.rom.otpOn = true → o = .failed ∨ s.iml.otpBad = true → s.otpMinimum o = none ∧ (s.readOtp o).iml.otpBad = true) ∧
      (∀ u, verifyCode s.rom m (s.otpMinimum o) = none → (s.readOtp o).loadBody m.body = some u →
        ∃ t, exec (.verify o) s = .next t ∧ t.iml.stage = .bist ∧ t.iml.slotB = b ∧ t.iml.buildId = m.hdr.buildId ∧
          t.iml.secVersion = m.hdr.secVersion ∧ t.iml.relVersion = m.hdr.relVersion ∧ (if b then t.iml.failB else t.iml.failA) = 1 ∧
          (∀ k, k < 37 → t.blk k = (u.blk k).load k m.body.sevs) ∧ t = { u with iml := t.iml, blks := t.blks })) ∧
    (s.starting .bist →
      (∀ corrected, exec (.bist corrected []) s = .next { s with
        rep := { s.rep with bistRows := corrected }, iml := { s.iml with stage := .repair } }) ∧
      (∀ corrected x, s.iml.restarted = false →
        ∃ t, exec (.bist corrected [x]) s = .next t ∧ t.iml.stage = .load ∧ t.iml.restarted = true ∧
          t.iml.trying = some s.iml.slotB ∧ t.zeroed) ∧
      (∀ corrected x bad, s.iml.restarted = true ∨ bad ≠ [] →
        ∃ t, exec (.bist corrected (x :: bad)) s = .next t ∧ s.halts t 5)) ∧
    (∀ c0 c1 b0 b1, s.starting .repair → s.rep.bistRows = [] →
      let l := ((copyInUse c0 c1).map (fun y => y.2.2)).getD []
      let found (t : State) : Prop := t.iml.scanned = true ∧
        (t.iml.bootSeq, t.iml.bootSector, t.iml.bootNext) = scanBoots b0 b1 ∧ t.rep.records = l.filterMap repRecOf ∧
        t.rep.copyB = ((copyInUse c0 c1).map Prod.fst).getD true ∧
        t.rep.positions = (if (copyInUse c0 c1).isSome
          then (freeFrom 2048 (lastValid 0 l + 1) (l.drop (lastValid 0 l + 1))).getD 2048 else 0)
      (∃ t, exec (.repair c0 c1 ⟨b0, b1⟩ none) s = .next t ∧ t.iml.stage = .linkTrain ∧ found t ∧
        ∀ k, t.port k = if k < 16 ∧ s.portOn k = true ∧ (s.port k).loop = none then (s.port k).detecting 0 s.now else s.port k) ∧
      (∀ y,
        (s.iml.restarted = false →
          ∃ t, exec (.repair c0 c1 ⟨b0, b1⟩ (some y)) s = .next t ∧ found t ∧ t.iml.stage = .load ∧ t.iml.restarted = true ∧
            t.iml.trying = some s.iml.slotB ∧ t.zeroed) ∧
        (s.iml.restarted = true →
          ∃ t, exec (.repair c0 c1 ⟨b0, b1⟩ (some y)) s = .next t ∧ found t ∧ t.iml.stage = .halted ∧ t.iml.halt = 5))) ∧
    (s.starting .linkTrain → s.rep.banks = [] → s.rep.slowObjs = [] → (∀ f, f < 8 → s.roomy f) → (∀ k, k < 32 → (s.seqEnt k).autostart = false) →
      ∃ t, exec .linkTrain s = .next t ∧
        t.iml = { s.iml with stage := .ready, trying := none, readyUs := s.now / 1000 } ∧
        (∀ p, p < 768 → ∀ w, t.vote w p = ((s.posEnt p).enabled || s.vote w p)) ∧
        ((∀ b, b < 37 → s.contained b = false) → t.trace.wave = { run := true, at_ := s.now, high := s.trace.wave.high }) ∧
        t = { s with spent := [], iml := t.iml, votes := t.votes, wq := t.wq, wk := t.wk, trace := t.trace })

/-- R393 to R401: the TAP's instructions have the codes of Table 17.1 and select what it says, EXTEST holds the block in reset, and leaving
it starts the block again; INTEST needs wrapper access; a boot hold stops start-up until HOLD_BOOT is clear; MBIST runs only in a boot hold
and reports PASS by bank; loopbacks run on OFF or DOWN ports and margining on FAST ones, within its ranges; REGREAD reads as domain 0 does.
A request at another time is REFUSED. That IDCODE is the instruction after TRST_N is log 9 (PRESUMED), what an access inserts, a point
outside the ranges and what ABORT_AT 0 does log 98 (DESIGN CHOICE), what the instruments keep log 61 (DEDUCED). -/
def Obligations.TestAccessActs : Prop :=
  (∀ i, tapInstr (TapInstr.code i) = i) ∧ (∀ c : BitVec 8, (∀ i, TapInstr.code i ≠ c) → tapInstr c = .bypass) ∧
  ∀ (s : State),
    -- an access to an instrument of the network inserts its segment
    let scans (i : Instrument) : Tap := { s.tap with sib := BitVec.twoPow 37 i.sib }
    (∀ row i, (row = Instr.idcode ∧ i = TapInstr.idcode ∨ row = .wrapSel ∧ i = .wrapSel ∨ row = .bypass ∧ i = .bypass) →
      let tap : Tap := { s.tap with ir := i, bypass := if i = .bypass then false else s.tap.bypass }
      (i = .idcode → tap.dataReg = some ((List.range 32).map (0xBA16174B : BitVec 32).getLsbD)) ∧
      (s.tap.ir ≠ .extest ∨ s.iml.porLow = true → exec row s = .next { s with tap := tap }) ∧
      (s.tap.ir = .extest → s.iml.porLow = false → exec row s = .next { s with
        tap := tap, now := 0, iml := { s.iml with stage := .aonUp, holdStop := s.tap.holdBoot } })) ∧
    (∀ balls, s.tap.ir ≠ .extest →
      exec (.samplePreload balls) s = .next { s with tap := { s.tap with ir := .samplePreload, boundary := balls } }) ∧
    (∃ t, exec .extest s = .next t ∧ t.tap = { s.tap with ir := .extest, mbist := false } ∧ t.inReset = true ∧ s.cleared t ∧
      t.iml.porLow = s.iml.porLow ∧
      -- the balls come from the boundary register
      ∀ b i, Ball.cell b = some i → t.ball b = some (s.tap.boundary.getD i false)) ∧
    (s.iml.porLow = false ∨ s.tap.ir ≠ .wrapSel → exec .intest s = .next s) ∧
    (s.iml.porLow = true → s.tap.ir = .wrapSel →
      ∃ t, exec .intest s = .next t ∧ s.cleared t ∧ t.iml.porLow = true ∧ t.tap = { s.tap with mbist := false }) ∧
    (∀ off : BitVec 20,
      (s.network = false → exec (.regread off) s = .next s) ∧
      (s.network = true → (∀ w, regWing off.toNat = some w → (s.pwr w).powered = true) →
        (faultRegAt off.toNat).all (fun x => x.2 != 0) = true →
        exec (.regread off) s = .next { s with tap := { scans .regread with regData := BitVec.ofNat 48 (s.readReg 0 off.toNat) } }) ∧
      (∀ b, s.network = true → faultRegAt off.toNat = some (b, 0) → (∀ w, regWing off.toNat = some w → (s.pwr w).powered = true) →
        exec (.regread off) s = .next { s with tap := { scans .regread with
          regData := BitVec.ofNat 48 (s.readReg 0 off.toNat + (s.blk b).sqn.toNat * 2 ^ 32) } }) ∧
      (∀ w, s.network = true → regWing off.toNat = some w → (s.pwr w).powered = false →
        exec (.regread off) s = .next { s with tap := { scans .regread with regData := 0 } })) ∧
    (∀ count, exec (.pathdly count) s = .next (if s.network then { s with tap := { scans .pathdly with pathdly := count } } else s)) ∧
    (∀ v : BitVec 32, exec (.traceEnable .test .data v) s = .next (if s.network then { s with tap := { scans .trace with
      traceData := BitVec.ofNat 128 (((tget none s.trace.recs (v.toNat % 4096)).map TraceRec.bits).getD 0) } } else s)) ∧
    (s.network = true →
      (s.bootHeld = true → exec .mbist s = .next { s with tap := { scans .mbist with
        mbist := true, mbistEnd := false, mbistRefused := false, mbistRows := [], mbistSpares := [] } }) ∧
      (s.bootHeld = false → exec .mbist s = .next { s with tap := { scans .mbist with mbistRefused := true } })) ∧
    (∀ rows spares, s.calm → s.tap.mbist = true →
      ∃ t, exec (.mbistDone rows spares) s = .next t ∧
        t.tap = { s.tap with mbist := false, mbistEnd := true, mbistRows := rows, mbistSpares := spares } ∧
        (∀ w b, t.tap.pass w b = (rows ++ spares).all (fun x => x.wing != w || x.bank != b)) ∧
        t.zeroed ∧ t.rep.bistRows = rows.foldl insRow [] ∧
        (s.bootHeld = true → s.tap.holdBoot = false → s.anyLoop = false → t.iml.stage = .discovery) ∧
        (s.tap.holdBoot = true → t.iml.stage = s.iml.stage)) ∧
    (∀ (k : BitVec 4) mode, s.network = true →
      let others (t : State) : Prop := ∀ j, j ≠ k.toNat → t.port j = s.port j
      let p := s.port k.toNat
      let bit : BitVec 16 := BitVec.twoPow 16 k.toNat
      ((p.state = .off ∨ p.state = .down) →
        ∃ t, exec (.loopback k mode) s = .next t ∧ others t ∧ t.port k.toNat = { p with loop := some mode, loopRes := none } ∧
          t = { s with ports := t.ports, tap := { scans (.loop k.toNat) with loopRefused := s.tap.loopRefused &&& ~~~ bit } }) ∧
      (p.state ≠ .off → p.state ≠ .down →
        exec (.loopback k mode) s = .next { s with tap := { scans (.loop k.toNat) with loopRefused := s.tap.loopRefused ||| bit } }) ∧
      (∀ phase threshold dwell abortAt,
        let fits : Prop := -32 ≤ phase ∧ phase ≤ 32 ∧ -50 ≤ threshold ∧ threshold ≤ 50 ∧ 16 ≤ dwell ∧ dwell ≤ 30 ∧ abortAt ≤ 255
        (p.state = .fast → fits →
          ∃ t, exec (.margin k phase threshold dwell abortAt) s = .next t ∧ others t ∧
            t.port k.toNat = { p with
              margin := some { phase := phase, threshold := threshold, dwell := dwell, headers := 0, crcs := 0, replays := 0 }
              marginRes := none, abortAt := if abortAt = 0 then p.abortAt else abortAt } ∧
            t = { s with ports := t.ports, tap := { scans (.margin k.toNat) with marginRefused := s.tap.marginRefused &&& ~~~ bit } }) ∧
        (p.state ≠ .fast ∨ ¬ fits →
          exec (.margin k phase threshold dwell abortAt) s = .next { s with tap := { scans (.margin k.toNat) with
            marginRefused := s.tap.marginRefused ||| bit } }))) ∧
    (∀ (k : BitVec 4) errors sent rejected matched m, s.calm → s.inReset = false → (s.port k.toNat).loop = some m → s.bootHeld = false →
      let p := s.port k.toNat
      let held : Prop := s.contained (bSHP k.toNat) = true
      held ∨ p.state = .down ∨ s.portOn k.toNat = false →
      ∃ t, exec (.loopbackStop k errors sent rejected matched) s = .next t ∧ (∀ j, j ≠ k.toNat → t.port j = s.port j) ∧
        t.port k.toNat = { p with
          loop := none, loopRes := some (Nat.min 0xFFFFFFFF errors, sent, rejected, matched)
          state := if s.contained (bSHP k.toNat) then .fenced else p.state } ∧
        t = { s with ports := t.ports }) ∧
    (∀ (k : BitVec 4) headers crcs replays,
      let p := s.port k.toNat
      (p.margin = none → exec (.marginDwellEnd k headers crcs replays) s = .next s) ∧
      (∀ m, p.margin = some m →
        let sum := m.headers + headers + (m.crcs + crcs) + (m.replays + replays)
        ∃ t, exec (.marginDwellEnd k headers crcs replays) s = .next t ∧ (∀ j, j ≠ k.toNat → t.port j = s.port j) ∧
          t.port k.toNat = { p with
            margin := none, marginRes := some (m.headers + headers, m.crcs + crcs, m.replays + replays, decide (p.abortAt ≤ sum)) } ∧
          t = { s with ports := t.ports })) ∧
    (s.calm → (∀ k, k < 16 → (s.port k).loop = none) → s.anyLoop = false →
      (s.tap.ir ≠ .extest →
        (∀ b, s.bootHeld = false ∨ b = true →
          exec (.ijtag b) s = .next { s with tap := { scans .bootctl with ir := .ijtag, holdBoot := b } }) ∧
        (s.bootHeld = true → s.tap.holdBoot = true → s.tap.mbist = false → ∀ row, (row = Instr.ijtag false ∨
            row = .holdBootClear ∧ s.network = true) →
          exec row s = .next { s with
            tap := { scans .bootctl with ir := .ijtag, holdBoot := false }, iml := { s.iml with stage := .discovery, holdStop := false } }) ∧
        (s.network = true → s.bootHeld = false →
          exec .holdBootClear s = .next { s with tap := { scans .bootctl with holdBoot := false } }) ∧
        (s.network = false → exec .holdBootClear s = .next s)) ∧
      (s.tap.ir ≠ .extest → s.bootHeld = false →
        ∃ t, exec .tapReset s = .next t ∧
          t.tap = {
            ir := .idcode, bypass := false, sib := 0, holdBoot := false, boundary := [], mbist := false, mbistEnd := false, mbistRows := []
            mbistSpares := [], regData := 0, traceData := 0, pathdly := 0, mbistRefused := false, loopRefused := 0, marginRefused := 0 } ∧
          (∀ k, t.port k = if k < 16 then { s.port k with margin := none, marginRes := none, loopRes := none, abortAt := 16 }
            else s.port k) ∧
          t = { s with tap := t.tap, ports := t.ports }))

/-! ### The whole block -/

/-- The block takes the command at the front of its queue and runs it on the queue's rest. With no command waiting a cycle of CLK_AON
passes (the model's choice, log 12): 20 ns of the timebase out of reset, with the µs tick that it reaches, and nothing in reset. Of two commands of one cycle at most one must come before the other, and
commands that stand in an allowed order are queued behind those that wait. -/
def Obligations.StepRunsFront : Prop :=
  ∀ (s : State),
    (∀ c rest, s.pending = c :: rest → step s = exec c { s with pending := rest }) ∧
    (∀ heads a b, s.first heads a b = true → s.first heads b a = false) ∧
    (∀ a b rest, (∀ heads, s.first heads b a = true) → b ∈ rest → s.enqueueCycle (a :: rest) = s) ∧
    (∀ l, s.cycleOk l = true → s.enqueueCycle l = { s with pending := s.pending ++ l }) ∧
    (s.pending = [] → s.inReset = true → step s = .next s) ∧
    (s.pending = [] → s.inReset = false → s.tsync.slew = 0 →
      ((s.now + 20) / 1000 = s.now / 1000 →
        ∃ t, step s = .next t ∧ s.passes t 20 ∧
          t = { s with now := t.now, tsync := t.tsync, trace := t.trace, lockDir := t.lockDir, dirLag := t.dirLag, wq := t.wq, wk := t.wk }) ∧
      ((s.now + 20) / 1000 ≠ s.now / 1000 → s.between → s.tickRests →
        ∃ t, step s = .next t ∧ s.passes t 20 ∧ s.bucketsGain t ∧
          t = { s with now := t.now, spent := t.spent, tsync := t.tsync, trace := t.trace, lockDir := t.lockDir, dirLag := t.dirLag
                       wq := t.wq, wk := t.wk }))

/-- Reset leaves every register at the value of the Reset column of its table, and the pins at those of Table 15.1; no command waits,
no image, object, slot, entry or message is there, and no work is left over. That what has no reset value in the spec starts empty is
log 3 (DESIGN CHOICE), and that PORESET_N is low right after reset log 6 (DEDUCED). -/
def Obligations.ResetValues : Prop :=
  (∀ off r, regAt off = some r → State.reset.readReg 0 off = (match r with
    | .pwrStat => 0xC9C0C9C0
    | .wake _ 0 => 0xE00000
    | .ingLoad _ => 0x60000000
    | .fault b i => if b = bIML ∧ i = 2 then 0x2000 else 0
    | _ => 0)) ∧
  State.reset.readReg 0 0x10180 = 0xC9C0C9C0 ∧ State.reset.readReg 0 0x101A0 = 0xE00000 ∧
  State.reset.readReg 0 0x101B0 = 0xE00000 ∧ State.reset.readReg 0 0x70040 = 0x60000000 ∧
  State.reset.readReg 0 0xB0040 = 0x60000000 ∧ State.reset.readReg 0 0x20028 = 0x2000 ∧
  State.reset.pending = [] ∧ State.reset.calm ∧ State.reset.inReset = true ∧ State.reset.ready = false ∧
  State.reset.pins.flResetN = false ∧
  (∀ v, (State.reset.pwr v).regEn = false ∧ (State.reset.pwr v).regLvl = 1 ∧ (State.reset.pwr v).oscEn = false ∧
    (State.reset.pwr v).memLvl = 3 ∧ (State.reset.pwr v).thrAck = true) ∧
  (∀ p, State.reset.wakeLine p = false ∧ (State.reset.lane p).d = none ∧ (State.reset.lane p).l = none) ∧
  (∀ n, State.reset.resident n = none) ∧ (∀ p i, State.reset.slot p i = none) ∧ (∀ b, State.reset.irq b = false)

/-- The model's invariant: a step of a state in which no work is left over, SEAM_OCC's peaks are no lower than what the seam holds, the
wave of ALIVE_OUT runs exactly while the block runs with nothing contained (R347), and FL_RESET_N is high 50 µs after PORESET_N (R44),
leaves such a state, whichever command it takes. That no work is left over is log 16 (DESIGN CHOICE), and what the seam's occupancy counts
log 30 (DEDUCED). -/
def Obligations.CalmStep : Prop :=
  ∀ (s t : State), s.calm → step s = .next t → t.calm

/-- Table 3.1: the word of every well-formed agent command decodes to that command, a reserved opcode's word to the reserved row, and
each 128-bit word is the word of the command it decodes to: no bit of a command word is dropped. -/
def Obligations.CommandWordRoundTrip : Prop :=
  (∀ (i : Instr) (op : Op) (src : Src) (w : CmdW), i.wf = true → commandOf i = some (op, src, w) →
    decodeCommand src (encode i) = i) ∧
  (∀ (src : Src) (w : CmdW) (opc : BitVec 6), (Instr.reservedOpcode src w opc).wf = true →
    decodeCommand src (encode (.reservedOpcode src w opc)) = .reservedOpcode src w opc) ∧
  (∀ (src : Src) (x : BitVec 128), encode (decodeCommand src x) = x)
end

