-- ==== Sys2Proof/Laws/Table.lean ====
section
/-! SUPPORT. Tables: a read after a write, and the canonical form that every table operation keeps. -/
namespace Sys2Proof

variable {α : Type}

theorem tget_tdel (d : α) (t : Table α) (n m : Nat) :
    tget d (tdel t n) m = if m = n then d else tget d t m := by
  induction t with
  | nil => simp [tdel, tget]
  | cons p t ih =>
    obtain ⟨k, v⟩ := p
    unfold tdel
    split <;> rename_i h
    · subst h
      rw [ih]
      split <;> rename_i hm
      · rfl
      · rw [tget, if_neg (Ne.symm hm)]
    · rw [tget, tget, ih]
      split <;> rename_i hk
      · subst hk; rw [if_neg h]
      · rfl

theorem tget_tput (d : α) (t : Table α) (n m : Nat) (x : α) :
    tget d (tput t n x) m = if m = n then x else tget d t m := by
  induction t with
  | nil => simp only [tput, tget, eq_comm]
  | cons p t ih =>
    obtain ⟨k, v⟩ := p
    unfold tput
    split
    · rw [tget]
      simp only [eq_comm]
    · split <;> rename_i hk
      · subst hk
        rw [tget, tget]
        simp only [eq_comm (a := m)]
        split <;> rfl
      · rw [tget, tget, ih]
        split <;> rename_i h
        · subst h; rw [if_neg hk]
        · rfl

/-- A read after a write gives what was written, and every other key reads as before. -/
@[simp] theorem tget_tset [DecidableEq α] (d : α) (t : Table α) (n m : Nat) (x : α) :
    tget d (tset d t n x) m = if m = n then x else tget d t m := by
  unfold tset
  split
  · rename_i h; subst h; exact tget_tdel ..
  · exact tget_tput ..

@[simp] theorem tget_tmod [DecidableEq α] (d : α) (t : Table α) (n m : Nat) (f : α → α) :
    tget d (tmod d t n f) m = if m = n then f (tget d t n) else tget d t m := by
  simp [tmod]

@[simp] theorem tget_nil (d : α) (n : Nat) : tget d [] n = d := rfl

theorem twfFrom_mono [DecidableEq α] (d : α) (t : Table α) (lo lo' : Option Nat)
    (h : ∀ l', lo' = some l' → ∃ l, lo = some l ∧ l' ≤ l) (w : twfFrom d lo t = true) : twfFrom d lo' t = true := by
  cases t with
  | nil => simp [twfFrom]
  | cons p t =>
    obtain ⟨k, v⟩ := p
    simp only [twfFrom, Bool.and_eq_true] at w ⊢
    refine ⟨⟨?_, w.1.2⟩, w.2⟩
    cases lo' with
    | none => simp
    | some l' =>
      obtain ⟨l, hl, hle⟩ := h l' rfl
      have := w.1.1
      simp [hl] at this ⊢
      omega

theorem twfFrom_tdel [DecidableEq α] (d : α) (t : Table α) (n : Nat) (lo : Option Nat) (w : twfFrom d lo t = true) :
    twfFrom d lo (tdel t n) = true := by
  induction t generalizing lo with
  | nil => simp [tdel, twfFrom]
  | cons p t ih =>
    obtain ⟨k, v⟩ := p
    simp only [twfFrom, Bool.and_eq_true] at w
    unfold tdel
    split
    · refine ih lo (twfFrom_mono d t (some k) lo ?_ w.2)
      intro l' hl'
      have := w.1.1
      simp [hl'] at this
      exact ⟨k, rfl, by omega⟩
    · simp only [twfFrom, Bool.and_eq_true]
      exact ⟨w.1, ih _ w.2⟩

theorem twfFrom_tput [DecidableEq α] (d : α) (t : Table α) (n : Nat) (x : α) (hx : x ≠ d) (lo : Option Nat)
    (hlo : ∀ l, lo = some l → l < n) (w : twfFrom d lo t = true) : twfFrom d lo (tput t n x) = true := by
  induction t generalizing lo with
  | nil =>
    simp only [tput, twfFrom, Bool.and_eq_true]
    cases lo <;> simp_all
  | cons p t ih =>
    obtain ⟨k, v⟩ := p
    simp only [twfFrom, Bool.and_eq_true] at w
    unfold tput
    split
    · simp only [twfFrom, Bool.and_eq_true]
      refine ⟨⟨?_, by simpa using hx⟩, ⟨by simpa, w.1.2⟩, w.2⟩
      cases lo <;> simp_all
    · split
      · rename_i hk; subst hk
        simp only [twfFrom, Bool.and_eq_true]
        refine ⟨⟨?_, by simpa using hx⟩, w.2⟩
        cases lo <;> simp_all
      · simp only [twfFrom, Bool.and_eq_true]
        refine ⟨w.1, ih (some k) ?_ w.2⟩
        intro l hl
        cases hl
        omega

/-- Writing an entry keeps the canonical form. -/
theorem twf_tset [DecidableEq α] (d : α) (t : Table α) (n : Nat) (x : α) (w : twf d t = true) :
    twf d (tset d t n x) = true := by
  unfold tset
  split
  · exact twfFrom_tdel d t n none w
  · rename_i h
    exact twfFrom_tput d t n x h none (by simp) w

theorem twf_tmod [DecidableEq α] (d : α) (t : Table α) (n : Nat) (f : α → α) (w : twf d t = true) :
    twf d (tmod d t n f) = true := twf_tset d t n _ w

theorem twfFrom_lt [DecidableEq α] (d : α) (t : Table α) (l n : Nat) (w : twfFrom d (some l) t = true) (h : n ≤ l) :
    tget d t n = d := by
  induction t generalizing l with
  | nil => rfl
  | cons p t ih =>
    obtain ⟨k, v⟩ := p
    simp only [twfFrom, Bool.and_eq_true, Option.all_some, decide_eq_true_eq] at w
    have hk : k ≠ n := by omega
    simp only [tget, if_neg hk]
    exact ih k w.2 (by omega)

/-- Two canonical tables that read alike are the same table. -/
theorem twfFrom_ext [DecidableEq α] (d : α) (t u : Table α) (lo lo' : Option Nat) (wt : twfFrom d lo t = true)
    (wu : twfFrom d lo' u = true) (h : ∀ n, tget d t n = tget d u n) : t = u := by
  induction t generalizing u lo lo' with
  | nil =>
    cases u with
    | nil => rfl
    | cons q u =>
      obtain ⟨j, y⟩ := q
      simp only [twfFrom, Bool.and_eq_true, decide_eq_true_eq] at wu
      have := h j
      simp [tget] at this
      exact absurd this.symm wu.1.2
  | cons p t ih =>
    obtain ⟨k, v⟩ := p
    simp only [twfFrom, Bool.and_eq_true, decide_eq_true_eq] at wt
    cases u with
    | nil =>
      have := h k
      simp [tget] at this
      exact absurd this wt.1.2
    | cons q u =>
      obtain ⟨j, y⟩ := q
      simp only [twfFrom, Bool.and_eq_true, decide_eq_true_eq] at wu
      have hkj : k = j := by
        rcases Nat.lt_trichotomy k j with hlt | heq | hlt
        · have := h k
          rw [tget, if_pos rfl, tget, if_neg (by omega), twfFrom_lt d u j k wu.2 (by omega)] at this
          exact absurd this wt.1.2
        · exact heq
        · have := h j
          rw [tget, if_neg (by omega), twfFrom_lt d t k j wt.2 (by omega), tget, if_pos rfl] at this
          exact absurd this.symm wu.1.2
      subst hkj
      have hv : v = y := by simpa [tget] using h k
      subst hv
      have : t = u := ih u (some k) (some k) wt.2 wu.2 (fun n => by
        by_cases hn : k = n
        · subst hn
          rw [twfFrom_lt d t k k wt.2 (Nat.le_refl _), twfFrom_lt d u k k wu.2 (Nat.le_refl _)]
        · simpa [tget, hn] using h n)
      rw [this]

end Sys2Proof
end

