-- ==== Sys2Proof/Laws/State.lean ====
section
/-! SUPPORT. What each update of the state leaves alone, field by field. -/
namespace Sys2Proof.Machine

/-! ### modWing -/

@[simp] theorem State.modWing_pending (s : State) (w : Wing) (f : WingSt → WingSt) : (s.modWing w f).pending = s.pending := by cases w <;> rfl
@[simp] theorem State.modWing_now (s : State) (w : Wing) (f : WingSt → WingSt) : (s.modWing w f).now = s.now := by cases w <;> rfl
@[simp] theorem State.modWing_free (s : State) (w : Wing) (f : WingSt → WingSt) : (s.modWing w f).free = s.free := by cases w <;> rfl
@[simp] theorem State.modWing_todo (s : State) (w : Wing) (f : WingSt → WingSt) : (s.modWing w f).todo = s.todo := by cases w <;> rfl
@[simp] theorem State.modWing_onHold (s : State) (w : Wing) (f : WingSt → WingSt) : (s.modWing w f).onHold = s.onHold := by cases w <;> rfl
@[simp] theorem State.modWing_upsets (s : State) (w : Wing) (f : WingSt → WingSt) : (s.modWing w f).upsets = s.upsets := by cases w <;> rfl
@[simp] theorem State.modWing_out (s : State) (w : Wing) (f : WingSt → WingSt) : (s.modWing w f).out = s.out := by cases w <;> rfl
@[simp] theorem State.modWing_iml (s : State) (w : Wing) (f : WingSt → WingSt) : (s.modWing w f).iml = s.iml := by cases w <;> rfl
@[simp] theorem State.modWing_rom (s : State) (w : Wing) (f : WingSt → WingSt) : (s.modWing w f).rom = s.rom := by cases w <;> rfl
@[simp] theorem State.modWing_pins (s : State) (w : Wing) (f : WingSt → WingSt) : (s.modWing w f).pins = s.pins := by cases w <;> rfl
@[simp] theorem State.modWing_img (s : State) (w : Wing) (f : WingSt → WingSt) : (s.modWing w f).img = s.img := by cases w <;> rfl
@[simp] theorem State.modWing_posmap (s : State) (w : Wing) (f : WingSt → WingSt) : (s.modWing w f).posmap = s.posmap := by cases w <;> rfl
@[simp] theorem State.modWing_votes (s : State) (w : Wing) (f : WingSt → WingSt) : (s.modWing w f).votes = s.votes := by cases w <;> rfl
@[simp] theorem State.modWing_use (s : State) (w : Wing) (f : WingSt → WingSt) : (s.modWing w f).use = s.use := by cases w <;> rfl
@[simp] theorem State.modWing_spent (s : State) (w : Wing) (f : WingSt → WingSt) : (s.modWing w f).spent = s.spent := by cases w <;> rfl
@[simp] theorem State.modWing_refusals (s : State) (w : Wing) (f : WingSt → WingSt) : (s.modWing w f).refusals = s.refusals := by cases w <;> rfl
@[simp] theorem State.modWing_held (s : State) (w : Wing) (f : WingSt → WingSt) : (s.modWing w f).held = s.held := by cases w <;> rfl
@[simp] theorem State.modWing_lanes (s : State) (w : Wing) (f : WingSt → WingSt) : (s.modWing w f).lanes = s.lanes := by cases w <;> rfl
@[simp] theorem State.modWing_entries (s : State) (w : Wing) (f : WingSt → WingSt) : (s.modWing w f).entries = s.entries := by cases w <;> rfl
@[simp] theorem State.modWing_slots (s : State) (w : Wing) (f : WingSt → WingSt) : (s.modWing w f).slots = s.slots := by cases w <;> rfl
@[simp] theorem State.modWing_leaves (s : State) (w : Wing) (f : WingSt → WingSt) : (s.modWing w f).leaves = s.leaves := by cases w <;> rfl
@[simp] theorem State.modWing_notes (s : State) (w : Wing) (f : WingSt → WingSt) : (s.modWing w f).notes = s.notes := by cases w <;> rfl
@[simp] theorem State.modWing_seam (s : State) (w : Wing) (f : WingSt → WingSt) : (s.modWing w f).seam = s.seam := by cases w <;> rfl
@[simp] theorem State.modWing_seamNext (s : State) (w : Wing) (f : WingSt → WingSt) : (s.modWing w f).seamNext = s.seamNext := by cases w <;> rfl
@[simp] theorem State.modWing_waitq (s : State) (w : Wing) (f : WingSt → WingSt) : (s.modWing w f).waitq = s.waitq := by cases w <;> rfl
@[simp] theorem State.modWing_recs (s : State) (w : Wing) (f : WingSt → WingSt) : (s.modWing w f).recs = s.recs := by cases w <;> rfl
@[simp] theorem State.modWing_backing (s : State) (w : Wing) (f : WingSt → WingSt) : (s.modWing w f).backing = s.backing := by cases w <;> rfl
@[simp] theorem State.modWing_mblocks (s : State) (w : Wing) (f : WingSt → WingSt) : (s.modWing w f).mblocks = s.mblocks := by cases w <;> rfl
@[simp] theorem State.modWing_ablocks (s : State) (w : Wing) (f : WingSt → WingSt) : (s.modWing w f).ablocks = s.ablocks := by cases w <;> rfl
@[simp] theorem State.modWing_accs (s : State) (w : Wing) (f : WingSt → WingSt) : (s.modWing w f).accs = s.accs := by cases w <;> rfl
@[simp] theorem State.modWing_stages (s : State) (w : Wing) (f : WingSt → WingSt) : (s.modWing w f).stages = s.stages := by cases w <;> rfl
@[simp] theorem State.modWing_lockDir (s : State) (w : Wing) (f : WingSt → WingSt) : (s.modWing w f).lockDir = s.lockDir := by cases w <;> rfl
@[simp] theorem State.modWing_dirLag (s : State) (w : Wing) (f : WingSt → WingSt) : (s.modWing w f).dirLag = s.dirLag := by cases w <;> rfl
@[simp] theorem State.modWing_files (s : State) (w : Wing) (f : WingSt → WingSt) : (s.modWing w f).files = s.files := by cases w <;> rfl
@[simp] theorem State.modWing_seqs (s : State) (w : Wing) (f : WingSt → WingSt) : (s.modWing w f).seqs = s.seqs := by cases w <;> rfl
@[simp] theorem State.modWing_pages (s : State) (w : Wing) (f : WingSt → WingSt) : (s.modWing w f).pages = s.pages := by cases w <;> rfl
@[simp] theorem State.modWing_pageFrame (s : State) (w : Wing) (f : WingSt → WingSt) : (s.modWing w f).pageFrame = s.pageFrame := by cases w <;> rfl
@[simp] theorem State.modWing_badPages (s : State) (w : Wing) (f : WingSt → WingSt) : (s.modWing w f).badPages = s.badPages := by cases w <;> rfl
@[simp] theorem State.modWing_holds (s : State) (w : Wing) (f : WingSt → WingSt) : (s.modWing w f).holds = s.holds := by cases w <;> rfl
@[simp] theorem State.modWing_groups (s : State) (w : Wing) (f : WingSt → WingSt) : (s.modWing w f).groups = s.groups := by cases w <;> rfl
@[simp] theorem State.modWing_grpSel (s : State) (w : Wing) (f : WingSt → WingSt) : (s.modWing w f).grpSel = s.grpSel := by cases w <;> rfl
@[simp] theorem State.modWing_chips (s : State) (w : Wing) (f : WingSt → WingSt) : (s.modWing w f).chips = s.chips := by cases w <;> rfl
@[simp] theorem State.modWing_lctxs (s : State) (w : Wing) (f : WingSt → WingSt) : (s.modWing w f).lctxs = s.lctxs := by cases w <;> rfl
@[simp] theorem State.modWing_gather (s : State) (w : Wing) (f : WingSt → WingSt) : (s.modWing w f).gather = s.gather := by cases w <;> rfl
@[simp] theorem State.modWing_susp (s : State) (w : Wing) (f : WingSt → WingSt) : (s.modWing w f).susp = s.susp := by cases w <;> rfl
@[simp] theorem State.modWing_glocks (s : State) (w : Wing) (f : WingSt → WingSt) : (s.modWing w f).glocks = s.glocks := by cases w <;> rfl
@[simp] theorem State.modWing_glockReqs (s : State) (w : Wing) (f : WingSt → WingSt) : (s.modWing w f).glockReqs = s.glockReqs := by cases w <;> rfl
@[simp] theorem State.modWing_ports (s : State) (w : Wing) (f : WingSt → WingSt) : (s.modWing w f).ports = s.ports := by cases w <;> rfl
@[simp] theorem State.modWing_tun (s : State) (w : Wing) (f : WingSt → WingSt) : (s.modWing w f).tun = s.tun := by cases w <;> rfl
@[simp] theorem State.modWing_pwrc (s : State) (w : Wing) (f : WingSt → WingSt) : (s.modWing w f).pwrc = s.pwrc := by cases w <;> rfl
@[simp] theorem State.modWing_blks (s : State) (w : Wing) (f : WingSt → WingSt) : (s.modWing w f).blks = s.blks := by cases w <;> rfl
@[simp] theorem State.modWing_alive (s : State) (w : Wing) (f : WingSt → WingSt) : (s.modWing w f).alive = s.alive := by cases w <;> rfl
@[simp] theorem State.modWing_conds (s : State) (w : Wing) (f : WingSt → WingSt) : (s.modWing w f).conds = s.conds := by cases w <;> rfl
@[simp] theorem State.modWing_rep (s : State) (w : Wing) (f : WingSt → WingSt) : (s.modWing w f).rep = s.rep := by cases w <;> rfl
@[simp] theorem State.modWing_tsync (s : State) (w : Wing) (f : WingSt → WingSt) : (s.modWing w f).tsync = s.tsync := by cases w <;> rfl
@[simp] theorem State.modWing_tap (s : State) (w : Wing) (f : WingSt → WingSt) : (s.modWing w f).tap = s.tap := by cases w <;> rfl
@[simp] theorem State.modWing_trace (s : State) (w : Wing) (f : WingSt → WingSt) : (s.modWing w f).trace = s.trace := by cases w <;> rfl
@[simp] theorem State.modWing_resets (s : State) (w : Wing) (f : WingSt → WingSt) : (s.modWing w f).resets = s.resets := by cases w <;> rfl

/-! ### modPwr -/

@[simp] theorem State.modPwr_pending (s : State) (w : Wing) (f : Pwr → Pwr) : (s.modPwr w f).pending = s.pending := by cases w <;> rfl
@[simp] theorem State.modPwr_now (s : State) (w : Wing) (f : Pwr → Pwr) : (s.modPwr w f).now = s.now := by cases w <;> rfl
@[simp] theorem State.modPwr_free (s : State) (w : Wing) (f : Pwr → Pwr) : (s.modPwr w f).free = s.free := by cases w <;> rfl
@[simp] theorem State.modPwr_todo (s : State) (w : Wing) (f : Pwr → Pwr) : (s.modPwr w f).todo = s.todo := by cases w <;> rfl
@[simp] theorem State.modPwr_onHold (s : State) (w : Wing) (f : Pwr → Pwr) : (s.modPwr w f).onHold = s.onHold := by cases w <;> rfl
@[simp] theorem State.modPwr_upsets (s : State) (w : Wing) (f : Pwr → Pwr) : (s.modPwr w f).upsets = s.upsets := by cases w <;> rfl
@[simp] theorem State.modPwr_out (s : State) (w : Wing) (f : Pwr → Pwr) : (s.modPwr w f).out = s.out := by cases w <;> rfl
@[simp] theorem State.modPwr_iml (s : State) (w : Wing) (f : Pwr → Pwr) : (s.modPwr w f).iml = s.iml := by cases w <;> rfl
@[simp] theorem State.modPwr_rom (s : State) (w : Wing) (f : Pwr → Pwr) : (s.modPwr w f).rom = s.rom := by cases w <;> rfl
@[simp] theorem State.modPwr_pins (s : State) (w : Wing) (f : Pwr → Pwr) : (s.modPwr w f).pins = s.pins := by cases w <;> rfl
@[simp] theorem State.modPwr_img (s : State) (w : Wing) (f : Pwr → Pwr) : (s.modPwr w f).img = s.img := by cases w <;> rfl
@[simp] theorem State.modPwr_posmap (s : State) (w : Wing) (f : Pwr → Pwr) : (s.modPwr w f).posmap = s.posmap := by cases w <;> rfl
@[simp] theorem State.modPwr_votes (s : State) (w : Wing) (f : Pwr → Pwr) : (s.modPwr w f).votes = s.votes := by cases w <;> rfl
@[simp] theorem State.modPwr_use (s : State) (w : Wing) (f : Pwr → Pwr) : (s.modPwr w f).use = s.use := by cases w <;> rfl
@[simp] theorem State.modPwr_spent (s : State) (w : Wing) (f : Pwr → Pwr) : (s.modPwr w f).spent = s.spent := by cases w <;> rfl
@[simp] theorem State.modPwr_refusals (s : State) (w : Wing) (f : Pwr → Pwr) : (s.modPwr w f).refusals = s.refusals := by cases w <;> rfl
@[simp] theorem State.modPwr_held (s : State) (w : Wing) (f : Pwr → Pwr) : (s.modPwr w f).held = s.held := by cases w <;> rfl
@[simp] theorem State.modPwr_lanes (s : State) (w : Wing) (f : Pwr → Pwr) : (s.modPwr w f).lanes = s.lanes := by cases w <;> rfl
@[simp] theorem State.modPwr_entries (s : State) (w : Wing) (f : Pwr → Pwr) : (s.modPwr w f).entries = s.entries := by cases w <;> rfl
@[simp] theorem State.modPwr_slots (s : State) (w : Wing) (f : Pwr → Pwr) : (s.modPwr w f).slots = s.slots := by cases w <;> rfl
@[simp] theorem State.modPwr_leaves (s : State) (w : Wing) (f : Pwr → Pwr) : (s.modPwr w f).leaves = s.leaves := by cases w <;> rfl
@[simp] theorem State.modPwr_notes (s : State) (w : Wing) (f : Pwr → Pwr) : (s.modPwr w f).notes = s.notes := by cases w <;> rfl
@[simp] theorem State.modPwr_seam (s : State) (w : Wing) (f : Pwr → Pwr) : (s.modPwr w f).seam = s.seam := by cases w <;> rfl
@[simp] theorem State.modPwr_seamNext (s : State) (w : Wing) (f : Pwr → Pwr) : (s.modPwr w f).seamNext = s.seamNext := by cases w <;> rfl
@[simp] theorem State.modPwr_waitq (s : State) (w : Wing) (f : Pwr → Pwr) : (s.modPwr w f).waitq = s.waitq := by cases w <;> rfl
@[simp] theorem State.modPwr_recs (s : State) (w : Wing) (f : Pwr → Pwr) : (s.modPwr w f).recs = s.recs := by cases w <;> rfl
@[simp] theorem State.modPwr_backing (s : State) (w : Wing) (f : Pwr → Pwr) : (s.modPwr w f).backing = s.backing := by cases w <;> rfl
@[simp] theorem State.modPwr_mblocks (s : State) (w : Wing) (f : Pwr → Pwr) : (s.modPwr w f).mblocks = s.mblocks := by cases w <;> rfl
@[simp] theorem State.modPwr_ablocks (s : State) (w : Wing) (f : Pwr → Pwr) : (s.modPwr w f).ablocks = s.ablocks := by cases w <;> rfl
@[simp] theorem State.modPwr_accs (s : State) (w : Wing) (f : Pwr → Pwr) : (s.modPwr w f).accs = s.accs := by cases w <;> rfl
@[simp] theorem State.modPwr_stages (s : State) (w : Wing) (f : Pwr → Pwr) : (s.modPwr w f).stages = s.stages := by cases w <;> rfl
@[simp] theorem State.modPwr_lockDir (s : State) (w : Wing) (f : Pwr → Pwr) : (s.modPwr w f).lockDir = s.lockDir := by cases w <;> rfl
@[simp] theorem State.modPwr_dirLag (s : State) (w : Wing) (f : Pwr → Pwr) : (s.modPwr w f).dirLag = s.dirLag := by cases w <;> rfl
@[simp] theorem State.modPwr_files (s : State) (w : Wing) (f : Pwr → Pwr) : (s.modPwr w f).files = s.files := by cases w <;> rfl
@[simp] theorem State.modPwr_seqs (s : State) (w : Wing) (f : Pwr → Pwr) : (s.modPwr w f).seqs = s.seqs := by cases w <;> rfl
@[simp] theorem State.modPwr_pages (s : State) (w : Wing) (f : Pwr → Pwr) : (s.modPwr w f).pages = s.pages := by cases w <;> rfl
@[simp] theorem State.modPwr_pageFrame (s : State) (w : Wing) (f : Pwr → Pwr) : (s.modPwr w f).pageFrame = s.pageFrame := by cases w <;> rfl
@[simp] theorem State.modPwr_badPages (s : State) (w : Wing) (f : Pwr → Pwr) : (s.modPwr w f).badPages = s.badPages := by cases w <;> rfl
@[simp] theorem State.modPwr_holds (s : State) (w : Wing) (f : Pwr → Pwr) : (s.modPwr w f).holds = s.holds := by cases w <;> rfl
@[simp] theorem State.modPwr_groups (s : State) (w : Wing) (f : Pwr → Pwr) : (s.modPwr w f).groups = s.groups := by cases w <;> rfl
@[simp] theorem State.modPwr_grpSel (s : State) (w : Wing) (f : Pwr → Pwr) : (s.modPwr w f).grpSel = s.grpSel := by cases w <;> rfl
@[simp] theorem State.modPwr_chips (s : State) (w : Wing) (f : Pwr → Pwr) : (s.modPwr w f).chips = s.chips := by cases w <;> rfl
@[simp] theorem State.modPwr_lctxs (s : State) (w : Wing) (f : Pwr → Pwr) : (s.modPwr w f).lctxs = s.lctxs := by cases w <;> rfl
@[simp] theorem State.modPwr_gather (s : State) (w : Wing) (f : Pwr → Pwr) : (s.modPwr w f).gather = s.gather := by cases w <;> rfl
@[simp] theorem State.modPwr_susp (s : State) (w : Wing) (f : Pwr → Pwr) : (s.modPwr w f).susp = s.susp := by cases w <;> rfl
@[simp] theorem State.modPwr_glocks (s : State) (w : Wing) (f : Pwr → Pwr) : (s.modPwr w f).glocks = s.glocks := by cases w <;> rfl
@[simp] theorem State.modPwr_glockReqs (s : State) (w : Wing) (f : Pwr → Pwr) : (s.modPwr w f).glockReqs = s.glockReqs := by cases w <;> rfl
@[simp] theorem State.modPwr_ports (s : State) (w : Wing) (f : Pwr → Pwr) : (s.modPwr w f).ports = s.ports := by cases w <;> rfl
@[simp] theorem State.modPwr_tun (s : State) (w : Wing) (f : Pwr → Pwr) : (s.modPwr w f).tun = s.tun := by cases w <;> rfl
@[simp] theorem State.modPwr_pwrc (s : State) (w : Wing) (f : Pwr → Pwr) : (s.modPwr w f).pwrc = s.pwrc := by cases w <;> rfl
@[simp] theorem State.modPwr_blks (s : State) (w : Wing) (f : Pwr → Pwr) : (s.modPwr w f).blks = s.blks := by cases w <;> rfl
@[simp] theorem State.modPwr_alive (s : State) (w : Wing) (f : Pwr → Pwr) : (s.modPwr w f).alive = s.alive := by cases w <;> rfl
@[simp] theorem State.modPwr_conds (s : State) (w : Wing) (f : Pwr → Pwr) : (s.modPwr w f).conds = s.conds := by cases w <;> rfl
@[simp] theorem State.modPwr_rep (s : State) (w : Wing) (f : Pwr → Pwr) : (s.modPwr w f).rep = s.rep := by cases w <;> rfl
@[simp] theorem State.modPwr_tsync (s : State) (w : Wing) (f : Pwr → Pwr) : (s.modPwr w f).tsync = s.tsync := by cases w <;> rfl
@[simp] theorem State.modPwr_tap (s : State) (w : Wing) (f : Pwr → Pwr) : (s.modPwr w f).tap = s.tap := by cases w <;> rfl
@[simp] theorem State.modPwr_trace (s : State) (w : Wing) (f : Pwr → Pwr) : (s.modPwr w f).trace = s.trace := by cases w <;> rfl
@[simp] theorem State.modPwr_resets (s : State) (w : Wing) (f : Pwr → Pwr) : (s.modPwr w f).resets = s.resets := by cases w <;> rfl

/-! ### modFile -/

@[simp] theorem State.modFile_pending (s : State) (i : Nat) (f : FileSt → FileSt) : (s.modFile i f).pending = s.pending := rfl
@[simp] theorem State.modFile_now (s : State) (i : Nat) (f : FileSt → FileSt) : (s.modFile i f).now = s.now := rfl
@[simp] theorem State.modFile_free (s : State) (i : Nat) (f : FileSt → FileSt) : (s.modFile i f).free = s.free := rfl
@[simp] theorem State.modFile_todo (s : State) (i : Nat) (f : FileSt → FileSt) : (s.modFile i f).todo = s.todo := rfl
@[simp] theorem State.modFile_onHold (s : State) (i : Nat) (f : FileSt → FileSt) : (s.modFile i f).onHold = s.onHold := rfl
@[simp] theorem State.modFile_upsets (s : State) (i : Nat) (f : FileSt → FileSt) : (s.modFile i f).upsets = s.upsets := rfl
@[simp] theorem State.modFile_out (s : State) (i : Nat) (f : FileSt → FileSt) : (s.modFile i f).out = s.out := rfl
@[simp] theorem State.modFile_iml (s : State) (i : Nat) (f : FileSt → FileSt) : (s.modFile i f).iml = s.iml := rfl
@[simp] theorem State.modFile_rom (s : State) (i : Nat) (f : FileSt → FileSt) : (s.modFile i f).rom = s.rom := rfl
@[simp] theorem State.modFile_pins (s : State) (i : Nat) (f : FileSt → FileSt) : (s.modFile i f).pins = s.pins := rfl
@[simp] theorem State.modFile_img (s : State) (i : Nat) (f : FileSt → FileSt) : (s.modFile i f).img = s.img := rfl
@[simp] theorem State.modFile_posmap (s : State) (i : Nat) (f : FileSt → FileSt) : (s.modFile i f).posmap = s.posmap := rfl
@[simp] theorem State.modFile_votes (s : State) (i : Nat) (f : FileSt → FileSt) : (s.modFile i f).votes = s.votes := rfl
@[simp] theorem State.modFile_use (s : State) (i : Nat) (f : FileSt → FileSt) : (s.modFile i f).use = s.use := rfl
@[simp] theorem State.modFile_spent (s : State) (i : Nat) (f : FileSt → FileSt) : (s.modFile i f).spent = s.spent := rfl
@[simp] theorem State.modFile_refusals (s : State) (i : Nat) (f : FileSt → FileSt) : (s.modFile i f).refusals = s.refusals := rfl
@[simp] theorem State.modFile_held (s : State) (i : Nat) (f : FileSt → FileSt) : (s.modFile i f).held = s.held := rfl
@[simp] theorem State.modFile_lanes (s : State) (i : Nat) (f : FileSt → FileSt) : (s.modFile i f).lanes = s.lanes := rfl
@[simp] theorem State.modFile_entries (s : State) (i : Nat) (f : FileSt → FileSt) : (s.modFile i f).entries = s.entries := rfl
@[simp] theorem State.modFile_slots (s : State) (i : Nat) (f : FileSt → FileSt) : (s.modFile i f).slots = s.slots := rfl
@[simp] theorem State.modFile_leaves (s : State) (i : Nat) (f : FileSt → FileSt) : (s.modFile i f).leaves = s.leaves := rfl
@[simp] theorem State.modFile_notes (s : State) (i : Nat) (f : FileSt → FileSt) : (s.modFile i f).notes = s.notes := rfl
@[simp] theorem State.modFile_seam (s : State) (i : Nat) (f : FileSt → FileSt) : (s.modFile i f).seam = s.seam := rfl
@[simp] theorem State.modFile_seamNext (s : State) (i : Nat) (f : FileSt → FileSt) : (s.modFile i f).seamNext = s.seamNext := rfl
@[simp] theorem State.modFile_waitq (s : State) (i : Nat) (f : FileSt → FileSt) : (s.modFile i f).waitq = s.waitq := rfl
@[simp] theorem State.modFile_recs (s : State) (i : Nat) (f : FileSt → FileSt) : (s.modFile i f).recs = s.recs := rfl
@[simp] theorem State.modFile_backing (s : State) (i : Nat) (f : FileSt → FileSt) : (s.modFile i f).backing = s.backing := rfl
@[simp] theorem State.modFile_mblocks (s : State) (i : Nat) (f : FileSt → FileSt) : (s.modFile i f).mblocks = s.mblocks := rfl
@[simp] theorem State.modFile_ablocks (s : State) (i : Nat) (f : FileSt → FileSt) : (s.modFile i f).ablocks = s.ablocks := rfl
@[simp] theorem State.modFile_accs (s : State) (i : Nat) (f : FileSt → FileSt) : (s.modFile i f).accs = s.accs := rfl
@[simp] theorem State.modFile_stages (s : State) (i : Nat) (f : FileSt → FileSt) : (s.modFile i f).stages = s.stages := rfl
@[simp] theorem State.modFile_lockDir (s : State) (i : Nat) (f : FileSt → FileSt) : (s.modFile i f).lockDir = s.lockDir := rfl
@[simp] theorem State.modFile_dirLag (s : State) (i : Nat) (f : FileSt → FileSt) : (s.modFile i f).dirLag = s.dirLag := rfl
@[simp] theorem State.modFile_seqs (s : State) (i : Nat) (f : FileSt → FileSt) : (s.modFile i f).seqs = s.seqs := rfl
@[simp] theorem State.modFile_pages (s : State) (i : Nat) (f : FileSt → FileSt) : (s.modFile i f).pages = s.pages := rfl
@[simp] theorem State.modFile_pageFrame (s : State) (i : Nat) (f : FileSt → FileSt) : (s.modFile i f).pageFrame = s.pageFrame := rfl
@[simp] theorem State.modFile_badPages (s : State) (i : Nat) (f : FileSt → FileSt) : (s.modFile i f).badPages = s.badPages := rfl
@[simp] theorem State.modFile_holds (s : State) (i : Nat) (f : FileSt → FileSt) : (s.modFile i f).holds = s.holds := rfl
@[simp] theorem State.modFile_groups (s : State) (i : Nat) (f : FileSt → FileSt) : (s.modFile i f).groups = s.groups := rfl
@[simp] theorem State.modFile_grpSel (s : State) (i : Nat) (f : FileSt → FileSt) : (s.modFile i f).grpSel = s.grpSel := rfl
@[simp] theorem State.modFile_chips (s : State) (i : Nat) (f : FileSt → FileSt) : (s.modFile i f).chips = s.chips := rfl
@[simp] theorem State.modFile_lctxs (s : State) (i : Nat) (f : FileSt → FileSt) : (s.modFile i f).lctxs = s.lctxs := rfl
@[simp] theorem State.modFile_gather (s : State) (i : Nat) (f : FileSt → FileSt) : (s.modFile i f).gather = s.gather := rfl
@[simp] theorem State.modFile_susp (s : State) (i : Nat) (f : FileSt → FileSt) : (s.modFile i f).susp = s.susp := rfl
@[simp] theorem State.modFile_glocks (s : State) (i : Nat) (f : FileSt → FileSt) : (s.modFile i f).glocks = s.glocks := rfl
@[simp] theorem State.modFile_glockReqs (s : State) (i : Nat) (f : FileSt → FileSt) : (s.modFile i f).glockReqs = s.glockReqs := rfl
@[simp] theorem State.modFile_ports (s : State) (i : Nat) (f : FileSt → FileSt) : (s.modFile i f).ports = s.ports := rfl
@[simp] theorem State.modFile_tun (s : State) (i : Nat) (f : FileSt → FileSt) : (s.modFile i f).tun = s.tun := rfl
@[simp] theorem State.modFile_wq (s : State) (i : Nat) (f : FileSt → FileSt) : (s.modFile i f).wq = s.wq := rfl
@[simp] theorem State.modFile_wk (s : State) (i : Nat) (f : FileSt → FileSt) : (s.modFile i f).wk = s.wk := rfl
@[simp] theorem State.modFile_pwrc (s : State) (i : Nat) (f : FileSt → FileSt) : (s.modFile i f).pwrc = s.pwrc := rfl
@[simp] theorem State.modFile_blks (s : State) (i : Nat) (f : FileSt → FileSt) : (s.modFile i f).blks = s.blks := rfl
@[simp] theorem State.modFile_alive (s : State) (i : Nat) (f : FileSt → FileSt) : (s.modFile i f).alive = s.alive := rfl
@[simp] theorem State.modFile_conds (s : State) (i : Nat) (f : FileSt → FileSt) : (s.modFile i f).conds = s.conds := rfl
@[simp] theorem State.modFile_rep (s : State) (i : Nat) (f : FileSt → FileSt) : (s.modFile i f).rep = s.rep := rfl
@[simp] theorem State.modFile_tsync (s : State) (i : Nat) (f : FileSt → FileSt) : (s.modFile i f).tsync = s.tsync := rfl
@[simp] theorem State.modFile_tap (s : State) (i : Nat) (f : FileSt → FileSt) : (s.modFile i f).tap = s.tap := rfl
@[simp] theorem State.modFile_trace (s : State) (i : Nat) (f : FileSt → FileSt) : (s.modFile i f).trace = s.trace := rfl
@[simp] theorem State.modFile_resets (s : State) (i : Nat) (f : FileSt → FileSt) : (s.modFile i f).resets = s.resets := rfl

/-! ### modSeq -/

@[simp] theorem State.modSeq_pending (s : State) (i : Nat) (f : Seq → Seq) : (s.modSeq i f).pending = s.pending := rfl
@[simp] theorem State.modSeq_now (s : State) (i : Nat) (f : Seq → Seq) : (s.modSeq i f).now = s.now := rfl
@[simp] theorem State.modSeq_free (s : State) (i : Nat) (f : Seq → Seq) : (s.modSeq i f).free = s.free := rfl
@[simp] theorem State.modSeq_todo (s : State) (i : Nat) (f : Seq → Seq) : (s.modSeq i f).todo = s.todo := rfl
@[simp] theorem State.modSeq_onHold (s : State) (i : Nat) (f : Seq → Seq) : (s.modSeq i f).onHold = s.onHold := rfl
@[simp] theorem State.modSeq_upsets (s : State) (i : Nat) (f : Seq → Seq) : (s.modSeq i f).upsets = s.upsets := rfl
@[simp] theorem State.modSeq_out (s : State) (i : Nat) (f : Seq → Seq) : (s.modSeq i f).out = s.out := rfl
@[simp] theorem State.modSeq_iml (s : State) (i : Nat) (f : Seq → Seq) : (s.modSeq i f).iml = s.iml := rfl
@[simp] theorem State.modSeq_rom (s : State) (i : Nat) (f : Seq → Seq) : (s.modSeq i f).rom = s.rom := rfl
@[simp] theorem State.modSeq_pins (s : State) (i : Nat) (f : Seq → Seq) : (s.modSeq i f).pins = s.pins := rfl
@[simp] theorem State.modSeq_img (s : State) (i : Nat) (f : Seq → Seq) : (s.modSeq i f).img = s.img := rfl
@[simp] theorem State.modSeq_posmap (s : State) (i : Nat) (f : Seq → Seq) : (s.modSeq i f).posmap = s.posmap := rfl
@[simp] theorem State.modSeq_votes (s : State) (i : Nat) (f : Seq → Seq) : (s.modSeq i f).votes = s.votes := rfl
@[simp] theorem State.modSeq_use (s : State) (i : Nat) (f : Seq → Seq) : (s.modSeq i f).use = s.use := rfl
@[simp] theorem State.modSeq_spent (s : State) (i : Nat) (f : Seq → Seq) : (s.modSeq i f).spent = s.spent := rfl
@[simp] theorem State.modSeq_refusals (s : State) (i : Nat) (f : Seq → Seq) : (s.modSeq i f).refusals = s.refusals := rfl
@[simp] theorem State.modSeq_held (s : State) (i : Nat) (f : Seq → Seq) : (s.modSeq i f).held = s.held := rfl
@[simp] theorem State.modSeq_lanes (s : State) (i : Nat) (f : Seq → Seq) : (s.modSeq i f).lanes = s.lanes := rfl
@[simp] theorem State.modSeq_entries (s : State) (i : Nat) (f : Seq → Seq) : (s.modSeq i f).entries = s.entries := rfl
@[simp] theorem State.modSeq_slots (s : State) (i : Nat) (f : Seq → Seq) : (s.modSeq i f).slots = s.slots := rfl
@[simp] theorem State.modSeq_leaves (s : State) (i : Nat) (f : Seq → Seq) : (s.modSeq i f).leaves = s.leaves := rfl
@[simp] theorem State.modSeq_notes (s : State) (i : Nat) (f : Seq → Seq) : (s.modSeq i f).notes = s.notes := rfl
@[simp] theorem State.modSeq_seam (s : State) (i : Nat) (f : Seq → Seq) : (s.modSeq i f).seam = s.seam := rfl
@[simp] theorem State.modSeq_seamNext (s : State) (i : Nat) (f : Seq → Seq) : (s.modSeq i f).seamNext = s.seamNext := rfl
@[simp] theorem State.modSeq_waitq (s : State) (i : Nat) (f : Seq → Seq) : (s.modSeq i f).waitq = s.waitq := rfl
@[simp] theorem State.modSeq_recs (s : State) (i : Nat) (f : Seq → Seq) : (s.modSeq i f).recs = s.recs := rfl
@[simp] theorem State.modSeq_backing (s : State) (i : Nat) (f : Seq → Seq) : (s.modSeq i f).backing = s.backing := rfl
@[simp] theorem State.modSeq_mblocks (s : State) (i : Nat) (f : Seq → Seq) : (s.modSeq i f).mblocks = s.mblocks := rfl
@[simp] theorem State.modSeq_ablocks (s : State) (i : Nat) (f : Seq → Seq) : (s.modSeq i f).ablocks = s.ablocks := rfl
@[simp] theorem State.modSeq_accs (s : State) (i : Nat) (f : Seq → Seq) : (s.modSeq i f).accs = s.accs := rfl
@[simp] theorem State.modSeq_stages (s : State) (i : Nat) (f : Seq → Seq) : (s.modSeq i f).stages = s.stages := rfl
@[simp] theorem State.modSeq_lockDir (s : State) (i : Nat) (f : Seq → Seq) : (s.modSeq i f).lockDir = s.lockDir := rfl
@[simp] theorem State.modSeq_dirLag (s : State) (i : Nat) (f : Seq → Seq) : (s.modSeq i f).dirLag = s.dirLag := rfl
@[simp] theorem State.modSeq_files (s : State) (i : Nat) (f : Seq → Seq) : (s.modSeq i f).files = s.files := rfl
@[simp] theorem State.modSeq_pages (s : State) (i : Nat) (f : Seq → Seq) : (s.modSeq i f).pages = s.pages := rfl
@[simp] theorem State.modSeq_pageFrame (s : State) (i : Nat) (f : Seq → Seq) : (s.modSeq i f).pageFrame = s.pageFrame := rfl
@[simp] theorem State.modSeq_badPages (s : State) (i : Nat) (f : Seq → Seq) : (s.modSeq i f).badPages = s.badPages := rfl
@[simp] theorem State.modSeq_holds (s : State) (i : Nat) (f : Seq → Seq) : (s.modSeq i f).holds = s.holds := rfl
@[simp] theorem State.modSeq_groups (s : State) (i : Nat) (f : Seq → Seq) : (s.modSeq i f).groups = s.groups := rfl
@[simp] theorem State.modSeq_grpSel (s : State) (i : Nat) (f : Seq → Seq) : (s.modSeq i f).grpSel = s.grpSel := rfl
@[simp] theorem State.modSeq_chips (s : State) (i : Nat) (f : Seq → Seq) : (s.modSeq i f).chips = s.chips := rfl
@[simp] theorem State.modSeq_lctxs (s : State) (i : Nat) (f : Seq → Seq) : (s.modSeq i f).lctxs = s.lctxs := rfl
@[simp] theorem State.modSeq_gather (s : State) (i : Nat) (f : Seq → Seq) : (s.modSeq i f).gather = s.gather := rfl
@[simp] theorem State.modSeq_susp (s : State) (i : Nat) (f : Seq → Seq) : (s.modSeq i f).susp = s.susp := rfl
@[simp] theorem State.modSeq_glocks (s : State) (i : Nat) (f : Seq → Seq) : (s.modSeq i f).glocks = s.glocks := rfl
@[simp] theorem State.modSeq_glockReqs (s : State) (i : Nat) (f : Seq → Seq) : (s.modSeq i f).glockReqs = s.glockReqs := rfl
@[simp] theorem State.modSeq_ports (s : State) (i : Nat) (f : Seq → Seq) : (s.modSeq i f).ports = s.ports := rfl
@[simp] theorem State.modSeq_tun (s : State) (i : Nat) (f : Seq → Seq) : (s.modSeq i f).tun = s.tun := rfl
@[simp] theorem State.modSeq_wq (s : State) (i : Nat) (f : Seq → Seq) : (s.modSeq i f).wq = s.wq := rfl
@[simp] theorem State.modSeq_wk (s : State) (i : Nat) (f : Seq → Seq) : (s.modSeq i f).wk = s.wk := rfl
@[simp] theorem State.modSeq_pwrc (s : State) (i : Nat) (f : Seq → Seq) : (s.modSeq i f).pwrc = s.pwrc := rfl
@[simp] theorem State.modSeq_blks (s : State) (i : Nat) (f : Seq → Seq) : (s.modSeq i f).blks = s.blks := rfl
@[simp] theorem State.modSeq_alive (s : State) (i : Nat) (f : Seq → Seq) : (s.modSeq i f).alive = s.alive := rfl
@[simp] theorem State.modSeq_conds (s : State) (i : Nat) (f : Seq → Seq) : (s.modSeq i f).conds = s.conds := rfl
@[simp] theorem State.modSeq_rep (s : State) (i : Nat) (f : Seq → Seq) : (s.modSeq i f).rep = s.rep := rfl
@[simp] theorem State.modSeq_tsync (s : State) (i : Nat) (f : Seq → Seq) : (s.modSeq i f).tsync = s.tsync := rfl
@[simp] theorem State.modSeq_tap (s : State) (i : Nat) (f : Seq → Seq) : (s.modSeq i f).tap = s.tap := rfl
@[simp] theorem State.modSeq_trace (s : State) (i : Nat) (f : Seq → Seq) : (s.modSeq i f).trace = s.trace := rfl
@[simp] theorem State.modSeq_resets (s : State) (i : Nat) (f : Seq → Seq) : (s.modSeq i f).resets = s.resets := rfl

/-! ### modPort -/

@[simp] theorem State.modPort_pending (s : State) (i : Nat) (f : Port → Port) : (s.modPort i f).pending = s.pending := rfl
@[simp] theorem State.modPort_now (s : State) (i : Nat) (f : Port → Port) : (s.modPort i f).now = s.now := rfl
@[simp] theorem State.modPort_free (s : State) (i : Nat) (f : Port → Port) : (s.modPort i f).free = s.free := rfl
@[simp] theorem State.modPort_todo (s : State) (i : Nat) (f : Port → Port) : (s.modPort i f).todo = s.todo := rfl
@[simp] theorem State.modPort_onHold (s : State) (i : Nat) (f : Port → Port) : (s.modPort i f).onHold = s.onHold := rfl
@[simp] theorem State.modPort_upsets (s : State) (i : Nat) (f : Port → Port) : (s.modPort i f).upsets = s.upsets := rfl
@[simp] theorem State.modPort_out (s : State) (i : Nat) (f : Port → Port) : (s.modPort i f).out = s.out := rfl
@[simp] theorem State.modPort_iml (s : State) (i : Nat) (f : Port → Port) : (s.modPort i f).iml = s.iml := rfl
@[simp] theorem State.modPort_rom (s : State) (i : Nat) (f : Port → Port) : (s.modPort i f).rom = s.rom := rfl
@[simp] theorem State.modPort_pins (s : State) (i : Nat) (f : Port → Port) : (s.modPort i f).pins = s.pins := rfl
@[simp] theorem State.modPort_img (s : State) (i : Nat) (f : Port → Port) : (s.modPort i f).img = s.img := rfl
@[simp] theorem State.modPort_posmap (s : State) (i : Nat) (f : Port → Port) : (s.modPort i f).posmap = s.posmap := rfl
@[simp] theorem State.modPort_votes (s : State) (i : Nat) (f : Port → Port) : (s.modPort i f).votes = s.votes := rfl
@[simp] theorem State.modPort_use (s : State) (i : Nat) (f : Port → Port) : (s.modPort i f).use = s.use := rfl
@[simp] theorem State.modPort_spent (s : State) (i : Nat) (f : Port → Port) : (s.modPort i f).spent = s.spent := rfl
@[simp] theorem State.modPort_refusals (s : State) (i : Nat) (f : Port → Port) : (s.modPort i f).refusals = s.refusals := rfl
@[simp] theorem State.modPort_held (s : State) (i : Nat) (f : Port → Port) : (s.modPort i f).held = s.held := rfl
@[simp] theorem State.modPort_lanes (s : State) (i : Nat) (f : Port → Port) : (s.modPort i f).lanes = s.lanes := rfl
@[simp] theorem State.modPort_entries (s : State) (i : Nat) (f : Port → Port) : (s.modPort i f).entries = s.entries := rfl
@[simp] theorem State.modPort_slots (s : State) (i : Nat) (f : Port → Port) : (s.modPort i f).slots = s.slots := rfl
@[simp] theorem State.modPort_leaves (s : State) (i : Nat) (f : Port → Port) : (s.modPort i f).leaves = s.leaves := rfl
@[simp] theorem State.modPort_notes (s : State) (i : Nat) (f : Port → Port) : (s.modPort i f).notes = s.notes := rfl
@[simp] theorem State.modPort_seam (s : State) (i : Nat) (f : Port → Port) : (s.modPort i f).seam = s.seam := rfl
@[simp] theorem State.modPort_seamNext (s : State) (i : Nat) (f : Port → Port) : (s.modPort i f).seamNext = s.seamNext := rfl
@[simp] theorem State.modPort_waitq (s : State) (i : Nat) (f : Port → Port) : (s.modPort i f).waitq = s.waitq := rfl
@[simp] theorem State.modPort_recs (s : State) (i : Nat) (f : Port → Port) : (s.modPort i f).recs = s.recs := rfl
@[simp] theorem State.modPort_backing (s : State) (i : Nat) (f : Port → Port) : (s.modPort i f).backing = s.backing := rfl
@[simp] theorem State.modPort_mblocks (s : State) (i : Nat) (f : Port → Port) : (s.modPort i f).mblocks = s.mblocks := rfl
@[simp] theorem State.modPort_ablocks (s : State) (i : Nat) (f : Port → Port) : (s.modPort i f).ablocks = s.ablocks := rfl
@[simp] theorem State.modPort_accs (s : State) (i : Nat) (f : Port → Port) : (s.modPort i f).accs = s.accs := rfl
@[simp] theorem State.modPort_stages (s : State) (i : Nat) (f : Port → Port) : (s.modPort i f).stages = s.stages := rfl
@[simp] theorem State.modPort_lockDir (s : State) (i : Nat) (f : Port → Port) : (s.modPort i f).lockDir = s.lockDir := rfl
@[simp] theorem State.modPort_dirLag (s : State) (i : Nat) (f : Port → Port) : (s.modPort i f).dirLag = s.dirLag := rfl
@[simp] theorem State.modPort_files (s : State) (i : Nat) (f : Port → Port) : (s.modPort i f).files = s.files := rfl
@[simp] theorem State.modPort_seqs (s : State) (i : Nat) (f : Port → Port) : (s.modPort i f).seqs = s.seqs := rfl
@[simp] theorem State.modPort_pages (s : State) (i : Nat) (f : Port → Port) : (s.modPort i f).pages = s.pages := rfl
@[simp] theorem State.modPort_pageFrame (s : State) (i : Nat) (f : Port → Port) : (s.modPort i f).pageFrame = s.pageFrame := rfl
@[simp] theorem State.modPort_badPages (s : State) (i : Nat) (f : Port → Port) : (s.modPort i f).badPages = s.badPages := rfl
@[simp] theorem State.modPort_holds (s : State) (i : Nat) (f : Port → Port) : (s.modPort i f).holds = s.holds := rfl
@[simp] theorem State.modPort_groups (s : State) (i : Nat) (f : Port → Port) : (s.modPort i f).groups = s.groups := rfl
@[simp] theorem State.modPort_grpSel (s : State) (i : Nat) (f : Port → Port) : (s.modPort i f).grpSel = s.grpSel := rfl
@[simp] theorem State.modPort_chips (s : State) (i : Nat) (f : Port → Port) : (s.modPort i f).chips = s.chips := rfl
@[simp] theorem State.modPort_lctxs (s : State) (i : Nat) (f : Port → Port) : (s.modPort i f).lctxs = s.lctxs := rfl
@[simp] theorem State.modPort_gather (s : State) (i : Nat) (f : Port → Port) : (s.modPort i f).gather = s.gather := rfl
@[simp] theorem State.modPort_susp (s : State) (i : Nat) (f : Port → Port) : (s.modPort i f).susp = s.susp := rfl
@[simp] theorem State.modPort_glocks (s : State) (i : Nat) (f : Port → Port) : (s.modPort i f).glocks = s.glocks := rfl
@[simp] theorem State.modPort_glockReqs (s : State) (i : Nat) (f : Port → Port) : (s.modPort i f).glockReqs = s.glockReqs := rfl
@[simp] theorem State.modPort_tun (s : State) (i : Nat) (f : Port → Port) : (s.modPort i f).tun = s.tun := rfl
@[simp] theorem State.modPort_wq (s : State) (i : Nat) (f : Port → Port) : (s.modPort i f).wq = s.wq := rfl
@[simp] theorem State.modPort_wk (s : State) (i : Nat) (f : Port → Port) : (s.modPort i f).wk = s.wk := rfl
@[simp] theorem State.modPort_pwrc (s : State) (i : Nat) (f : Port → Port) : (s.modPort i f).pwrc = s.pwrc := rfl
@[simp] theorem State.modPort_blks (s : State) (i : Nat) (f : Port → Port) : (s.modPort i f).blks = s.blks := rfl
@[simp] theorem State.modPort_alive (s : State) (i : Nat) (f : Port → Port) : (s.modPort i f).alive = s.alive := rfl
@[simp] theorem State.modPort_conds (s : State) (i : Nat) (f : Port → Port) : (s.modPort i f).conds = s.conds := rfl
@[simp] theorem State.modPort_rep (s : State) (i : Nat) (f : Port → Port) : (s.modPort i f).rep = s.rep := rfl
@[simp] theorem State.modPort_tsync (s : State) (i : Nat) (f : Port → Port) : (s.modPort i f).tsync = s.tsync := rfl
@[simp] theorem State.modPort_tap (s : State) (i : Nat) (f : Port → Port) : (s.modPort i f).tap = s.tap := rfl
@[simp] theorem State.modPort_trace (s : State) (i : Nat) (f : Port → Port) : (s.modPort i f).trace = s.trace := rfl
@[simp] theorem State.modPort_resets (s : State) (i : Nat) (f : Port → Port) : (s.modPort i f).resets = s.resets := rfl

/-! ### modBlk -/

@[simp] theorem State.modBlk_pending (s : State) (i : Nat) (f : Blk → Blk) : (s.modBlk i f).pending = s.pending := rfl
@[simp] theorem State.modBlk_now (s : State) (i : Nat) (f : Blk → Blk) : (s.modBlk i f).now = s.now := rfl
@[simp] theorem State.modBlk_free (s : State) (i : Nat) (f : Blk → Blk) : (s.modBlk i f).free = s.free := rfl
@[simp] theorem State.modBlk_todo (s : State) (i : Nat) (f : Blk → Blk) : (s.modBlk i f).todo = s.todo := rfl
@[simp] theorem State.modBlk_onHold (s : State) (i : Nat) (f : Blk → Blk) : (s.modBlk i f).onHold = s.onHold := rfl
@[simp] theorem State.modBlk_upsets (s : State) (i : Nat) (f : Blk → Blk) : (s.modBlk i f).upsets = s.upsets := rfl
@[simp] theorem State.modBlk_out (s : State) (i : Nat) (f : Blk → Blk) : (s.modBlk i f).out = s.out := rfl
@[simp] theorem State.modBlk_iml (s : State) (i : Nat) (f : Blk → Blk) : (s.modBlk i f).iml = s.iml := rfl
@[simp] theorem State.modBlk_rom (s : State) (i : Nat) (f : Blk → Blk) : (s.modBlk i f).rom = s.rom := rfl
@[simp] theorem State.modBlk_pins (s : State) (i : Nat) (f : Blk → Blk) : (s.modBlk i f).pins = s.pins := rfl
@[simp] theorem State.modBlk_img (s : State) (i : Nat) (f : Blk → Blk) : (s.modBlk i f).img = s.img := rfl
@[simp] theorem State.modBlk_posmap (s : State) (i : Nat) (f : Blk → Blk) : (s.modBlk i f).posmap = s.posmap := rfl
@[simp] theorem State.modBlk_votes (s : State) (i : Nat) (f : Blk → Blk) : (s.modBlk i f).votes = s.votes := rfl
@[simp] theorem State.modBlk_use (s : State) (i : Nat) (f : Blk → Blk) : (s.modBlk i f).use = s.use := rfl
@[simp] theorem State.modBlk_spent (s : State) (i : Nat) (f : Blk → Blk) : (s.modBlk i f).spent = s.spent := rfl
@[simp] theorem State.modBlk_refusals (s : State) (i : Nat) (f : Blk → Blk) : (s.modBlk i f).refusals = s.refusals := rfl
@[simp] theorem State.modBlk_held (s : State) (i : Nat) (f : Blk → Blk) : (s.modBlk i f).held = s.held := rfl
@[simp] theorem State.modBlk_lanes (s : State) (i : Nat) (f : Blk → Blk) : (s.modBlk i f).lanes = s.lanes := rfl
@[simp] theorem State.modBlk_entries (s : State) (i : Nat) (f : Blk → Blk) : (s.modBlk i f).entries = s.entries := rfl
@[simp] theorem State.modBlk_slots (s : State) (i : Nat) (f : Blk → Blk) : (s.modBlk i f).slots = s.slots := rfl
@[simp] theorem State.modBlk_leaves (s : State) (i : Nat) (f : Blk → Blk) : (s.modBlk i f).leaves = s.leaves := rfl
@[simp] theorem State.modBlk_notes (s : State) (i : Nat) (f : Blk → Blk) : (s.modBlk i f).notes = s.notes := rfl
@[simp] theorem State.modBlk_seam (s : State) (i : Nat) (f : Blk → Blk) : (s.modBlk i f).seam = s.seam := rfl
@[simp] theorem State.modBlk_seamNext (s : State) (i : Nat) (f : Blk → Blk) : (s.modBlk i f).seamNext = s.seamNext := rfl
@[simp] theorem State.modBlk_waitq (s : State) (i : Nat) (f : Blk → Blk) : (s.modBlk i f).waitq = s.waitq := rfl
@[simp] theorem State.modBlk_recs (s : State) (i : Nat) (f : Blk → Blk) : (s.modBlk i f).recs = s.recs := rfl
@[simp] theorem State.modBlk_backing (s : State) (i : Nat) (f : Blk → Blk) : (s.modBlk i f).backing = s.backing := rfl
@[simp] theorem State.modBlk_mblocks (s : State) (i : Nat) (f : Blk → Blk) : (s.modBlk i f).mblocks = s.mblocks := rfl
@[simp] theorem State.modBlk_ablocks (s : State) (i : Nat) (f : Blk → Blk) : (s.modBlk i f).ablocks = s.ablocks := rfl
@[simp] theorem State.modBlk_accs (s : State) (i : Nat) (f : Blk → Blk) : (s.modBlk i f).accs = s.accs := rfl
@[simp] theorem State.modBlk_stages (s : State) (i : Nat) (f : Blk → Blk) : (s.modBlk i f).stages = s.stages := rfl
@[simp] theorem State.modBlk_lockDir (s : State) (i : Nat) (f : Blk → Blk) : (s.modBlk i f).lockDir = s.lockDir := rfl
@[simp] theorem State.modBlk_dirLag (s : State) (i : Nat) (f : Blk → Blk) : (s.modBlk i f).dirLag = s.dirLag := rfl
@[simp] theorem State.modBlk_files (s : State) (i : Nat) (f : Blk → Blk) : (s.modBlk i f).files = s.files := rfl
@[simp] theorem State.modBlk_seqs (s : State) (i : Nat) (f : Blk → Blk) : (s.modBlk i f).seqs = s.seqs := rfl
@[simp] theorem State.modBlk_pages (s : State) (i : Nat) (f : Blk → Blk) : (s.modBlk i f).pages = s.pages := rfl
@[simp] theorem State.modBlk_pageFrame (s : State) (i : Nat) (f : Blk → Blk) : (s.modBlk i f).pageFrame = s.pageFrame := rfl
@[simp] theorem State.modBlk_badPages (s : State) (i : Nat) (f : Blk → Blk) : (s.modBlk i f).badPages = s.badPages := rfl
@[simp] theorem State.modBlk_holds (s : State) (i : Nat) (f : Blk → Blk) : (s.modBlk i f).holds = s.holds := rfl
@[simp] theorem State.modBlk_groups (s : State) (i : Nat) (f : Blk → Blk) : (s.modBlk i f).groups = s.groups := rfl
@[simp] theorem State.modBlk_grpSel (s : State) (i : Nat) (f : Blk → Blk) : (s.modBlk i f).grpSel = s.grpSel := rfl
@[simp] theorem State.modBlk_chips (s : State) (i : Nat) (f : Blk → Blk) : (s.modBlk i f).chips = s.chips := rfl
@[simp] theorem State.modBlk_lctxs (s : State) (i : Nat) (f : Blk → Blk) : (s.modBlk i f).lctxs = s.lctxs := rfl
@[simp] theorem State.modBlk_gather (s : State) (i : Nat) (f : Blk → Blk) : (s.modBlk i f).gather = s.gather := rfl
@[simp] theorem State.modBlk_susp (s : State) (i : Nat) (f : Blk → Blk) : (s.modBlk i f).susp = s.susp := rfl
@[simp] theorem State.modBlk_glocks (s : State) (i : Nat) (f : Blk → Blk) : (s.modBlk i f).glocks = s.glocks := rfl
@[simp] theorem State.modBlk_glockReqs (s : State) (i : Nat) (f : Blk → Blk) : (s.modBlk i f).glockReqs = s.glockReqs := rfl
@[simp] theorem State.modBlk_ports (s : State) (i : Nat) (f : Blk → Blk) : (s.modBlk i f).ports = s.ports := rfl
@[simp] theorem State.modBlk_tun (s : State) (i : Nat) (f : Blk → Blk) : (s.modBlk i f).tun = s.tun := rfl
@[simp] theorem State.modBlk_wq (s : State) (i : Nat) (f : Blk → Blk) : (s.modBlk i f).wq = s.wq := rfl
@[simp] theorem State.modBlk_wk (s : State) (i : Nat) (f : Blk → Blk) : (s.modBlk i f).wk = s.wk := rfl
@[simp] theorem State.modBlk_pwrc (s : State) (i : Nat) (f : Blk → Blk) : (s.modBlk i f).pwrc = s.pwrc := rfl
@[simp] theorem State.modBlk_alive (s : State) (i : Nat) (f : Blk → Blk) : (s.modBlk i f).alive = s.alive := rfl
@[simp] theorem State.modBlk_conds (s : State) (i : Nat) (f : Blk → Blk) : (s.modBlk i f).conds = s.conds := rfl
@[simp] theorem State.modBlk_rep (s : State) (i : Nat) (f : Blk → Blk) : (s.modBlk i f).rep = s.rep := rfl
@[simp] theorem State.modBlk_tsync (s : State) (i : Nat) (f : Blk → Blk) : (s.modBlk i f).tsync = s.tsync := rfl
@[simp] theorem State.modBlk_tap (s : State) (i : Nat) (f : Blk → Blk) : (s.modBlk i f).tap = s.tap := rfl
@[simp] theorem State.modBlk_trace (s : State) (i : Nat) (f : Blk → Blk) : (s.modBlk i f).trace = s.trace := rfl
@[simp] theorem State.modBlk_resets (s : State) (i : Nat) (f : Blk → Blk) : (s.modBlk i f).resets = s.resets := rfl

/-! ### modGroup -/

@[simp] theorem State.modGroup_pending (s : State) (i : Nat) (f : GroupSt → GroupSt) : (s.modGroup i f).pending = s.pending := rfl
@[simp] theorem State.modGroup_now (s : State) (i : Nat) (f : GroupSt → GroupSt) : (s.modGroup i f).now = s.now := rfl
@[simp] theorem State.modGroup_free (s : State) (i : Nat) (f : GroupSt → GroupSt) : (s.modGroup i f).free = s.free := rfl
@[simp] theorem State.modGroup_todo (s : State) (i : Nat) (f : GroupSt → GroupSt) : (s.modGroup i f).todo = s.todo := rfl
@[simp] theorem State.modGroup_onHold (s : State) (i : Nat) (f : GroupSt → GroupSt) : (s.modGroup i f).onHold = s.onHold := rfl
@[simp] theorem State.modGroup_upsets (s : State) (i : Nat) (f : GroupSt → GroupSt) : (s.modGroup i f).upsets = s.upsets := rfl
@[simp] theorem State.modGroup_out (s : State) (i : Nat) (f : GroupSt → GroupSt) : (s.modGroup i f).out = s.out := rfl
@[simp] theorem State.modGroup_iml (s : State) (i : Nat) (f : GroupSt → GroupSt) : (s.modGroup i f).iml = s.iml := rfl
@[simp] theorem State.modGroup_rom (s : State) (i : Nat) (f : GroupSt → GroupSt) : (s.modGroup i f).rom = s.rom := rfl
@[simp] theorem State.modGroup_pins (s : State) (i : Nat) (f : GroupSt → GroupSt) : (s.modGroup i f).pins = s.pins := rfl
@[simp] theorem State.modGroup_img (s : State) (i : Nat) (f : GroupSt → GroupSt) : (s.modGroup i f).img = s.img := rfl
@[simp] theorem State.modGroup_posmap (s : State) (i : Nat) (f : GroupSt → GroupSt) : (s.modGroup i f).posmap = s.posmap := rfl
@[simp] theorem State.modGroup_votes (s : State) (i : Nat) (f : GroupSt → GroupSt) : (s.modGroup i f).votes = s.votes := rfl
@[simp] theorem State.modGroup_use (s : State) (i : Nat) (f : GroupSt → GroupSt) : (s.modGroup i f).use = s.use := rfl
@[simp] theorem State.modGroup_spent (s : State) (i : Nat) (f : GroupSt → GroupSt) : (s.modGroup i f).spent = s.spent := rfl
@[simp] theorem State.modGroup_refusals (s : State) (i : Nat) (f : GroupSt → GroupSt) : (s.modGroup i f).refusals = s.refusals := rfl
@[simp] theorem State.modGroup_held (s : State) (i : Nat) (f : GroupSt → GroupSt) : (s.modGroup i f).held = s.held := rfl
@[simp] theorem State.modGroup_lanes (s : State) (i : Nat) (f : GroupSt → GroupSt) : (s.modGroup i f).lanes = s.lanes := rfl
@[simp] theorem State.modGroup_entries (s : State) (i : Nat) (f : GroupSt → GroupSt) : (s.modGroup i f).entries = s.entries := rfl
@[simp] theorem State.modGroup_slots (s : State) (i : Nat) (f : GroupSt → GroupSt) : (s.modGroup i f).slots = s.slots := rfl
@[simp] theorem State.modGroup_leaves (s : State) (i : Nat) (f : GroupSt → GroupSt) : (s.modGroup i f).leaves = s.leaves := rfl
@[simp] theorem State.modGroup_notes (s : State) (i : Nat) (f : GroupSt → GroupSt) : (s.modGroup i f).notes = s.notes := rfl
@[simp] theorem State.modGroup_seam (s : State) (i : Nat) (f : GroupSt → GroupSt) : (s.modGroup i f).seam = s.seam := rfl
@[simp] theorem State.modGroup_seamNext (s : State) (i : Nat) (f : GroupSt → GroupSt) : (s.modGroup i f).seamNext = s.seamNext := rfl
@[simp] theorem State.modGroup_waitq (s : State) (i : Nat) (f : GroupSt → GroupSt) : (s.modGroup i f).waitq = s.waitq := rfl
@[simp] theorem State.modGroup_recs (s : State) (i : Nat) (f : GroupSt → GroupSt) : (s.modGroup i f).recs = s.recs := rfl
@[simp] theorem State.modGroup_backing (s : State) (i : Nat) (f : GroupSt → GroupSt) : (s.modGroup i f).backing = s.backing := rfl
@[simp] theorem State.modGroup_mblocks (s : State) (i : Nat) (f : GroupSt → GroupSt) : (s.modGroup i f).mblocks = s.mblocks := rfl
@[simp] theorem State.modGroup_ablocks (s : State) (i : Nat) (f : GroupSt → GroupSt) : (s.modGroup i f).ablocks = s.ablocks := rfl
@[simp] theorem State.modGroup_accs (s : State) (i : Nat) (f : GroupSt → GroupSt) : (s.modGroup i f).accs = s.accs := rfl
@[simp] theorem State.modGroup_stages (s : State) (i : Nat) (f : GroupSt → GroupSt) : (s.modGroup i f).stages = s.stages := rfl
@[simp] theorem State.modGroup_lockDir (s : State) (i : Nat) (f : GroupSt → GroupSt) : (s.modGroup i f).lockDir = s.lockDir := rfl
@[simp] theorem State.modGroup_dirLag (s : State) (i : Nat) (f : GroupSt → GroupSt) : (s.modGroup i f).dirLag = s.dirLag := rfl
@[simp] theorem State.modGroup_files (s : State) (i : Nat) (f : GroupSt → GroupSt) : (s.modGroup i f).files = s.files := rfl
@[simp] theorem State.modGroup_seqs (s : State) (i : Nat) (f : GroupSt → GroupSt) : (s.modGroup i f).seqs = s.seqs := rfl
@[simp] theorem State.modGroup_pages (s : State) (i : Nat) (f : GroupSt → GroupSt) : (s.modGroup i f).pages = s.pages := rfl
@[simp] theorem State.modGroup_pageFrame (s : State) (i : Nat) (f : GroupSt → GroupSt) : (s.modGroup i f).pageFrame = s.pageFrame := rfl
@[simp] theorem State.modGroup_badPages (s : State) (i : Nat) (f : GroupSt → GroupSt) : (s.modGroup i f).badPages = s.badPages := rfl
@[simp] theorem State.modGroup_holds (s : State) (i : Nat) (f : GroupSt → GroupSt) : (s.modGroup i f).holds = s.holds := rfl
@[simp] theorem State.modGroup_grpSel (s : State) (i : Nat) (f : GroupSt → GroupSt) : (s.modGroup i f).grpSel = s.grpSel := rfl
@[simp] theorem State.modGroup_chips (s : State) (i : Nat) (f : GroupSt → GroupSt) : (s.modGroup i f).chips = s.chips := rfl
@[simp] theorem State.modGroup_lctxs (s : State) (i : Nat) (f : GroupSt → GroupSt) : (s.modGroup i f).lctxs = s.lctxs := rfl
@[simp] theorem State.modGroup_gather (s : State) (i : Nat) (f : GroupSt → GroupSt) : (s.modGroup i f).gather = s.gather := rfl
@[simp] theorem State.modGroup_susp (s : State) (i : Nat) (f : GroupSt → GroupSt) : (s.modGroup i f).susp = s.susp := rfl
@[simp] theorem State.modGroup_glocks (s : State) (i : Nat) (f : GroupSt → GroupSt) : (s.modGroup i f).glocks = s.glocks := rfl
@[simp] theorem State.modGroup_glockReqs (s : State) (i : Nat) (f : GroupSt → GroupSt) : (s.modGroup i f).glockReqs = s.glockReqs := rfl
@[simp] theorem State.modGroup_ports (s : State) (i : Nat) (f : GroupSt → GroupSt) : (s.modGroup i f).ports = s.ports := rfl
@[simp] theorem State.modGroup_tun (s : State) (i : Nat) (f : GroupSt → GroupSt) : (s.modGroup i f).tun = s.tun := rfl
@[simp] theorem State.modGroup_wq (s : State) (i : Nat) (f : GroupSt → GroupSt) : (s.modGroup i f).wq = s.wq := rfl
@[simp] theorem State.modGroup_wk (s : State) (i : Nat) (f : GroupSt → GroupSt) : (s.modGroup i f).wk = s.wk := rfl
@[simp] theorem State.modGroup_pwrc (s : State) (i : Nat) (f : GroupSt → GroupSt) : (s.modGroup i f).pwrc = s.pwrc := rfl
@[simp] theorem State.modGroup_blks (s : State) (i : Nat) (f : GroupSt → GroupSt) : (s.modGroup i f).blks = s.blks := rfl
@[simp] theorem State.modGroup_alive (s : State) (i : Nat) (f : GroupSt → GroupSt) : (s.modGroup i f).alive = s.alive := rfl
@[simp] theorem State.modGroup_conds (s : State) (i : Nat) (f : GroupSt → GroupSt) : (s.modGroup i f).conds = s.conds := rfl
@[simp] theorem State.modGroup_rep (s : State) (i : Nat) (f : GroupSt → GroupSt) : (s.modGroup i f).rep = s.rep := rfl
@[simp] theorem State.modGroup_tsync (s : State) (i : Nat) (f : GroupSt → GroupSt) : (s.modGroup i f).tsync = s.tsync := rfl
@[simp] theorem State.modGroup_tap (s : State) (i : Nat) (f : GroupSt → GroupSt) : (s.modGroup i f).tap = s.tap := rfl
@[simp] theorem State.modGroup_trace (s : State) (i : Nat) (f : GroupSt → GroupSt) : (s.modGroup i f).trace = s.trace := rfl
@[simp] theorem State.modGroup_resets (s : State) (i : Nat) (f : GroupSt → GroupSt) : (s.modGroup i f).resets = s.resets := rfl

/-! ### modChip -/

@[simp] theorem State.modChip_pending (s : State) (c : BitVec 16) (f : ChipSt → ChipSt) : (s.modChip c f).pending = s.pending := rfl
@[simp] theorem State.modChip_now (s : State) (c : BitVec 16) (f : ChipSt → ChipSt) : (s.modChip c f).now = s.now := rfl
@[simp] theorem State.modChip_free (s : State) (c : BitVec 16) (f : ChipSt → ChipSt) : (s.modChip c f).free = s.free := rfl
@[simp] theorem State.modChip_todo (s : State) (c : BitVec 16) (f : ChipSt → ChipSt) : (s.modChip c f).todo = s.todo := rfl
@[simp] theorem State.modChip_onHold (s : State) (c : BitVec 16) (f : ChipSt → ChipSt) : (s.modChip c f).onHold = s.onHold := rfl
@[simp] theorem State.modChip_upsets (s : State) (c : BitVec 16) (f : ChipSt → ChipSt) : (s.modChip c f).upsets = s.upsets := rfl
@[simp] theorem State.modChip_out (s : State) (c : BitVec 16) (f : ChipSt → ChipSt) : (s.modChip c f).out = s.out := rfl
@[simp] theorem State.modChip_iml (s : State) (c : BitVec 16) (f : ChipSt → ChipSt) : (s.modChip c f).iml = s.iml := rfl
@[simp] theorem State.modChip_rom (s : State) (c : BitVec 16) (f : ChipSt → ChipSt) : (s.modChip c f).rom = s.rom := rfl
@[simp] theorem State.modChip_pins (s : State) (c : BitVec 16) (f : ChipSt → ChipSt) : (s.modChip c f).pins = s.pins := rfl
@[simp] theorem State.modChip_img (s : State) (c : BitVec 16) (f : ChipSt → ChipSt) : (s.modChip c f).img = s.img := rfl
@[simp] theorem State.modChip_posmap (s : State) (c : BitVec 16) (f : ChipSt → ChipSt) : (s.modChip c f).posmap = s.posmap := rfl
@[simp] theorem State.modChip_votes (s : State) (c : BitVec 16) (f : ChipSt → ChipSt) : (s.modChip c f).votes = s.votes := rfl
@[simp] theorem State.modChip_use (s : State) (c : BitVec 16) (f : ChipSt → ChipSt) : (s.modChip c f).use = s.use := rfl
@[simp] theorem State.modChip_spent (s : State) (c : BitVec 16) (f : ChipSt → ChipSt) : (s.modChip c f).spent = s.spent := rfl
@[simp] theorem State.modChip_refusals (s : State) (c : BitVec 16) (f : ChipSt → ChipSt) : (s.modChip c f).refusals = s.refusals := rfl
@[simp] theorem State.modChip_held (s : State) (c : BitVec 16) (f : ChipSt → ChipSt) : (s.modChip c f).held = s.held := rfl
@[simp] theorem State.modChip_lanes (s : State) (c : BitVec 16) (f : ChipSt → ChipSt) : (s.modChip c f).lanes = s.lanes := rfl
@[simp] theorem State.modChip_entries (s : State) (c : BitVec 16) (f : ChipSt → ChipSt) : (s.modChip c f).entries = s.entries := rfl
@[simp] theorem State.modChip_slots (s : State) (c : BitVec 16) (f : ChipSt → ChipSt) : (s.modChip c f).slots = s.slots := rfl
@[simp] theorem State.modChip_leaves (s : State) (c : BitVec 16) (f : ChipSt → ChipSt) : (s.modChip c f).leaves = s.leaves := rfl
@[simp] theorem State.modChip_notes (s : State) (c : BitVec 16) (f : ChipSt → ChipSt) : (s.modChip c f).notes = s.notes := rfl
@[simp] theorem State.modChip_seam (s : State) (c : BitVec 16) (f : ChipSt → ChipSt) : (s.modChip c f).seam = s.seam := rfl
@[simp] theorem State.modChip_seamNext (s : State) (c : BitVec 16) (f : ChipSt → ChipSt) : (s.modChip c f).seamNext = s.seamNext := rfl
@[simp] theorem State.modChip_waitq (s : State) (c : BitVec 16) (f : ChipSt → ChipSt) : (s.modChip c f).waitq = s.waitq := rfl
@[simp] theorem State.modChip_recs (s : State) (c : BitVec 16) (f : ChipSt → ChipSt) : (s.modChip c f).recs = s.recs := rfl
@[simp] theorem State.modChip_backing (s : State) (c : BitVec 16) (f : ChipSt → ChipSt) : (s.modChip c f).backing = s.backing := rfl
@[simp] theorem State.modChip_mblocks (s : State) (c : BitVec 16) (f : ChipSt → ChipSt) : (s.modChip c f).mblocks = s.mblocks := rfl
@[simp] theorem State.modChip_ablocks (s : State) (c : BitVec 16) (f : ChipSt → ChipSt) : (s.modChip c f).ablocks = s.ablocks := rfl
@[simp] theorem State.modChip_accs (s : State) (c : BitVec 16) (f : ChipSt → ChipSt) : (s.modChip c f).accs = s.accs := rfl
@[simp] theorem State.modChip_stages (s : State) (c : BitVec 16) (f : ChipSt → ChipSt) : (s.modChip c f).stages = s.stages := rfl
@[simp] theorem State.modChip_lockDir (s : State) (c : BitVec 16) (f : ChipSt → ChipSt) : (s.modChip c f).lockDir = s.lockDir := rfl
@[simp] theorem State.modChip_dirLag (s : State) (c : BitVec 16) (f : ChipSt → ChipSt) : (s.modChip c f).dirLag = s.dirLag := rfl
@[simp] theorem State.modChip_files (s : State) (c : BitVec 16) (f : ChipSt → ChipSt) : (s.modChip c f).files = s.files := rfl
@[simp] theorem State.modChip_seqs (s : State) (c : BitVec 16) (f : ChipSt → ChipSt) : (s.modChip c f).seqs = s.seqs := rfl
@[simp] theorem State.modChip_pages (s : State) (c : BitVec 16) (f : ChipSt → ChipSt) : (s.modChip c f).pages = s.pages := rfl
@[simp] theorem State.modChip_pageFrame (s : State) (c : BitVec 16) (f : ChipSt → ChipSt) : (s.modChip c f).pageFrame = s.pageFrame := rfl
@[simp] theorem State.modChip_badPages (s : State) (c : BitVec 16) (f : ChipSt → ChipSt) : (s.modChip c f).badPages = s.badPages := rfl
@[simp] theorem State.modChip_holds (s : State) (c : BitVec 16) (f : ChipSt → ChipSt) : (s.modChip c f).holds = s.holds := rfl
@[simp] theorem State.modChip_groups (s : State) (c : BitVec 16) (f : ChipSt → ChipSt) : (s.modChip c f).groups = s.groups := rfl
@[simp] theorem State.modChip_grpSel (s : State) (c : BitVec 16) (f : ChipSt → ChipSt) : (s.modChip c f).grpSel = s.grpSel := rfl
@[simp] theorem State.modChip_lctxs (s : State) (c : BitVec 16) (f : ChipSt → ChipSt) : (s.modChip c f).lctxs = s.lctxs := rfl
@[simp] theorem State.modChip_gather (s : State) (c : BitVec 16) (f : ChipSt → ChipSt) : (s.modChip c f).gather = s.gather := rfl
@[simp] theorem State.modChip_susp (s : State) (c : BitVec 16) (f : ChipSt → ChipSt) : (s.modChip c f).susp = s.susp := rfl
@[simp] theorem State.modChip_glocks (s : State) (c : BitVec 16) (f : ChipSt → ChipSt) : (s.modChip c f).glocks = s.glocks := rfl
@[simp] theorem State.modChip_glockReqs (s : State) (c : BitVec 16) (f : ChipSt → ChipSt) : (s.modChip c f).glockReqs = s.glockReqs := rfl
@[simp] theorem State.modChip_ports (s : State) (c : BitVec 16) (f : ChipSt → ChipSt) : (s.modChip c f).ports = s.ports := rfl
@[simp] theorem State.modChip_tun (s : State) (c : BitVec 16) (f : ChipSt → ChipSt) : (s.modChip c f).tun = s.tun := rfl
@[simp] theorem State.modChip_wq (s : State) (c : BitVec 16) (f : ChipSt → ChipSt) : (s.modChip c f).wq = s.wq := rfl
@[simp] theorem State.modChip_wk (s : State) (c : BitVec 16) (f : ChipSt → ChipSt) : (s.modChip c f).wk = s.wk := rfl
@[simp] theorem State.modChip_pwrc (s : State) (c : BitVec 16) (f : ChipSt → ChipSt) : (s.modChip c f).pwrc = s.pwrc := rfl
@[simp] theorem State.modChip_blks (s : State) (c : BitVec 16) (f : ChipSt → ChipSt) : (s.modChip c f).blks = s.blks := rfl
@[simp] theorem State.modChip_alive (s : State) (c : BitVec 16) (f : ChipSt → ChipSt) : (s.modChip c f).alive = s.alive := rfl
@[simp] theorem State.modChip_conds (s : State) (c : BitVec 16) (f : ChipSt → ChipSt) : (s.modChip c f).conds = s.conds := rfl
@[simp] theorem State.modChip_rep (s : State) (c : BitVec 16) (f : ChipSt → ChipSt) : (s.modChip c f).rep = s.rep := rfl
@[simp] theorem State.modChip_tsync (s : State) (c : BitVec 16) (f : ChipSt → ChipSt) : (s.modChip c f).tsync = s.tsync := rfl
@[simp] theorem State.modChip_tap (s : State) (c : BitVec 16) (f : ChipSt → ChipSt) : (s.modChip c f).tap = s.tap := rfl
@[simp] theorem State.modChip_trace (s : State) (c : BitVec 16) (f : ChipSt → ChipSt) : (s.modChip c f).trace = s.trace := rfl
@[simp] theorem State.modChip_resets (s : State) (c : BitVec 16) (f : ChipSt → ChipSt) : (s.modChip c f).resets = s.resets := rfl

/-! ### modBank -/

@[simp] theorem State.modBank_pending (s : State) (w : Wing) (b : Nat) (f : Bank → Bank) : (s.modBank w b f).pending = s.pending := rfl
@[simp] theorem State.modBank_now (s : State) (w : Wing) (b : Nat) (f : Bank → Bank) : (s.modBank w b f).now = s.now := rfl
@[simp] theorem State.modBank_free (s : State) (w : Wing) (b : Nat) (f : Bank → Bank) : (s.modBank w b f).free = s.free := rfl
@[simp] theorem State.modBank_todo (s : State) (w : Wing) (b : Nat) (f : Bank → Bank) : (s.modBank w b f).todo = s.todo := rfl
@[simp] theorem State.modBank_onHold (s : State) (w : Wing) (b : Nat) (f : Bank → Bank) : (s.modBank w b f).onHold = s.onHold := rfl
@[simp] theorem State.modBank_upsets (s : State) (w : Wing) (b : Nat) (f : Bank → Bank) : (s.modBank w b f).upsets = s.upsets := rfl
@[simp] theorem State.modBank_out (s : State) (w : Wing) (b : Nat) (f : Bank → Bank) : (s.modBank w b f).out = s.out := rfl
@[simp] theorem State.modBank_iml (s : State) (w : Wing) (b : Nat) (f : Bank → Bank) : (s.modBank w b f).iml = s.iml := rfl
@[simp] theorem State.modBank_rom (s : State) (w : Wing) (b : Nat) (f : Bank → Bank) : (s.modBank w b f).rom = s.rom := rfl
@[simp] theorem State.modBank_pins (s : State) (w : Wing) (b : Nat) (f : Bank → Bank) : (s.modBank w b f).pins = s.pins := rfl
@[simp] theorem State.modBank_img (s : State) (w : Wing) (b : Nat) (f : Bank → Bank) : (s.modBank w b f).img = s.img := rfl
@[simp] theorem State.modBank_posmap (s : State) (w : Wing) (b : Nat) (f : Bank → Bank) : (s.modBank w b f).posmap = s.posmap := rfl
@[simp] theorem State.modBank_votes (s : State) (w : Wing) (b : Nat) (f : Bank → Bank) : (s.modBank w b f).votes = s.votes := rfl
@[simp] theorem State.modBank_use (s : State) (w : Wing) (b : Nat) (f : Bank → Bank) : (s.modBank w b f).use = s.use := rfl
@[simp] theorem State.modBank_spent (s : State) (w : Wing) (b : Nat) (f : Bank → Bank) : (s.modBank w b f).spent = s.spent := rfl
@[simp] theorem State.modBank_refusals (s : State) (w : Wing) (b : Nat) (f : Bank → Bank) : (s.modBank w b f).refusals = s.refusals := rfl
@[simp] theorem State.modBank_held (s : State) (w : Wing) (b : Nat) (f : Bank → Bank) : (s.modBank w b f).held = s.held := rfl
@[simp] theorem State.modBank_lanes (s : State) (w : Wing) (b : Nat) (f : Bank → Bank) : (s.modBank w b f).lanes = s.lanes := rfl
@[simp] theorem State.modBank_entries (s : State) (w : Wing) (b : Nat) (f : Bank → Bank) : (s.modBank w b f).entries = s.entries := rfl
@[simp] theorem State.modBank_slots (s : State) (w : Wing) (b : Nat) (f : Bank → Bank) : (s.modBank w b f).slots = s.slots := rfl
@[simp] theorem State.modBank_leaves (s : State) (w : Wing) (b : Nat) (f : Bank → Bank) : (s.modBank w b f).leaves = s.leaves := rfl
@[simp] theorem State.modBank_notes (s : State) (w : Wing) (b : Nat) (f : Bank → Bank) : (s.modBank w b f).notes = s.notes := rfl
@[simp] theorem State.modBank_seam (s : State) (w : Wing) (b : Nat) (f : Bank → Bank) : (s.modBank w b f).seam = s.seam := rfl
@[simp] theorem State.modBank_seamNext (s : State) (w : Wing) (b : Nat) (f : Bank → Bank) : (s.modBank w b f).seamNext = s.seamNext := rfl
@[simp] theorem State.modBank_waitq (s : State) (w : Wing) (b : Nat) (f : Bank → Bank) : (s.modBank w b f).waitq = s.waitq := rfl
@[simp] theorem State.modBank_recs (s : State) (w : Wing) (b : Nat) (f : Bank → Bank) : (s.modBank w b f).recs = s.recs := rfl
@[simp] theorem State.modBank_backing (s : State) (w : Wing) (b : Nat) (f : Bank → Bank) : (s.modBank w b f).backing = s.backing := rfl
@[simp] theorem State.modBank_mblocks (s : State) (w : Wing) (b : Nat) (f : Bank → Bank) : (s.modBank w b f).mblocks = s.mblocks := rfl
@[simp] theorem State.modBank_ablocks (s : State) (w : Wing) (b : Nat) (f : Bank → Bank) : (s.modBank w b f).ablocks = s.ablocks := rfl
@[simp] theorem State.modBank_accs (s : State) (w : Wing) (b : Nat) (f : Bank → Bank) : (s.modBank w b f).accs = s.accs := rfl
@[simp] theorem State.modBank_stages (s : State) (w : Wing) (b : Nat) (f : Bank → Bank) : (s.modBank w b f).stages = s.stages := rfl
@[simp] theorem State.modBank_lockDir (s : State) (w : Wing) (b : Nat) (f : Bank → Bank) : (s.modBank w b f).lockDir = s.lockDir := rfl
@[simp] theorem State.modBank_dirLag (s : State) (w : Wing) (b : Nat) (f : Bank → Bank) : (s.modBank w b f).dirLag = s.dirLag := rfl
@[simp] theorem State.modBank_files (s : State) (w : Wing) (b : Nat) (f : Bank → Bank) : (s.modBank w b f).files = s.files := rfl
@[simp] theorem State.modBank_seqs (s : State) (w : Wing) (b : Nat) (f : Bank → Bank) : (s.modBank w b f).seqs = s.seqs := rfl
@[simp] theorem State.modBank_pages (s : State) (w : Wing) (b : Nat) (f : Bank → Bank) : (s.modBank w b f).pages = s.pages := rfl
@[simp] theorem State.modBank_pageFrame (s : State) (w : Wing) (b : Nat) (f : Bank → Bank) : (s.modBank w b f).pageFrame = s.pageFrame := rfl
@[simp] theorem State.modBank_badPages (s : State) (w : Wing) (b : Nat) (f : Bank → Bank) : (s.modBank w b f).badPages = s.badPages := rfl
@[simp] theorem State.modBank_holds (s : State) (w : Wing) (b : Nat) (f : Bank → Bank) : (s.modBank w b f).holds = s.holds := rfl
@[simp] theorem State.modBank_groups (s : State) (w : Wing) (b : Nat) (f : Bank → Bank) : (s.modBank w b f).groups = s.groups := rfl
@[simp] theorem State.modBank_grpSel (s : State) (w : Wing) (b : Nat) (f : Bank → Bank) : (s.modBank w b f).grpSel = s.grpSel := rfl
@[simp] theorem State.modBank_chips (s : State) (w : Wing) (b : Nat) (f : Bank → Bank) : (s.modBank w b f).chips = s.chips := rfl
@[simp] theorem State.modBank_lctxs (s : State) (w : Wing) (b : Nat) (f : Bank → Bank) : (s.modBank w b f).lctxs = s.lctxs := rfl
@[simp] theorem State.modBank_gather (s : State) (w : Wing) (b : Nat) (f : Bank → Bank) : (s.modBank w b f).gather = s.gather := rfl
@[simp] theorem State.modBank_susp (s : State) (w : Wing) (b : Nat) (f : Bank → Bank) : (s.modBank w b f).susp = s.susp := rfl
@[simp] theorem State.modBank_glocks (s : State) (w : Wing) (b : Nat) (f : Bank → Bank) : (s.modBank w b f).glocks = s.glocks := rfl
@[simp] theorem State.modBank_glockReqs (s : State) (w : Wing) (b : Nat) (f : Bank → Bank) : (s.modBank w b f).glockReqs = s.glockReqs := rfl
@[simp] theorem State.modBank_ports (s : State) (w : Wing) (b : Nat) (f : Bank → Bank) : (s.modBank w b f).ports = s.ports := rfl
@[simp] theorem State.modBank_tun (s : State) (w : Wing) (b : Nat) (f : Bank → Bank) : (s.modBank w b f).tun = s.tun := rfl
@[simp] theorem State.modBank_wq (s : State) (w : Wing) (b : Nat) (f : Bank → Bank) : (s.modBank w b f).wq = s.wq := rfl
@[simp] theorem State.modBank_wk (s : State) (w : Wing) (b : Nat) (f : Bank → Bank) : (s.modBank w b f).wk = s.wk := rfl
@[simp] theorem State.modBank_pwrc (s : State) (w : Wing) (b : Nat) (f : Bank → Bank) : (s.modBank w b f).pwrc = s.pwrc := rfl
@[simp] theorem State.modBank_blks (s : State) (w : Wing) (b : Nat) (f : Bank → Bank) : (s.modBank w b f).blks = s.blks := rfl
@[simp] theorem State.modBank_alive (s : State) (w : Wing) (b : Nat) (f : Bank → Bank) : (s.modBank w b f).alive = s.alive := rfl
@[simp] theorem State.modBank_conds (s : State) (w : Wing) (b : Nat) (f : Bank → Bank) : (s.modBank w b f).conds = s.conds := rfl
@[simp] theorem State.modBank_tsync (s : State) (w : Wing) (b : Nat) (f : Bank → Bank) : (s.modBank w b f).tsync = s.tsync := rfl
@[simp] theorem State.modBank_tap (s : State) (w : Wing) (b : Nat) (f : Bank → Bank) : (s.modBank w b f).tap = s.tap := rfl
@[simp] theorem State.modBank_trace (s : State) (w : Wing) (b : Nat) (f : Bank → Bank) : (s.modBank w b f).trace = s.trace := rfl
@[simp] theorem State.modBank_resets (s : State) (w : Wing) (b : Nat) (f : Bank → Bank) : (s.modBank w b f).resets = s.resets := rfl

/-! ### modObj -/

@[simp] theorem State.modObj_pending (s : State) (i : Nat) (f : Obj → Obj) : (s.modObj i f).pending = s.pending := rfl
@[simp] theorem State.modObj_now (s : State) (i : Nat) (f : Obj → Obj) : (s.modObj i f).now = s.now := rfl
@[simp] theorem State.modObj_free (s : State) (i : Nat) (f : Obj → Obj) : (s.modObj i f).free = s.free := rfl
@[simp] theorem State.modObj_todo (s : State) (i : Nat) (f : Obj → Obj) : (s.modObj i f).todo = s.todo := rfl
@[simp] theorem State.modObj_onHold (s : State) (i : Nat) (f : Obj → Obj) : (s.modObj i f).onHold = s.onHold := rfl
@[simp] theorem State.modObj_upsets (s : State) (i : Nat) (f : Obj → Obj) : (s.modObj i f).upsets = s.upsets := rfl
@[simp] theorem State.modObj_out (s : State) (i : Nat) (f : Obj → Obj) : (s.modObj i f).out = s.out := rfl
@[simp] theorem State.modObj_iml (s : State) (i : Nat) (f : Obj → Obj) : (s.modObj i f).iml = s.iml := rfl
@[simp] theorem State.modObj_rom (s : State) (i : Nat) (f : Obj → Obj) : (s.modObj i f).rom = s.rom := rfl
@[simp] theorem State.modObj_pins (s : State) (i : Nat) (f : Obj → Obj) : (s.modObj i f).pins = s.pins := rfl
@[simp] theorem State.modObj_img (s : State) (i : Nat) (f : Obj → Obj) : (s.modObj i f).img = s.img := rfl
@[simp] theorem State.modObj_posmap (s : State) (i : Nat) (f : Obj → Obj) : (s.modObj i f).posmap = s.posmap := rfl
@[simp] theorem State.modObj_votes (s : State) (i : Nat) (f : Obj → Obj) : (s.modObj i f).votes = s.votes := rfl
@[simp] theorem State.modObj_use (s : State) (i : Nat) (f : Obj → Obj) : (s.modObj i f).use = s.use := rfl
@[simp] theorem State.modObj_spent (s : State) (i : Nat) (f : Obj → Obj) : (s.modObj i f).spent = s.spent := rfl
@[simp] theorem State.modObj_refusals (s : State) (i : Nat) (f : Obj → Obj) : (s.modObj i f).refusals = s.refusals := rfl
@[simp] theorem State.modObj_held (s : State) (i : Nat) (f : Obj → Obj) : (s.modObj i f).held = s.held := rfl
@[simp] theorem State.modObj_lanes (s : State) (i : Nat) (f : Obj → Obj) : (s.modObj i f).lanes = s.lanes := rfl
@[simp] theorem State.modObj_entries (s : State) (i : Nat) (f : Obj → Obj) : (s.modObj i f).entries = s.entries := rfl
@[simp] theorem State.modObj_slots (s : State) (i : Nat) (f : Obj → Obj) : (s.modObj i f).slots = s.slots := rfl
@[simp] theorem State.modObj_leaves (s : State) (i : Nat) (f : Obj → Obj) : (s.modObj i f).leaves = s.leaves := rfl
@[simp] theorem State.modObj_notes (s : State) (i : Nat) (f : Obj → Obj) : (s.modObj i f).notes = s.notes := rfl
@[simp] theorem State.modObj_seam (s : State) (i : Nat) (f : Obj → Obj) : (s.modObj i f).seam = s.seam := rfl
@[simp] theorem State.modObj_seamNext (s : State) (i : Nat) (f : Obj → Obj) : (s.modObj i f).seamNext = s.seamNext := rfl
@[simp] theorem State.modObj_waitq (s : State) (i : Nat) (f : Obj → Obj) : (s.modObj i f).waitq = s.waitq := rfl
@[simp] theorem State.modObj_backing (s : State) (i : Nat) (f : Obj → Obj) : (s.modObj i f).backing = s.backing := rfl
@[simp] theorem State.modObj_mblocks (s : State) (i : Nat) (f : Obj → Obj) : (s.modObj i f).mblocks = s.mblocks := rfl
@[simp] theorem State.modObj_ablocks (s : State) (i : Nat) (f : Obj → Obj) : (s.modObj i f).ablocks = s.ablocks := rfl
@[simp] theorem State.modObj_accs (s : State) (i : Nat) (f : Obj → Obj) : (s.modObj i f).accs = s.accs := rfl
@[simp] theorem State.modObj_stages (s : State) (i : Nat) (f : Obj → Obj) : (s.modObj i f).stages = s.stages := rfl
@[simp] theorem State.modObj_lockDir (s : State) (i : Nat) (f : Obj → Obj) : (s.modObj i f).lockDir = s.lockDir := rfl
@[simp] theorem State.modObj_dirLag (s : State) (i : Nat) (f : Obj → Obj) : (s.modObj i f).dirLag = s.dirLag := rfl
@[simp] theorem State.modObj_files (s : State) (i : Nat) (f : Obj → Obj) : (s.modObj i f).files = s.files := rfl
@[simp] theorem State.modObj_seqs (s : State) (i : Nat) (f : Obj → Obj) : (s.modObj i f).seqs = s.seqs := rfl
@[simp] theorem State.modObj_pages (s : State) (i : Nat) (f : Obj → Obj) : (s.modObj i f).pages = s.pages := rfl
@[simp] theorem State.modObj_pageFrame (s : State) (i : Nat) (f : Obj → Obj) : (s.modObj i f).pageFrame = s.pageFrame := rfl
@[simp] theorem State.modObj_badPages (s : State) (i : Nat) (f : Obj → Obj) : (s.modObj i f).badPages = s.badPages := rfl
@[simp] theorem State.modObj_holds (s : State) (i : Nat) (f : Obj → Obj) : (s.modObj i f).holds = s.holds := rfl
@[simp] theorem State.modObj_groups (s : State) (i : Nat) (f : Obj → Obj) : (s.modObj i f).groups = s.groups := rfl
@[simp] theorem State.modObj_grpSel (s : State) (i : Nat) (f : Obj → Obj) : (s.modObj i f).grpSel = s.grpSel := rfl
@[simp] theorem State.modObj_chips (s : State) (i : Nat) (f : Obj → Obj) : (s.modObj i f).chips = s.chips := rfl
@[simp] theorem State.modObj_lctxs (s : State) (i : Nat) (f : Obj → Obj) : (s.modObj i f).lctxs = s.lctxs := rfl
@[simp] theorem State.modObj_gather (s : State) (i : Nat) (f : Obj → Obj) : (s.modObj i f).gather = s.gather := rfl
@[simp] theorem State.modObj_susp (s : State) (i : Nat) (f : Obj → Obj) : (s.modObj i f).susp = s.susp := rfl
@[simp] theorem State.modObj_glocks (s : State) (i : Nat) (f : Obj → Obj) : (s.modObj i f).glocks = s.glocks := rfl
@[simp] theorem State.modObj_glockReqs (s : State) (i : Nat) (f : Obj → Obj) : (s.modObj i f).glockReqs = s.glockReqs := rfl
@[simp] theorem State.modObj_ports (s : State) (i : Nat) (f : Obj → Obj) : (s.modObj i f).ports = s.ports := rfl
@[simp] theorem State.modObj_tun (s : State) (i : Nat) (f : Obj → Obj) : (s.modObj i f).tun = s.tun := rfl
@[simp] theorem State.modObj_wq (s : State) (i : Nat) (f : Obj → Obj) : (s.modObj i f).wq = s.wq := rfl
@[simp] theorem State.modObj_wk (s : State) (i : Nat) (f : Obj → Obj) : (s.modObj i f).wk = s.wk := rfl
@[simp] theorem State.modObj_pwrc (s : State) (i : Nat) (f : Obj → Obj) : (s.modObj i f).pwrc = s.pwrc := rfl
@[simp] theorem State.modObj_blks (s : State) (i : Nat) (f : Obj → Obj) : (s.modObj i f).blks = s.blks := rfl
@[simp] theorem State.modObj_alive (s : State) (i : Nat) (f : Obj → Obj) : (s.modObj i f).alive = s.alive := rfl
@[simp] theorem State.modObj_conds (s : State) (i : Nat) (f : Obj → Obj) : (s.modObj i f).conds = s.conds := rfl
@[simp] theorem State.modObj_rep (s : State) (i : Nat) (f : Obj → Obj) : (s.modObj i f).rep = s.rep := rfl
@[simp] theorem State.modObj_tsync (s : State) (i : Nat) (f : Obj → Obj) : (s.modObj i f).tsync = s.tsync := rfl
@[simp] theorem State.modObj_tap (s : State) (i : Nat) (f : Obj → Obj) : (s.modObj i f).tap = s.tap := rfl
@[simp] theorem State.modObj_trace (s : State) (i : Nat) (f : Obj → Obj) : (s.modObj i f).trace = s.trace := rfl
@[simp] theorem State.modObj_resets (s : State) (i : Nat) (f : Obj → Obj) : (s.modObj i f).resets = s.resets := rfl

/-! ### setBody -/

@[simp] theorem State.setBody_pending (s : State) (i : Nat) (b : Body) : (s.setBody i b).pending = s.pending := rfl
@[simp] theorem State.setBody_now (s : State) (i : Nat) (b : Body) : (s.setBody i b).now = s.now := rfl
@[simp] theorem State.setBody_free (s : State) (i : Nat) (b : Body) : (s.setBody i b).free = s.free := rfl
@[simp] theorem State.setBody_todo (s : State) (i : Nat) (b : Body) : (s.setBody i b).todo = s.todo := rfl
@[simp] theorem State.setBody_onHold (s : State) (i : Nat) (b : Body) : (s.setBody i b).onHold = s.onHold := rfl
@[simp] theorem State.setBody_upsets (s : State) (i : Nat) (b : Body) : (s.setBody i b).upsets = s.upsets := rfl
@[simp] theorem State.setBody_out (s : State) (i : Nat) (b : Body) : (s.setBody i b).out = s.out := rfl
@[simp] theorem State.setBody_iml (s : State) (i : Nat) (b : Body) : (s.setBody i b).iml = s.iml := rfl
@[simp] theorem State.setBody_rom (s : State) (i : Nat) (b : Body) : (s.setBody i b).rom = s.rom := rfl
@[simp] theorem State.setBody_pins (s : State) (i : Nat) (b : Body) : (s.setBody i b).pins = s.pins := rfl
@[simp] theorem State.setBody_img (s : State) (i : Nat) (b : Body) : (s.setBody i b).img = s.img := rfl
@[simp] theorem State.setBody_posmap (s : State) (i : Nat) (b : Body) : (s.setBody i b).posmap = s.posmap := rfl
@[simp] theorem State.setBody_votes (s : State) (i : Nat) (b : Body) : (s.setBody i b).votes = s.votes := rfl
@[simp] theorem State.setBody_use (s : State) (i : Nat) (b : Body) : (s.setBody i b).use = s.use := rfl
@[simp] theorem State.setBody_spent (s : State) (i : Nat) (b : Body) : (s.setBody i b).spent = s.spent := rfl
@[simp] theorem State.setBody_refusals (s : State) (i : Nat) (b : Body) : (s.setBody i b).refusals = s.refusals := rfl
@[simp] theorem State.setBody_held (s : State) (i : Nat) (b : Body) : (s.setBody i b).held = s.held := rfl
@[simp] theorem State.setBody_lanes (s : State) (i : Nat) (b : Body) : (s.setBody i b).lanes = s.lanes := rfl
@[simp] theorem State.setBody_entries (s : State) (i : Nat) (b : Body) : (s.setBody i b).entries = s.entries := rfl
@[simp] theorem State.setBody_slots (s : State) (i : Nat) (b : Body) : (s.setBody i b).slots = s.slots := rfl
@[simp] theorem State.setBody_leaves (s : State) (i : Nat) (b : Body) : (s.setBody i b).leaves = s.leaves := rfl
@[simp] theorem State.setBody_notes (s : State) (i : Nat) (b : Body) : (s.setBody i b).notes = s.notes := rfl
@[simp] theorem State.setBody_seam (s : State) (i : Nat) (b : Body) : (s.setBody i b).seam = s.seam := rfl
@[simp] theorem State.setBody_seamNext (s : State) (i : Nat) (b : Body) : (s.setBody i b).seamNext = s.seamNext := rfl
@[simp] theorem State.setBody_waitq (s : State) (i : Nat) (b : Body) : (s.setBody i b).waitq = s.waitq := rfl
@[simp] theorem State.setBody_backing (s : State) (i : Nat) (b : Body) : (s.setBody i b).backing = s.backing := rfl
@[simp] theorem State.setBody_mblocks (s : State) (i : Nat) (b : Body) : (s.setBody i b).mblocks = s.mblocks := rfl
@[simp] theorem State.setBody_ablocks (s : State) (i : Nat) (b : Body) : (s.setBody i b).ablocks = s.ablocks := rfl
@[simp] theorem State.setBody_accs (s : State) (i : Nat) (b : Body) : (s.setBody i b).accs = s.accs := rfl
@[simp] theorem State.setBody_stages (s : State) (i : Nat) (b : Body) : (s.setBody i b).stages = s.stages := rfl
@[simp] theorem State.setBody_lockDir (s : State) (i : Nat) (b : Body) : (s.setBody i b).lockDir = s.lockDir := rfl
@[simp] theorem State.setBody_dirLag (s : State) (i : Nat) (b : Body) : (s.setBody i b).dirLag = s.dirLag := rfl
@[simp] theorem State.setBody_files (s : State) (i : Nat) (b : Body) : (s.setBody i b).files = s.files := rfl
@[simp] theorem State.setBody_seqs (s : State) (i : Nat) (b : Body) : (s.setBody i b).seqs = s.seqs := rfl
@[simp] theorem State.setBody_pages (s : State) (i : Nat) (b : Body) : (s.setBody i b).pages = s.pages := rfl
@[simp] theorem State.setBody_pageFrame (s : State) (i : Nat) (b : Body) : (s.setBody i b).pageFrame = s.pageFrame := rfl
@[simp] theorem State.setBody_badPages (s : State) (i : Nat) (b : Body) : (s.setBody i b).badPages = s.badPages := rfl
@[simp] theorem State.setBody_holds (s : State) (i : Nat) (b : Body) : (s.setBody i b).holds = s.holds := rfl
@[simp] theorem State.setBody_groups (s : State) (i : Nat) (b : Body) : (s.setBody i b).groups = s.groups := rfl
@[simp] theorem State.setBody_grpSel (s : State) (i : Nat) (b : Body) : (s.setBody i b).grpSel = s.grpSel := rfl
@[simp] theorem State.setBody_chips (s : State) (i : Nat) (b : Body) : (s.setBody i b).chips = s.chips := rfl
@[simp] theorem State.setBody_lctxs (s : State) (i : Nat) (b : Body) : (s.setBody i b).lctxs = s.lctxs := rfl
@[simp] theorem State.setBody_gather (s : State) (i : Nat) (b : Body) : (s.setBody i b).gather = s.gather := rfl
@[simp] theorem State.setBody_susp (s : State) (i : Nat) (b : Body) : (s.setBody i b).susp = s.susp := rfl
@[simp] theorem State.setBody_glocks (s : State) (i : Nat) (b : Body) : (s.setBody i b).glocks = s.glocks := rfl
@[simp] theorem State.setBody_glockReqs (s : State) (i : Nat) (b : Body) : (s.setBody i b).glockReqs = s.glockReqs := rfl
@[simp] theorem State.setBody_ports (s : State) (i : Nat) (b : Body) : (s.setBody i b).ports = s.ports := rfl
@[simp] theorem State.setBody_tun (s : State) (i : Nat) (b : Body) : (s.setBody i b).tun = s.tun := rfl
@[simp] theorem State.setBody_wq (s : State) (i : Nat) (b : Body) : (s.setBody i b).wq = s.wq := rfl
@[simp] theorem State.setBody_wk (s : State) (i : Nat) (b : Body) : (s.setBody i b).wk = s.wk := rfl
@[simp] theorem State.setBody_pwrc (s : State) (i : Nat) (b : Body) : (s.setBody i b).pwrc = s.pwrc := rfl
@[simp] theorem State.setBody_blks (s : State) (i : Nat) (b : Body) : (s.setBody i b).blks = s.blks := rfl
@[simp] theorem State.setBody_alive (s : State) (i : Nat) (b : Body) : (s.setBody i b).alive = s.alive := rfl
@[simp] theorem State.setBody_conds (s : State) (i : Nat) (b : Body) : (s.setBody i b).conds = s.conds := rfl
@[simp] theorem State.setBody_rep (s : State) (i : Nat) (b : Body) : (s.setBody i b).rep = s.rep := rfl
@[simp] theorem State.setBody_tsync (s : State) (i : Nat) (b : Body) : (s.setBody i b).tsync = s.tsync := rfl
@[simp] theorem State.setBody_tap (s : State) (i : Nat) (b : Body) : (s.setBody i b).tap = s.tap := rfl
@[simp] theorem State.setBody_trace (s : State) (i : Nat) (b : Body) : (s.setBody i b).trace = s.trace := rfl
@[simp] theorem State.setBody_resets (s : State) (i : Nat) (b : Body) : (s.setBody i b).resets = s.resets := rfl

/-! ### modBarrier -/

@[simp] theorem State.modBarrier_pending (s : State) (i : Nat) (f : Barrier → Barrier) : (s.modBarrier i f).pending = s.pending := rfl
@[simp] theorem State.modBarrier_now (s : State) (i : Nat) (f : Barrier → Barrier) : (s.modBarrier i f).now = s.now := rfl
@[simp] theorem State.modBarrier_free (s : State) (i : Nat) (f : Barrier → Barrier) : (s.modBarrier i f).free = s.free := rfl
@[simp] theorem State.modBarrier_todo (s : State) (i : Nat) (f : Barrier → Barrier) : (s.modBarrier i f).todo = s.todo := rfl
@[simp] theorem State.modBarrier_onHold (s : State) (i : Nat) (f : Barrier → Barrier) : (s.modBarrier i f).onHold = s.onHold := rfl
@[simp] theorem State.modBarrier_upsets (s : State) (i : Nat) (f : Barrier → Barrier) : (s.modBarrier i f).upsets = s.upsets := rfl
@[simp] theorem State.modBarrier_out (s : State) (i : Nat) (f : Barrier → Barrier) : (s.modBarrier i f).out = s.out := rfl
@[simp] theorem State.modBarrier_iml (s : State) (i : Nat) (f : Barrier → Barrier) : (s.modBarrier i f).iml = s.iml := rfl
@[simp] theorem State.modBarrier_rom (s : State) (i : Nat) (f : Barrier → Barrier) : (s.modBarrier i f).rom = s.rom := rfl
@[simp] theorem State.modBarrier_pins (s : State) (i : Nat) (f : Barrier → Barrier) : (s.modBarrier i f).pins = s.pins := rfl
@[simp] theorem State.modBarrier_img (s : State) (i : Nat) (f : Barrier → Barrier) : (s.modBarrier i f).img = s.img := rfl
@[simp] theorem State.modBarrier_posmap (s : State) (i : Nat) (f : Barrier → Barrier) : (s.modBarrier i f).posmap = s.posmap := rfl
@[simp] theorem State.modBarrier_votes (s : State) (i : Nat) (f : Barrier → Barrier) : (s.modBarrier i f).votes = s.votes := rfl
@[simp] theorem State.modBarrier_use (s : State) (i : Nat) (f : Barrier → Barrier) : (s.modBarrier i f).use = s.use := rfl
@[simp] theorem State.modBarrier_spent (s : State) (i : Nat) (f : Barrier → Barrier) : (s.modBarrier i f).spent = s.spent := rfl
@[simp] theorem State.modBarrier_refusals (s : State) (i : Nat) (f : Barrier → Barrier) : (s.modBarrier i f).refusals = s.refusals := rfl
@[simp] theorem State.modBarrier_held (s : State) (i : Nat) (f : Barrier → Barrier) : (s.modBarrier i f).held = s.held := rfl
@[simp] theorem State.modBarrier_lanes (s : State) (i : Nat) (f : Barrier → Barrier) : (s.modBarrier i f).lanes = s.lanes := rfl
@[simp] theorem State.modBarrier_entries (s : State) (i : Nat) (f : Barrier → Barrier) : (s.modBarrier i f).entries = s.entries := rfl
@[simp] theorem State.modBarrier_slots (s : State) (i : Nat) (f : Barrier → Barrier) : (s.modBarrier i f).slots = s.slots := rfl
@[simp] theorem State.modBarrier_leaves (s : State) (i : Nat) (f : Barrier → Barrier) : (s.modBarrier i f).leaves = s.leaves := rfl
@[simp] theorem State.modBarrier_notes (s : State) (i : Nat) (f : Barrier → Barrier) : (s.modBarrier i f).notes = s.notes := rfl
@[simp] theorem State.modBarrier_seam (s : State) (i : Nat) (f : Barrier → Barrier) : (s.modBarrier i f).seam = s.seam := rfl
@[simp] theorem State.modBarrier_seamNext (s : State) (i : Nat) (f : Barrier → Barrier) : (s.modBarrier i f).seamNext = s.seamNext := rfl
@[simp] theorem State.modBarrier_waitq (s : State) (i : Nat) (f : Barrier → Barrier) : (s.modBarrier i f).waitq = s.waitq := rfl
@[simp] theorem State.modBarrier_backing (s : State) (i : Nat) (f : Barrier → Barrier) : (s.modBarrier i f).backing = s.backing := rfl
@[simp] theorem State.modBarrier_mblocks (s : State) (i : Nat) (f : Barrier → Barrier) : (s.modBarrier i f).mblocks = s.mblocks := rfl
@[simp] theorem State.modBarrier_ablocks (s : State) (i : Nat) (f : Barrier → Barrier) : (s.modBarrier i f).ablocks = s.ablocks := rfl
@[simp] theorem State.modBarrier_accs (s : State) (i : Nat) (f : Barrier → Barrier) : (s.modBarrier i f).accs = s.accs := rfl
@[simp] theorem State.modBarrier_stages (s : State) (i : Nat) (f : Barrier → Barrier) : (s.modBarrier i f).stages = s.stages := rfl
@[simp] theorem State.modBarrier_lockDir (s : State) (i : Nat) (f : Barrier → Barrier) : (s.modBarrier i f).lockDir = s.lockDir := rfl
@[simp] theorem State.modBarrier_dirLag (s : State) (i : Nat) (f : Barrier → Barrier) : (s.modBarrier i f).dirLag = s.dirLag := rfl
@[simp] theorem State.modBarrier_files (s : State) (i : Nat) (f : Barrier → Barrier) : (s.modBarrier i f).files = s.files := rfl
@[simp] theorem State.modBarrier_seqs (s : State) (i : Nat) (f : Barrier → Barrier) : (s.modBarrier i f).seqs = s.seqs := rfl
@[simp] theorem State.modBarrier_pages (s : State) (i : Nat) (f : Barrier → Barrier) : (s.modBarrier i f).pages = s.pages := rfl
@[simp] theorem State.modBarrier_pageFrame (s : State) (i : Nat) (f : Barrier → Barrier) : (s.modBarrier i f).pageFrame = s.pageFrame := rfl
@[simp] theorem State.modBarrier_badPages (s : State) (i : Nat) (f : Barrier → Barrier) : (s.modBarrier i f).badPages = s.badPages := rfl
@[simp] theorem State.modBarrier_holds (s : State) (i : Nat) (f : Barrier → Barrier) : (s.modBarrier i f).holds = s.holds := rfl
@[simp] theorem State.modBarrier_groups (s : State) (i : Nat) (f : Barrier → Barrier) : (s.modBarrier i f).groups = s.groups := rfl
@[simp] theorem State.modBarrier_grpSel (s : State) (i : Nat) (f : Barrier → Barrier) : (s.modBarrier i f).grpSel = s.grpSel := rfl
@[simp] theorem State.modBarrier_chips (s : State) (i : Nat) (f : Barrier → Barrier) : (s.modBarrier i f).chips = s.chips := rfl
@[simp] theorem State.modBarrier_lctxs (s : State) (i : Nat) (f : Barrier → Barrier) : (s.modBarrier i f).lctxs = s.lctxs := rfl
@[simp] theorem State.modBarrier_gather (s : State) (i : Nat) (f : Barrier → Barrier) : (s.modBarrier i f).gather = s.gather := rfl
@[simp] theorem State.modBarrier_susp (s : State) (i : Nat) (f : Barrier → Barrier) : (s.modBarrier i f).susp = s.susp := rfl
@[simp] theorem State.modBarrier_glocks (s : State) (i : Nat) (f : Barrier → Barrier) : (s.modBarrier i f).glocks = s.glocks := rfl
@[simp] theorem State.modBarrier_glockReqs (s : State) (i : Nat) (f : Barrier → Barrier) : (s.modBarrier i f).glockReqs = s.glockReqs := rfl
@[simp] theorem State.modBarrier_ports (s : State) (i : Nat) (f : Barrier → Barrier) : (s.modBarrier i f).ports = s.ports := rfl
@[simp] theorem State.modBarrier_tun (s : State) (i : Nat) (f : Barrier → Barrier) : (s.modBarrier i f).tun = s.tun := rfl
@[simp] theorem State.modBarrier_wq (s : State) (i : Nat) (f : Barrier → Barrier) : (s.modBarrier i f).wq = s.wq := rfl
@[simp] theorem State.modBarrier_wk (s : State) (i : Nat) (f : Barrier → Barrier) : (s.modBarrier i f).wk = s.wk := rfl
@[simp] theorem State.modBarrier_pwrc (s : State) (i : Nat) (f : Barrier → Barrier) : (s.modBarrier i f).pwrc = s.pwrc := rfl
@[simp] theorem State.modBarrier_blks (s : State) (i : Nat) (f : Barrier → Barrier) : (s.modBarrier i f).blks = s.blks := rfl
@[simp] theorem State.modBarrier_alive (s : State) (i : Nat) (f : Barrier → Barrier) : (s.modBarrier i f).alive = s.alive := rfl
@[simp] theorem State.modBarrier_conds (s : State) (i : Nat) (f : Barrier → Barrier) : (s.modBarrier i f).conds = s.conds := rfl
@[simp] theorem State.modBarrier_rep (s : State) (i : Nat) (f : Barrier → Barrier) : (s.modBarrier i f).rep = s.rep := rfl
@[simp] theorem State.modBarrier_tsync (s : State) (i : Nat) (f : Barrier → Barrier) : (s.modBarrier i f).tsync = s.tsync := rfl
@[simp] theorem State.modBarrier_tap (s : State) (i : Nat) (f : Barrier → Barrier) : (s.modBarrier i f).tap = s.tap := rfl
@[simp] theorem State.modBarrier_trace (s : State) (i : Nat) (f : Barrier → Barrier) : (s.modBarrier i f).trace = s.trace := rfl
@[simp] theorem State.modBarrier_resets (s : State) (i : Nat) (f : Barrier → Barrier) : (s.modBarrier i f).resets = s.resets := rfl

/-! ### modRelay -/

@[simp] theorem State.modRelay_pending (s : State) (i : Nat) (f : Relay → Relay) : (s.modRelay i f).pending = s.pending := rfl
@[simp] theorem State.modRelay_now (s : State) (i : Nat) (f : Relay → Relay) : (s.modRelay i f).now = s.now := rfl
@[simp] theorem State.modRelay_free (s : State) (i : Nat) (f : Relay → Relay) : (s.modRelay i f).free = s.free := rfl
@[simp] theorem State.modRelay_todo (s : State) (i : Nat) (f : Relay → Relay) : (s.modRelay i f).todo = s.todo := rfl
@[simp] theorem State.modRelay_onHold (s : State) (i : Nat) (f : Relay → Relay) : (s.modRelay i f).onHold = s.onHold := rfl
@[simp] theorem State.modRelay_upsets (s : State) (i : Nat) (f : Relay → Relay) : (s.modRelay i f).upsets = s.upsets := rfl
@[simp] theorem State.modRelay_out (s : State) (i : Nat) (f : Relay → Relay) : (s.modRelay i f).out = s.out := rfl
@[simp] theorem State.modRelay_iml (s : State) (i : Nat) (f : Relay → Relay) : (s.modRelay i f).iml = s.iml := rfl
@[simp] theorem State.modRelay_rom (s : State) (i : Nat) (f : Relay → Relay) : (s.modRelay i f).rom = s.rom := rfl
@[simp] theorem State.modRelay_pins (s : State) (i : Nat) (f : Relay → Relay) : (s.modRelay i f).pins = s.pins := rfl
@[simp] theorem State.modRelay_img (s : State) (i : Nat) (f : Relay → Relay) : (s.modRelay i f).img = s.img := rfl
@[simp] theorem State.modRelay_posmap (s : State) (i : Nat) (f : Relay → Relay) : (s.modRelay i f).posmap = s.posmap := rfl
@[simp] theorem State.modRelay_votes (s : State) (i : Nat) (f : Relay → Relay) : (s.modRelay i f).votes = s.votes := rfl
@[simp] theorem State.modRelay_use (s : State) (i : Nat) (f : Relay → Relay) : (s.modRelay i f).use = s.use := rfl
@[simp] theorem State.modRelay_spent (s : State) (i : Nat) (f : Relay → Relay) : (s.modRelay i f).spent = s.spent := rfl
@[simp] theorem State.modRelay_refusals (s : State) (i : Nat) (f : Relay → Relay) : (s.modRelay i f).refusals = s.refusals := rfl
@[simp] theorem State.modRelay_held (s : State) (i : Nat) (f : Relay → Relay) : (s.modRelay i f).held = s.held := rfl
@[simp] theorem State.modRelay_lanes (s : State) (i : Nat) (f : Relay → Relay) : (s.modRelay i f).lanes = s.lanes := rfl
@[simp] theorem State.modRelay_entries (s : State) (i : Nat) (f : Relay → Relay) : (s.modRelay i f).entries = s.entries := rfl
@[simp] theorem State.modRelay_slots (s : State) (i : Nat) (f : Relay → Relay) : (s.modRelay i f).slots = s.slots := rfl
@[simp] theorem State.modRelay_leaves (s : State) (i : Nat) (f : Relay → Relay) : (s.modRelay i f).leaves = s.leaves := rfl
@[simp] theorem State.modRelay_notes (s : State) (i : Nat) (f : Relay → Relay) : (s.modRelay i f).notes = s.notes := rfl
@[simp] theorem State.modRelay_seam (s : State) (i : Nat) (f : Relay → Relay) : (s.modRelay i f).seam = s.seam := rfl
@[simp] theorem State.modRelay_seamNext (s : State) (i : Nat) (f : Relay → Relay) : (s.modRelay i f).seamNext = s.seamNext := rfl
@[simp] theorem State.modRelay_waitq (s : State) (i : Nat) (f : Relay → Relay) : (s.modRelay i f).waitq = s.waitq := rfl
@[simp] theorem State.modRelay_backing (s : State) (i : Nat) (f : Relay → Relay) : (s.modRelay i f).backing = s.backing := rfl
@[simp] theorem State.modRelay_mblocks (s : State) (i : Nat) (f : Relay → Relay) : (s.modRelay i f).mblocks = s.mblocks := rfl
@[simp] theorem State.modRelay_ablocks (s : State) (i : Nat) (f : Relay → Relay) : (s.modRelay i f).ablocks = s.ablocks := rfl
@[simp] theorem State.modRelay_accs (s : State) (i : Nat) (f : Relay → Relay) : (s.modRelay i f).accs = s.accs := rfl
@[simp] theorem State.modRelay_stages (s : State) (i : Nat) (f : Relay → Relay) : (s.modRelay i f).stages = s.stages := rfl
@[simp] theorem State.modRelay_lockDir (s : State) (i : Nat) (f : Relay → Relay) : (s.modRelay i f).lockDir = s.lockDir := rfl
@[simp] theorem State.modRelay_dirLag (s : State) (i : Nat) (f : Relay → Relay) : (s.modRelay i f).dirLag = s.dirLag := rfl
@[simp] theorem State.modRelay_files (s : State) (i : Nat) (f : Relay → Relay) : (s.modRelay i f).files = s.files := rfl
@[simp] theorem State.modRelay_seqs (s : State) (i : Nat) (f : Relay → Relay) : (s.modRelay i f).seqs = s.seqs := rfl
@[simp] theorem State.modRelay_pages (s : State) (i : Nat) (f : Relay → Relay) : (s.modRelay i f).pages = s.pages := rfl
@[simp] theorem State.modRelay_pageFrame (s : State) (i : Nat) (f : Relay → Relay) : (s.modRelay i f).pageFrame = s.pageFrame := rfl
@[simp] theorem State.modRelay_badPages (s : State) (i : Nat) (f : Relay → Relay) : (s.modRelay i f).badPages = s.badPages := rfl
@[simp] theorem State.modRelay_holds (s : State) (i : Nat) (f : Relay → Relay) : (s.modRelay i f).holds = s.holds := rfl
@[simp] theorem State.modRelay_groups (s : State) (i : Nat) (f : Relay → Relay) : (s.modRelay i f).groups = s.groups := rfl
@[simp] theorem State.modRelay_grpSel (s : State) (i : Nat) (f : Relay → Relay) : (s.modRelay i f).grpSel = s.grpSel := rfl
@[simp] theorem State.modRelay_chips (s : State) (i : Nat) (f : Relay → Relay) : (s.modRelay i f).chips = s.chips := rfl
@[simp] theorem State.modRelay_lctxs (s : State) (i : Nat) (f : Relay → Relay) : (s.modRelay i f).lctxs = s.lctxs := rfl
@[simp] theorem State.modRelay_gather (s : State) (i : Nat) (f : Relay → Relay) : (s.modRelay i f).gather = s.gather := rfl
@[simp] theorem State.modRelay_susp (s : State) (i : Nat) (f : Relay → Relay) : (s.modRelay i f).susp = s.susp := rfl
@[simp] theorem State.modRelay_glocks (s : State) (i : Nat) (f : Relay → Relay) : (s.modRelay i f).glocks = s.glocks := rfl
@[simp] theorem State.modRelay_glockReqs (s : State) (i : Nat) (f : Relay → Relay) : (s.modRelay i f).glockReqs = s.glockReqs := rfl
@[simp] theorem State.modRelay_ports (s : State) (i : Nat) (f : Relay → Relay) : (s.modRelay i f).ports = s.ports := rfl
@[simp] theorem State.modRelay_tun (s : State) (i : Nat) (f : Relay → Relay) : (s.modRelay i f).tun = s.tun := rfl
@[simp] theorem State.modRelay_wq (s : State) (i : Nat) (f : Relay → Relay) : (s.modRelay i f).wq = s.wq := rfl
@[simp] theorem State.modRelay_wk (s : State) (i : Nat) (f : Relay → Relay) : (s.modRelay i f).wk = s.wk := rfl
@[simp] theorem State.modRelay_pwrc (s : State) (i : Nat) (f : Relay → Relay) : (s.modRelay i f).pwrc = s.pwrc := rfl
@[simp] theorem State.modRelay_blks (s : State) (i : Nat) (f : Relay → Relay) : (s.modRelay i f).blks = s.blks := rfl
@[simp] theorem State.modRelay_alive (s : State) (i : Nat) (f : Relay → Relay) : (s.modRelay i f).alive = s.alive := rfl
@[simp] theorem State.modRelay_conds (s : State) (i : Nat) (f : Relay → Relay) : (s.modRelay i f).conds = s.conds := rfl
@[simp] theorem State.modRelay_rep (s : State) (i : Nat) (f : Relay → Relay) : (s.modRelay i f).rep = s.rep := rfl
@[simp] theorem State.modRelay_tsync (s : State) (i : Nat) (f : Relay → Relay) : (s.modRelay i f).tsync = s.tsync := rfl
@[simp] theorem State.modRelay_tap (s : State) (i : Nat) (f : Relay → Relay) : (s.modRelay i f).tap = s.tap := rfl
@[simp] theorem State.modRelay_trace (s : State) (i : Nat) (f : Relay → Relay) : (s.modRelay i f).trace = s.trace := rfl
@[simp] theorem State.modRelay_resets (s : State) (i : Nat) (f : Relay → Relay) : (s.modRelay i f).resets = s.resets := rfl

/-! ### setSlot -/

@[simp] theorem State.setSlot_pending (s : State) (p i : Nat) (r : Option SlotRec) : (s.setSlot p i r).pending = s.pending := rfl
@[simp] theorem State.setSlot_now (s : State) (p i : Nat) (r : Option SlotRec) : (s.setSlot p i r).now = s.now := rfl
@[simp] theorem State.setSlot_free (s : State) (p i : Nat) (r : Option SlotRec) : (s.setSlot p i r).free = s.free := rfl
@[simp] theorem State.setSlot_todo (s : State) (p i : Nat) (r : Option SlotRec) : (s.setSlot p i r).todo = s.todo := rfl
@[simp] theorem State.setSlot_onHold (s : State) (p i : Nat) (r : Option SlotRec) : (s.setSlot p i r).onHold = s.onHold := rfl
@[simp] theorem State.setSlot_upsets (s : State) (p i : Nat) (r : Option SlotRec) : (s.setSlot p i r).upsets = s.upsets := rfl
@[simp] theorem State.setSlot_out (s : State) (p i : Nat) (r : Option SlotRec) : (s.setSlot p i r).out = s.out := rfl
@[simp] theorem State.setSlot_iml (s : State) (p i : Nat) (r : Option SlotRec) : (s.setSlot p i r).iml = s.iml := rfl
@[simp] theorem State.setSlot_rom (s : State) (p i : Nat) (r : Option SlotRec) : (s.setSlot p i r).rom = s.rom := rfl
@[simp] theorem State.setSlot_pins (s : State) (p i : Nat) (r : Option SlotRec) : (s.setSlot p i r).pins = s.pins := rfl
@[simp] theorem State.setSlot_img (s : State) (p i : Nat) (r : Option SlotRec) : (s.setSlot p i r).img = s.img := rfl
@[simp] theorem State.setSlot_posmap (s : State) (p i : Nat) (r : Option SlotRec) : (s.setSlot p i r).posmap = s.posmap := rfl
@[simp] theorem State.setSlot_votes (s : State) (p i : Nat) (r : Option SlotRec) : (s.setSlot p i r).votes = s.votes := rfl
@[simp] theorem State.setSlot_use (s : State) (p i : Nat) (r : Option SlotRec) : (s.setSlot p i r).use = s.use := rfl
@[simp] theorem State.setSlot_spent (s : State) (p i : Nat) (r : Option SlotRec) : (s.setSlot p i r).spent = s.spent := rfl
@[simp] theorem State.setSlot_refusals (s : State) (p i : Nat) (r : Option SlotRec) : (s.setSlot p i r).refusals = s.refusals := rfl
@[simp] theorem State.setSlot_held (s : State) (p i : Nat) (r : Option SlotRec) : (s.setSlot p i r).held = s.held := rfl
@[simp] theorem State.setSlot_lanes (s : State) (p i : Nat) (r : Option SlotRec) : (s.setSlot p i r).lanes = s.lanes := rfl
@[simp] theorem State.setSlot_entries (s : State) (p i : Nat) (r : Option SlotRec) : (s.setSlot p i r).entries = s.entries := rfl
@[simp] theorem State.setSlot_leaves (s : State) (p i : Nat) (r : Option SlotRec) : (s.setSlot p i r).leaves = s.leaves := rfl
@[simp] theorem State.setSlot_notes (s : State) (p i : Nat) (r : Option SlotRec) : (s.setSlot p i r).notes = s.notes := rfl
@[simp] theorem State.setSlot_seam (s : State) (p i : Nat) (r : Option SlotRec) : (s.setSlot p i r).seam = s.seam := rfl
@[simp] theorem State.setSlot_seamNext (s : State) (p i : Nat) (r : Option SlotRec) : (s.setSlot p i r).seamNext = s.seamNext := rfl
@[simp] theorem State.setSlot_waitq (s : State) (p i : Nat) (r : Option SlotRec) : (s.setSlot p i r).waitq = s.waitq := rfl
@[simp] theorem State.setSlot_recs (s : State) (p i : Nat) (r : Option SlotRec) : (s.setSlot p i r).recs = s.recs := rfl
@[simp] theorem State.setSlot_backing (s : State) (p i : Nat) (r : Option SlotRec) : (s.setSlot p i r).backing = s.backing := rfl
@[simp] theorem State.setSlot_mblocks (s : State) (p i : Nat) (r : Option SlotRec) : (s.setSlot p i r).mblocks = s.mblocks := rfl
@[simp] theorem State.setSlot_ablocks (s : State) (p i : Nat) (r : Option SlotRec) : (s.setSlot p i r).ablocks = s.ablocks := rfl
@[simp] theorem State.setSlot_accs (s : State) (p i : Nat) (r : Option SlotRec) : (s.setSlot p i r).accs = s.accs := rfl
@[simp] theorem State.setSlot_stages (s : State) (p i : Nat) (r : Option SlotRec) : (s.setSlot p i r).stages = s.stages := rfl
@[simp] theorem State.setSlot_lockDir (s : State) (p i : Nat) (r : Option SlotRec) : (s.setSlot p i r).lockDir = s.lockDir := rfl
@[simp] theorem State.setSlot_dirLag (s : State) (p i : Nat) (r : Option SlotRec) : (s.setSlot p i r).dirLag = s.dirLag := rfl
@[simp] theorem State.setSlot_files (s : State) (p i : Nat) (r : Option SlotRec) : (s.setSlot p i r).files = s.files := rfl
@[simp] theorem State.setSlot_seqs (s : State) (p i : Nat) (r : Option SlotRec) : (s.setSlot p i r).seqs = s.seqs := rfl
@[simp] theorem State.setSlot_pages (s : State) (p i : Nat) (r : Option SlotRec) : (s.setSlot p i r).pages = s.pages := rfl
@[simp] theorem State.setSlot_pageFrame (s : State) (p i : Nat) (r : Option SlotRec) : (s.setSlot p i r).pageFrame = s.pageFrame := rfl
@[simp] theorem State.setSlot_badPages (s : State) (p i : Nat) (r : Option SlotRec) : (s.setSlot p i r).badPages = s.badPages := rfl
@[simp] theorem State.setSlot_holds (s : State) (p i : Nat) (r : Option SlotRec) : (s.setSlot p i r).holds = s.holds := rfl
@[simp] theorem State.setSlot_groups (s : State) (p i : Nat) (r : Option SlotRec) : (s.setSlot p i r).groups = s.groups := rfl
@[simp] theorem State.setSlot_grpSel (s : State) (p i : Nat) (r : Option SlotRec) : (s.setSlot p i r).grpSel = s.grpSel := rfl
@[simp] theorem State.setSlot_chips (s : State) (p i : Nat) (r : Option SlotRec) : (s.setSlot p i r).chips = s.chips := rfl
@[simp] theorem State.setSlot_lctxs (s : State) (p i : Nat) (r : Option SlotRec) : (s.setSlot p i r).lctxs = s.lctxs := rfl
@[simp] theorem State.setSlot_gather (s : State) (p i : Nat) (r : Option SlotRec) : (s.setSlot p i r).gather = s.gather := rfl
@[simp] theorem State.setSlot_susp (s : State) (p i : Nat) (r : Option SlotRec) : (s.setSlot p i r).susp = s.susp := rfl
@[simp] theorem State.setSlot_glocks (s : State) (p i : Nat) (r : Option SlotRec) : (s.setSlot p i r).glocks = s.glocks := rfl
@[simp] theorem State.setSlot_glockReqs (s : State) (p i : Nat) (r : Option SlotRec) : (s.setSlot p i r).glockReqs = s.glockReqs := rfl
@[simp] theorem State.setSlot_ports (s : State) (p i : Nat) (r : Option SlotRec) : (s.setSlot p i r).ports = s.ports := rfl
@[simp] theorem State.setSlot_tun (s : State) (p i : Nat) (r : Option SlotRec) : (s.setSlot p i r).tun = s.tun := rfl
@[simp] theorem State.setSlot_wq (s : State) (p i : Nat) (r : Option SlotRec) : (s.setSlot p i r).wq = s.wq := rfl
@[simp] theorem State.setSlot_wk (s : State) (p i : Nat) (r : Option SlotRec) : (s.setSlot p i r).wk = s.wk := rfl
@[simp] theorem State.setSlot_pwrc (s : State) (p i : Nat) (r : Option SlotRec) : (s.setSlot p i r).pwrc = s.pwrc := rfl
@[simp] theorem State.setSlot_blks (s : State) (p i : Nat) (r : Option SlotRec) : (s.setSlot p i r).blks = s.blks := rfl
@[simp] theorem State.setSlot_alive (s : State) (p i : Nat) (r : Option SlotRec) : (s.setSlot p i r).alive = s.alive := rfl
@[simp] theorem State.setSlot_conds (s : State) (p i : Nat) (r : Option SlotRec) : (s.setSlot p i r).conds = s.conds := rfl
@[simp] theorem State.setSlot_rep (s : State) (p i : Nat) (r : Option SlotRec) : (s.setSlot p i r).rep = s.rep := rfl
@[simp] theorem State.setSlot_tsync (s : State) (p i : Nat) (r : Option SlotRec) : (s.setSlot p i r).tsync = s.tsync := rfl
@[simp] theorem State.setSlot_tap (s : State) (p i : Nat) (r : Option SlotRec) : (s.setSlot p i r).tap = s.tap := rfl
@[simp] theorem State.setSlot_trace (s : State) (p i : Nat) (r : Option SlotRec) : (s.setSlot p i r).trace = s.trace := rfl
@[simp] theorem State.setSlot_resets (s : State) (p i : Nat) (r : Option SlotRec) : (s.setSlot p i r).resets = s.resets := rfl

/-! ### modEntry -/

@[simp] theorem State.modEntry_pending (s : State) (e : EntryId) (f : Entry → Entry) : (s.modEntry e f).pending = s.pending := rfl
@[simp] theorem State.modEntry_now (s : State) (e : EntryId) (f : Entry → Entry) : (s.modEntry e f).now = s.now := rfl
@[simp] theorem State.modEntry_free (s : State) (e : EntryId) (f : Entry → Entry) : (s.modEntry e f).free = s.free := rfl
@[simp] theorem State.modEntry_todo (s : State) (e : EntryId) (f : Entry → Entry) : (s.modEntry e f).todo = s.todo := rfl
@[simp] theorem State.modEntry_onHold (s : State) (e : EntryId) (f : Entry → Entry) : (s.modEntry e f).onHold = s.onHold := rfl
@[simp] theorem State.modEntry_upsets (s : State) (e : EntryId) (f : Entry → Entry) : (s.modEntry e f).upsets = s.upsets := rfl
@[simp] theorem State.modEntry_out (s : State) (e : EntryId) (f : Entry → Entry) : (s.modEntry e f).out = s.out := rfl
@[simp] theorem State.modEntry_iml (s : State) (e : EntryId) (f : Entry → Entry) : (s.modEntry e f).iml = s.iml := rfl
@[simp] theorem State.modEntry_rom (s : State) (e : EntryId) (f : Entry → Entry) : (s.modEntry e f).rom = s.rom := rfl
@[simp] theorem State.modEntry_pins (s : State) (e : EntryId) (f : Entry → Entry) : (s.modEntry e f).pins = s.pins := rfl
@[simp] theorem State.modEntry_img (s : State) (e : EntryId) (f : Entry → Entry) : (s.modEntry e f).img = s.img := rfl
@[simp] theorem State.modEntry_posmap (s : State) (e : EntryId) (f : Entry → Entry) : (s.modEntry e f).posmap = s.posmap := rfl
@[simp] theorem State.modEntry_votes (s : State) (e : EntryId) (f : Entry → Entry) : (s.modEntry e f).votes = s.votes := rfl
@[simp] theorem State.modEntry_use (s : State) (e : EntryId) (f : Entry → Entry) : (s.modEntry e f).use = s.use := rfl
@[simp] theorem State.modEntry_spent (s : State) (e : EntryId) (f : Entry → Entry) : (s.modEntry e f).spent = s.spent := rfl
@[simp] theorem State.modEntry_refusals (s : State) (e : EntryId) (f : Entry → Entry) : (s.modEntry e f).refusals = s.refusals := rfl
@[simp] theorem State.modEntry_held (s : State) (e : EntryId) (f : Entry → Entry) : (s.modEntry e f).held = s.held := rfl
@[simp] theorem State.modEntry_lanes (s : State) (e : EntryId) (f : Entry → Entry) : (s.modEntry e f).lanes = s.lanes := rfl
@[simp] theorem State.modEntry_slots (s : State) (e : EntryId) (f : Entry → Entry) : (s.modEntry e f).slots = s.slots := rfl
@[simp] theorem State.modEntry_leaves (s : State) (e : EntryId) (f : Entry → Entry) : (s.modEntry e f).leaves = s.leaves := rfl
@[simp] theorem State.modEntry_notes (s : State) (e : EntryId) (f : Entry → Entry) : (s.modEntry e f).notes = s.notes := rfl
@[simp] theorem State.modEntry_seam (s : State) (e : EntryId) (f : Entry → Entry) : (s.modEntry e f).seam = s.seam := rfl
@[simp] theorem State.modEntry_seamNext (s : State) (e : EntryId) (f : Entry → Entry) : (s.modEntry e f).seamNext = s.seamNext := rfl
@[simp] theorem State.modEntry_waitq (s : State) (e : EntryId) (f : Entry → Entry) : (s.modEntry e f).waitq = s.waitq := rfl
@[simp] theorem State.modEntry_recs (s : State) (e : EntryId) (f : Entry → Entry) : (s.modEntry e f).recs = s.recs := rfl
@[simp] theorem State.modEntry_backing (s : State) (e : EntryId) (f : Entry → Entry) : (s.modEntry e f).backing = s.backing := rfl
@[simp] theorem State.modEntry_mblocks (s : State) (e : EntryId) (f : Entry → Entry) : (s.modEntry e f).mblocks = s.mblocks := rfl
@[simp] theorem State.modEntry_ablocks (s : State) (e : EntryId) (f : Entry → Entry) : (s.modEntry e f).ablocks = s.ablocks := rfl
@[simp] theorem State.modEntry_accs (s : State) (e : EntryId) (f : Entry → Entry) : (s.modEntry e f).accs = s.accs := rfl
@[simp] theorem State.modEntry_stages (s : State) (e : EntryId) (f : Entry → Entry) : (s.modEntry e f).stages = s.stages := rfl
@[simp] theorem State.modEntry_lockDir (s : State) (e : EntryId) (f : Entry → Entry) : (s.modEntry e f).lockDir = s.lockDir := rfl
@[simp] theorem State.modEntry_dirLag (s : State) (e : EntryId) (f : Entry → Entry) : (s.modEntry e f).dirLag = s.dirLag := rfl
@[simp] theorem State.modEntry_files (s : State) (e : EntryId) (f : Entry → Entry) : (s.modEntry e f).files = s.files := rfl
@[simp] theorem State.modEntry_seqs (s : State) (e : EntryId) (f : Entry → Entry) : (s.modEntry e f).seqs = s.seqs := rfl
@[simp] theorem State.modEntry_pages (s : State) (e : EntryId) (f : Entry → Entry) : (s.modEntry e f).pages = s.pages := rfl
@[simp] theorem State.modEntry_pageFrame (s : State) (e : EntryId) (f : Entry → Entry) : (s.modEntry e f).pageFrame = s.pageFrame := rfl
@[simp] theorem State.modEntry_badPages (s : State) (e : EntryId) (f : Entry → Entry) : (s.modEntry e f).badPages = s.badPages := rfl
@[simp] theorem State.modEntry_holds (s : State) (e : EntryId) (f : Entry → Entry) : (s.modEntry e f).holds = s.holds := rfl
@[simp] theorem State.modEntry_groups (s : State) (e : EntryId) (f : Entry → Entry) : (s.modEntry e f).groups = s.groups := rfl
@[simp] theorem State.modEntry_grpSel (s : State) (e : EntryId) (f : Entry → Entry) : (s.modEntry e f).grpSel = s.grpSel := rfl
@[simp] theorem State.modEntry_chips (s : State) (e : EntryId) (f : Entry → Entry) : (s.modEntry e f).chips = s.chips := rfl
@[simp] theorem State.modEntry_lctxs (s : State) (e : EntryId) (f : Entry → Entry) : (s.modEntry e f).lctxs = s.lctxs := rfl
@[simp] theorem State.modEntry_gather (s : State) (e : EntryId) (f : Entry → Entry) : (s.modEntry e f).gather = s.gather := rfl
@[simp] theorem State.modEntry_susp (s : State) (e : EntryId) (f : Entry → Entry) : (s.modEntry e f).susp = s.susp := rfl
@[simp] theorem State.modEntry_glocks (s : State) (e : EntryId) (f : Entry → Entry) : (s.modEntry e f).glocks = s.glocks := rfl
@[simp] theorem State.modEntry_glockReqs (s : State) (e : EntryId) (f : Entry → Entry) : (s.modEntry e f).glockReqs = s.glockReqs := rfl
@[simp] theorem State.modEntry_ports (s : State) (e : EntryId) (f : Entry → Entry) : (s.modEntry e f).ports = s.ports := rfl
@[simp] theorem State.modEntry_tun (s : State) (e : EntryId) (f : Entry → Entry) : (s.modEntry e f).tun = s.tun := rfl
@[simp] theorem State.modEntry_wq (s : State) (e : EntryId) (f : Entry → Entry) : (s.modEntry e f).wq = s.wq := rfl
@[simp] theorem State.modEntry_wk (s : State) (e : EntryId) (f : Entry → Entry) : (s.modEntry e f).wk = s.wk := rfl
@[simp] theorem State.modEntry_pwrc (s : State) (e : EntryId) (f : Entry → Entry) : (s.modEntry e f).pwrc = s.pwrc := rfl
@[simp] theorem State.modEntry_blks (s : State) (e : EntryId) (f : Entry → Entry) : (s.modEntry e f).blks = s.blks := rfl
@[simp] theorem State.modEntry_alive (s : State) (e : EntryId) (f : Entry → Entry) : (s.modEntry e f).alive = s.alive := rfl
@[simp] theorem State.modEntry_conds (s : State) (e : EntryId) (f : Entry → Entry) : (s.modEntry e f).conds = s.conds := rfl
@[simp] theorem State.modEntry_rep (s : State) (e : EntryId) (f : Entry → Entry) : (s.modEntry e f).rep = s.rep := rfl
@[simp] theorem State.modEntry_tsync (s : State) (e : EntryId) (f : Entry → Entry) : (s.modEntry e f).tsync = s.tsync := rfl
@[simp] theorem State.modEntry_tap (s : State) (e : EntryId) (f : Entry → Entry) : (s.modEntry e f).tap = s.tap := rfl
@[simp] theorem State.modEntry_trace (s : State) (e : EntryId) (f : Entry → Entry) : (s.modEntry e f).trace = s.trace := rfl
@[simp] theorem State.modEntry_resets (s : State) (e : EntryId) (f : Entry → Entry) : (s.modEntry e f).resets = s.resets := rfl

/-! ### modLane -/

@[simp] theorem State.modLane_pending (s : State) (p : Nat) (f : Lanes → Lanes) : (s.modLane p f).pending = s.pending := rfl
@[simp] theorem State.modLane_now (s : State) (p : Nat) (f : Lanes → Lanes) : (s.modLane p f).now = s.now := rfl
@[simp] theorem State.modLane_free (s : State) (p : Nat) (f : Lanes → Lanes) : (s.modLane p f).free = s.free := rfl
@[simp] theorem State.modLane_todo (s : State) (p : Nat) (f : Lanes → Lanes) : (s.modLane p f).todo = s.todo := rfl
@[simp] theorem State.modLane_onHold (s : State) (p : Nat) (f : Lanes → Lanes) : (s.modLane p f).onHold = s.onHold := rfl
@[simp] theorem State.modLane_upsets (s : State) (p : Nat) (f : Lanes → Lanes) : (s.modLane p f).upsets = s.upsets := rfl
@[simp] theorem State.modLane_out (s : State) (p : Nat) (f : Lanes → Lanes) : (s.modLane p f).out = s.out := rfl
@[simp] theorem State.modLane_iml (s : State) (p : Nat) (f : Lanes → Lanes) : (s.modLane p f).iml = s.iml := rfl
@[simp] theorem State.modLane_rom (s : State) (p : Nat) (f : Lanes → Lanes) : (s.modLane p f).rom = s.rom := rfl
@[simp] theorem State.modLane_pins (s : State) (p : Nat) (f : Lanes → Lanes) : (s.modLane p f).pins = s.pins := rfl
@[simp] theorem State.modLane_img (s : State) (p : Nat) (f : Lanes → Lanes) : (s.modLane p f).img = s.img := rfl
@[simp] theorem State.modLane_posmap (s : State) (p : Nat) (f : Lanes → Lanes) : (s.modLane p f).posmap = s.posmap := rfl
@[simp] theorem State.modLane_votes (s : State) (p : Nat) (f : Lanes → Lanes) : (s.modLane p f).votes = s.votes := rfl
@[simp] theorem State.modLane_use (s : State) (p : Nat) (f : Lanes → Lanes) : (s.modLane p f).use = s.use := rfl
@[simp] theorem State.modLane_spent (s : State) (p : Nat) (f : Lanes → Lanes) : (s.modLane p f).spent = s.spent := rfl
@[simp] theorem State.modLane_refusals (s : State) (p : Nat) (f : Lanes → Lanes) : (s.modLane p f).refusals = s.refusals := rfl
@[simp] theorem State.modLane_held (s : State) (p : Nat) (f : Lanes → Lanes) : (s.modLane p f).held = s.held := rfl
@[simp] theorem State.modLane_entries (s : State) (p : Nat) (f : Lanes → Lanes) : (s.modLane p f).entries = s.entries := rfl
@[simp] theorem State.modLane_slots (s : State) (p : Nat) (f : Lanes → Lanes) : (s.modLane p f).slots = s.slots := rfl
@[simp] theorem State.modLane_leaves (s : State) (p : Nat) (f : Lanes → Lanes) : (s.modLane p f).leaves = s.leaves := rfl
@[simp] theorem State.modLane_notes (s : State) (p : Nat) (f : Lanes → Lanes) : (s.modLane p f).notes = s.notes := rfl
@[simp] theorem State.modLane_seam (s : State) (p : Nat) (f : Lanes → Lanes) : (s.modLane p f).seam = s.seam := rfl
@[simp] theorem State.modLane_seamNext (s : State) (p : Nat) (f : Lanes → Lanes) : (s.modLane p f).seamNext = s.seamNext := rfl
@[simp] theorem State.modLane_waitq (s : State) (p : Nat) (f : Lanes → Lanes) : (s.modLane p f).waitq = s.waitq := rfl
@[simp] theorem State.modLane_recs (s : State) (p : Nat) (f : Lanes → Lanes) : (s.modLane p f).recs = s.recs := rfl
@[simp] theorem State.modLane_backing (s : State) (p : Nat) (f : Lanes → Lanes) : (s.modLane p f).backing = s.backing := rfl
@[simp] theorem State.modLane_mblocks (s : State) (p : Nat) (f : Lanes → Lanes) : (s.modLane p f).mblocks = s.mblocks := rfl
@[simp] theorem State.modLane_ablocks (s : State) (p : Nat) (f : Lanes → Lanes) : (s.modLane p f).ablocks = s.ablocks := rfl
@[simp] theorem State.modLane_accs (s : State) (p : Nat) (f : Lanes → Lanes) : (s.modLane p f).accs = s.accs := rfl
@[simp] theorem State.modLane_stages (s : State) (p : Nat) (f : Lanes → Lanes) : (s.modLane p f).stages = s.stages := rfl
@[simp] theorem State.modLane_lockDir (s : State) (p : Nat) (f : Lanes → Lanes) : (s.modLane p f).lockDir = s.lockDir := rfl
@[simp] theorem State.modLane_dirLag (s : State) (p : Nat) (f : Lanes → Lanes) : (s.modLane p f).dirLag = s.dirLag := rfl
@[simp] theorem State.modLane_files (s : State) (p : Nat) (f : Lanes → Lanes) : (s.modLane p f).files = s.files := rfl
@[simp] theorem State.modLane_seqs (s : State) (p : Nat) (f : Lanes → Lanes) : (s.modLane p f).seqs = s.seqs := rfl
@[simp] theorem State.modLane_pages (s : State) (p : Nat) (f : Lanes → Lanes) : (s.modLane p f).pages = s.pages := rfl
@[simp] theorem State.modLane_pageFrame (s : State) (p : Nat) (f : Lanes → Lanes) : (s.modLane p f).pageFrame = s.pageFrame := rfl
@[simp] theorem State.modLane_badPages (s : State) (p : Nat) (f : Lanes → Lanes) : (s.modLane p f).badPages = s.badPages := rfl
@[simp] theorem State.modLane_holds (s : State) (p : Nat) (f : Lanes → Lanes) : (s.modLane p f).holds = s.holds := rfl
@[simp] theorem State.modLane_groups (s : State) (p : Nat) (f : Lanes → Lanes) : (s.modLane p f).groups = s.groups := rfl
@[simp] theorem State.modLane_grpSel (s : State) (p : Nat) (f : Lanes → Lanes) : (s.modLane p f).grpSel = s.grpSel := rfl
@[simp] theorem State.modLane_chips (s : State) (p : Nat) (f : Lanes → Lanes) : (s.modLane p f).chips = s.chips := rfl
@[simp] theorem State.modLane_lctxs (s : State) (p : Nat) (f : Lanes → Lanes) : (s.modLane p f).lctxs = s.lctxs := rfl
@[simp] theorem State.modLane_gather (s : State) (p : Nat) (f : Lanes → Lanes) : (s.modLane p f).gather = s.gather := rfl
@[simp] theorem State.modLane_susp (s : State) (p : Nat) (f : Lanes → Lanes) : (s.modLane p f).susp = s.susp := rfl
@[simp] theorem State.modLane_glocks (s : State) (p : Nat) (f : Lanes → Lanes) : (s.modLane p f).glocks = s.glocks := rfl
@[simp] theorem State.modLane_glockReqs (s : State) (p : Nat) (f : Lanes → Lanes) : (s.modLane p f).glockReqs = s.glockReqs := rfl
@[simp] theorem State.modLane_ports (s : State) (p : Nat) (f : Lanes → Lanes) : (s.modLane p f).ports = s.ports := rfl
@[simp] theorem State.modLane_tun (s : State) (p : Nat) (f : Lanes → Lanes) : (s.modLane p f).tun = s.tun := rfl
@[simp] theorem State.modLane_wq (s : State) (p : Nat) (f : Lanes → Lanes) : (s.modLane p f).wq = s.wq := rfl
@[simp] theorem State.modLane_wk (s : State) (p : Nat) (f : Lanes → Lanes) : (s.modLane p f).wk = s.wk := rfl
@[simp] theorem State.modLane_pwrc (s : State) (p : Nat) (f : Lanes → Lanes) : (s.modLane p f).pwrc = s.pwrc := rfl
@[simp] theorem State.modLane_blks (s : State) (p : Nat) (f : Lanes → Lanes) : (s.modLane p f).blks = s.blks := rfl
@[simp] theorem State.modLane_alive (s : State) (p : Nat) (f : Lanes → Lanes) : (s.modLane p f).alive = s.alive := rfl
@[simp] theorem State.modLane_conds (s : State) (p : Nat) (f : Lanes → Lanes) : (s.modLane p f).conds = s.conds := rfl
@[simp] theorem State.modLane_rep (s : State) (p : Nat) (f : Lanes → Lanes) : (s.modLane p f).rep = s.rep := rfl
@[simp] theorem State.modLane_tsync (s : State) (p : Nat) (f : Lanes → Lanes) : (s.modLane p f).tsync = s.tsync := rfl
@[simp] theorem State.modLane_tap (s : State) (p : Nat) (f : Lanes → Lanes) : (s.modLane p f).tap = s.tap := rfl
@[simp] theorem State.modLane_trace (s : State) (p : Nat) (f : Lanes → Lanes) : (s.modLane p f).trace = s.trace := rfl
@[simp] theorem State.modLane_resets (s : State) (p : Nat) (f : Lanes → Lanes) : (s.modLane p f).resets = s.resets := rfl

/-! ### modLeaf -/

@[simp] theorem State.modLeaf_pending (s : State) (p : Nat) (f : Leaf → Leaf) : (s.modLeaf p f).pending = s.pending := rfl
@[simp] theorem State.modLeaf_now (s : State) (p : Nat) (f : Leaf → Leaf) : (s.modLeaf p f).now = s.now := rfl
@[simp] theorem State.modLeaf_free (s : State) (p : Nat) (f : Leaf → Leaf) : (s.modLeaf p f).free = s.free := rfl
@[simp] theorem State.modLeaf_todo (s : State) (p : Nat) (f : Leaf → Leaf) : (s.modLeaf p f).todo = s.todo := rfl
@[simp] theorem State.modLeaf_onHold (s : State) (p : Nat) (f : Leaf → Leaf) : (s.modLeaf p f).onHold = s.onHold := rfl
@[simp] theorem State.modLeaf_upsets (s : State) (p : Nat) (f : Leaf → Leaf) : (s.modLeaf p f).upsets = s.upsets := rfl
@[simp] theorem State.modLeaf_out (s : State) (p : Nat) (f : Leaf → Leaf) : (s.modLeaf p f).out = s.out := rfl
@[simp] theorem State.modLeaf_iml (s : State) (p : Nat) (f : Leaf → Leaf) : (s.modLeaf p f).iml = s.iml := rfl
@[simp] theorem State.modLeaf_rom (s : State) (p : Nat) (f : Leaf → Leaf) : (s.modLeaf p f).rom = s.rom := rfl
@[simp] theorem State.modLeaf_pins (s : State) (p : Nat) (f : Leaf → Leaf) : (s.modLeaf p f).pins = s.pins := rfl
@[simp] theorem State.modLeaf_img (s : State) (p : Nat) (f : Leaf → Leaf) : (s.modLeaf p f).img = s.img := rfl
@[simp] theorem State.modLeaf_posmap (s : State) (p : Nat) (f : Leaf → Leaf) : (s.modLeaf p f).posmap = s.posmap := rfl
@[simp] theorem State.modLeaf_votes (s : State) (p : Nat) (f : Leaf → Leaf) : (s.modLeaf p f).votes = s.votes := rfl
@[simp] theorem State.modLeaf_use (s : State) (p : Nat) (f : Leaf → Leaf) : (s.modLeaf p f).use = s.use := rfl
@[simp] theorem State.modLeaf_spent (s : State) (p : Nat) (f : Leaf → Leaf) : (s.modLeaf p f).spent = s.spent := rfl
@[simp] theorem State.modLeaf_refusals (s : State) (p : Nat) (f : Leaf → Leaf) : (s.modLeaf p f).refusals = s.refusals := rfl
@[simp] theorem State.modLeaf_held (s : State) (p : Nat) (f : Leaf → Leaf) : (s.modLeaf p f).held = s.held := rfl
@[simp] theorem State.modLeaf_lanes (s : State) (p : Nat) (f : Leaf → Leaf) : (s.modLeaf p f).lanes = s.lanes := rfl
@[simp] theorem State.modLeaf_entries (s : State) (p : Nat) (f : Leaf → Leaf) : (s.modLeaf p f).entries = s.entries := rfl
@[simp] theorem State.modLeaf_slots (s : State) (p : Nat) (f : Leaf → Leaf) : (s.modLeaf p f).slots = s.slots := rfl
@[simp] theorem State.modLeaf_notes (s : State) (p : Nat) (f : Leaf → Leaf) : (s.modLeaf p f).notes = s.notes := rfl
@[simp] theorem State.modLeaf_seam (s : State) (p : Nat) (f : Leaf → Leaf) : (s.modLeaf p f).seam = s.seam := rfl
@[simp] theorem State.modLeaf_seamNext (s : State) (p : Nat) (f : Leaf → Leaf) : (s.modLeaf p f).seamNext = s.seamNext := rfl
@[simp] theorem State.modLeaf_waitq (s : State) (p : Nat) (f : Leaf → Leaf) : (s.modLeaf p f).waitq = s.waitq := rfl
@[simp] theorem State.modLeaf_recs (s : State) (p : Nat) (f : Leaf → Leaf) : (s.modLeaf p f).recs = s.recs := rfl
@[simp] theorem State.modLeaf_backing (s : State) (p : Nat) (f : Leaf → Leaf) : (s.modLeaf p f).backing = s.backing := rfl
@[simp] theorem State.modLeaf_mblocks (s : State) (p : Nat) (f : Leaf → Leaf) : (s.modLeaf p f).mblocks = s.mblocks := rfl
@[simp] theorem State.modLeaf_ablocks (s : State) (p : Nat) (f : Leaf → Leaf) : (s.modLeaf p f).ablocks = s.ablocks := rfl
@[simp] theorem State.modLeaf_accs (s : State) (p : Nat) (f : Leaf → Leaf) : (s.modLeaf p f).accs = s.accs := rfl
@[simp] theorem State.modLeaf_stages (s : State) (p : Nat) (f : Leaf → Leaf) : (s.modLeaf p f).stages = s.stages := rfl
@[simp] theorem State.modLeaf_lockDir (s : State) (p : Nat) (f : Leaf → Leaf) : (s.modLeaf p f).lockDir = s.lockDir := rfl
@[simp] theorem State.modLeaf_dirLag (s : State) (p : Nat) (f : Leaf → Leaf) : (s.modLeaf p f).dirLag = s.dirLag := rfl
@[simp] theorem State.modLeaf_files (s : State) (p : Nat) (f : Leaf → Leaf) : (s.modLeaf p f).files = s.files := rfl
@[simp] theorem State.modLeaf_seqs (s : State) (p : Nat) (f : Leaf → Leaf) : (s.modLeaf p f).seqs = s.seqs := rfl
@[simp] theorem State.modLeaf_pages (s : State) (p : Nat) (f : Leaf → Leaf) : (s.modLeaf p f).pages = s.pages := rfl
@[simp] theorem State.modLeaf_pageFrame (s : State) (p : Nat) (f : Leaf → Leaf) : (s.modLeaf p f).pageFrame = s.pageFrame := rfl
@[simp] theorem State.modLeaf_badPages (s : State) (p : Nat) (f : Leaf → Leaf) : (s.modLeaf p f).badPages = s.badPages := rfl
@[simp] theorem State.modLeaf_holds (s : State) (p : Nat) (f : Leaf → Leaf) : (s.modLeaf p f).holds = s.holds := rfl
@[simp] theorem State.modLeaf_groups (s : State) (p : Nat) (f : Leaf → Leaf) : (s.modLeaf p f).groups = s.groups := rfl
@[simp] theorem State.modLeaf_grpSel (s : State) (p : Nat) (f : Leaf → Leaf) : (s.modLeaf p f).grpSel = s.grpSel := rfl
@[simp] theorem State.modLeaf_chips (s : State) (p : Nat) (f : Leaf → Leaf) : (s.modLeaf p f).chips = s.chips := rfl
@[simp] theorem State.modLeaf_lctxs (s : State) (p : Nat) (f : Leaf → Leaf) : (s.modLeaf p f).lctxs = s.lctxs := rfl
@[simp] theorem State.modLeaf_gather (s : State) (p : Nat) (f : Leaf → Leaf) : (s.modLeaf p f).gather = s.gather := rfl
@[simp] theorem State.modLeaf_susp (s : State) (p : Nat) (f : Leaf → Leaf) : (s.modLeaf p f).susp = s.susp := rfl
@[simp] theorem State.modLeaf_glocks (s : State) (p : Nat) (f : Leaf → Leaf) : (s.modLeaf p f).glocks = s.glocks := rfl
@[simp] theorem State.modLeaf_glockReqs (s : State) (p : Nat) (f : Leaf → Leaf) : (s.modLeaf p f).glockReqs = s.glockReqs := rfl
@[simp] theorem State.modLeaf_ports (s : State) (p : Nat) (f : Leaf → Leaf) : (s.modLeaf p f).ports = s.ports := rfl
@[simp] theorem State.modLeaf_tun (s : State) (p : Nat) (f : Leaf → Leaf) : (s.modLeaf p f).tun = s.tun := rfl
@[simp] theorem State.modLeaf_wq (s : State) (p : Nat) (f : Leaf → Leaf) : (s.modLeaf p f).wq = s.wq := rfl
@[simp] theorem State.modLeaf_wk (s : State) (p : Nat) (f : Leaf → Leaf) : (s.modLeaf p f).wk = s.wk := rfl
@[simp] theorem State.modLeaf_pwrc (s : State) (p : Nat) (f : Leaf → Leaf) : (s.modLeaf p f).pwrc = s.pwrc := rfl
@[simp] theorem State.modLeaf_blks (s : State) (p : Nat) (f : Leaf → Leaf) : (s.modLeaf p f).blks = s.blks := rfl
@[simp] theorem State.modLeaf_alive (s : State) (p : Nat) (f : Leaf → Leaf) : (s.modLeaf p f).alive = s.alive := rfl
@[simp] theorem State.modLeaf_conds (s : State) (p : Nat) (f : Leaf → Leaf) : (s.modLeaf p f).conds = s.conds := rfl
@[simp] theorem State.modLeaf_rep (s : State) (p : Nat) (f : Leaf → Leaf) : (s.modLeaf p f).rep = s.rep := rfl
@[simp] theorem State.modLeaf_tsync (s : State) (p : Nat) (f : Leaf → Leaf) : (s.modLeaf p f).tsync = s.tsync := rfl
@[simp] theorem State.modLeaf_tap (s : State) (p : Nat) (f : Leaf → Leaf) : (s.modLeaf p f).tap = s.tap := rfl
@[simp] theorem State.modLeaf_trace (s : State) (p : Nat) (f : Leaf → Leaf) : (s.modLeaf p f).trace = s.trace := rfl
@[simp] theorem State.modLeaf_resets (s : State) (p : Nat) (f : Leaf → Leaf) : (s.modLeaf p f).resets = s.resets := rfl

/-! ### setWaiters -/

@[simp] theorem State.setWaiters_pending (s : State) (i : Nat) (l : List Waiter) : (s.setWaiters i l).pending = s.pending := rfl
@[simp] theorem State.setWaiters_now (s : State) (i : Nat) (l : List Waiter) : (s.setWaiters i l).now = s.now := rfl
@[simp] theorem State.setWaiters_free (s : State) (i : Nat) (l : List Waiter) : (s.setWaiters i l).free = s.free := rfl
@[simp] theorem State.setWaiters_todo (s : State) (i : Nat) (l : List Waiter) : (s.setWaiters i l).todo = s.todo := rfl
@[simp] theorem State.setWaiters_onHold (s : State) (i : Nat) (l : List Waiter) : (s.setWaiters i l).onHold = s.onHold := rfl
@[simp] theorem State.setWaiters_upsets (s : State) (i : Nat) (l : List Waiter) : (s.setWaiters i l).upsets = s.upsets := rfl
@[simp] theorem State.setWaiters_out (s : State) (i : Nat) (l : List Waiter) : (s.setWaiters i l).out = s.out := rfl
@[simp] theorem State.setWaiters_iml (s : State) (i : Nat) (l : List Waiter) : (s.setWaiters i l).iml = s.iml := rfl
@[simp] theorem State.setWaiters_rom (s : State) (i : Nat) (l : List Waiter) : (s.setWaiters i l).rom = s.rom := rfl
@[simp] theorem State.setWaiters_pins (s : State) (i : Nat) (l : List Waiter) : (s.setWaiters i l).pins = s.pins := rfl
@[simp] theorem State.setWaiters_img (s : State) (i : Nat) (l : List Waiter) : (s.setWaiters i l).img = s.img := rfl
@[simp] theorem State.setWaiters_posmap (s : State) (i : Nat) (l : List Waiter) : (s.setWaiters i l).posmap = s.posmap := rfl
@[simp] theorem State.setWaiters_votes (s : State) (i : Nat) (l : List Waiter) : (s.setWaiters i l).votes = s.votes := rfl
@[simp] theorem State.setWaiters_use (s : State) (i : Nat) (l : List Waiter) : (s.setWaiters i l).use = s.use := rfl
@[simp] theorem State.setWaiters_spent (s : State) (i : Nat) (l : List Waiter) : (s.setWaiters i l).spent = s.spent := rfl
@[simp] theorem State.setWaiters_refusals (s : State) (i : Nat) (l : List Waiter) : (s.setWaiters i l).refusals = s.refusals := rfl
@[simp] theorem State.setWaiters_held (s : State) (i : Nat) (l : List Waiter) : (s.setWaiters i l).held = s.held := rfl
@[simp] theorem State.setWaiters_lanes (s : State) (i : Nat) (l : List Waiter) : (s.setWaiters i l).lanes = s.lanes := rfl
@[simp] theorem State.setWaiters_entries (s : State) (i : Nat) (l : List Waiter) : (s.setWaiters i l).entries = s.entries := rfl
@[simp] theorem State.setWaiters_slots (s : State) (i : Nat) (l : List Waiter) : (s.setWaiters i l).slots = s.slots := rfl
@[simp] theorem State.setWaiters_leaves (s : State) (i : Nat) (l : List Waiter) : (s.setWaiters i l).leaves = s.leaves := rfl
@[simp] theorem State.setWaiters_notes (s : State) (i : Nat) (l : List Waiter) : (s.setWaiters i l).notes = s.notes := rfl
@[simp] theorem State.setWaiters_seam (s : State) (i : Nat) (l : List Waiter) : (s.setWaiters i l).seam = s.seam := rfl
@[simp] theorem State.setWaiters_seamNext (s : State) (i : Nat) (l : List Waiter) : (s.setWaiters i l).seamNext = s.seamNext := rfl
@[simp] theorem State.setWaiters_recs (s : State) (i : Nat) (l : List Waiter) : (s.setWaiters i l).recs = s.recs := rfl
@[simp] theorem State.setWaiters_backing (s : State) (i : Nat) (l : List Waiter) : (s.setWaiters i l).backing = s.backing := rfl
@[simp] theorem State.setWaiters_mblocks (s : State) (i : Nat) (l : List Waiter) : (s.setWaiters i l).mblocks = s.mblocks := rfl
@[simp] theorem State.setWaiters_ablocks (s : State) (i : Nat) (l : List Waiter) : (s.setWaiters i l).ablocks = s.ablocks := rfl
@[simp] theorem State.setWaiters_accs (s : State) (i : Nat) (l : List Waiter) : (s.setWaiters i l).accs = s.accs := rfl
@[simp] theorem State.setWaiters_stages (s : State) (i : Nat) (l : List Waiter) : (s.setWaiters i l).stages = s.stages := rfl
@[simp] theorem State.setWaiters_lockDir (s : State) (i : Nat) (l : List Waiter) : (s.setWaiters i l).lockDir = s.lockDir := rfl
@[simp] theorem State.setWaiters_dirLag (s : State) (i : Nat) (l : List Waiter) : (s.setWaiters i l).dirLag = s.dirLag := rfl
@[simp] theorem State.setWaiters_files (s : State) (i : Nat) (l : List Waiter) : (s.setWaiters i l).files = s.files := rfl
@[simp] theorem State.setWaiters_seqs (s : State) (i : Nat) (l : List Waiter) : (s.setWaiters i l).seqs = s.seqs := rfl
@[simp] theorem State.setWaiters_pages (s : State) (i : Nat) (l : List Waiter) : (s.setWaiters i l).pages = s.pages := rfl
@[simp] theorem State.setWaiters_pageFrame (s : State) (i : Nat) (l : List Waiter) : (s.setWaiters i l).pageFrame = s.pageFrame := rfl
@[simp] theorem State.setWaiters_badPages (s : State) (i : Nat) (l : List Waiter) : (s.setWaiters i l).badPages = s.badPages := rfl
@[simp] theorem State.setWaiters_holds (s : State) (i : Nat) (l : List Waiter) : (s.setWaiters i l).holds = s.holds := rfl
@[simp] theorem State.setWaiters_groups (s : State) (i : Nat) (l : List Waiter) : (s.setWaiters i l).groups = s.groups := rfl
@[simp] theorem State.setWaiters_grpSel (s : State) (i : Nat) (l : List Waiter) : (s.setWaiters i l).grpSel = s.grpSel := rfl
@[simp] theorem State.setWaiters_chips (s : State) (i : Nat) (l : List Waiter) : (s.setWaiters i l).chips = s.chips := rfl
@[simp] theorem State.setWaiters_lctxs (s : State) (i : Nat) (l : List Waiter) : (s.setWaiters i l).lctxs = s.lctxs := rfl
@[simp] theorem State.setWaiters_gather (s : State) (i : Nat) (l : List Waiter) : (s.setWaiters i l).gather = s.gather := rfl
@[simp] theorem State.setWaiters_susp (s : State) (i : Nat) (l : List Waiter) : (s.setWaiters i l).susp = s.susp := rfl
@[simp] theorem State.setWaiters_glocks (s : State) (i : Nat) (l : List Waiter) : (s.setWaiters i l).glocks = s.glocks := rfl
@[simp] theorem State.setWaiters_glockReqs (s : State) (i : Nat) (l : List Waiter) : (s.setWaiters i l).glockReqs = s.glockReqs := rfl
@[simp] theorem State.setWaiters_ports (s : State) (i : Nat) (l : List Waiter) : (s.setWaiters i l).ports = s.ports := rfl
@[simp] theorem State.setWaiters_tun (s : State) (i : Nat) (l : List Waiter) : (s.setWaiters i l).tun = s.tun := rfl
@[simp] theorem State.setWaiters_wq (s : State) (i : Nat) (l : List Waiter) : (s.setWaiters i l).wq = s.wq := rfl
@[simp] theorem State.setWaiters_wk (s : State) (i : Nat) (l : List Waiter) : (s.setWaiters i l).wk = s.wk := rfl
@[simp] theorem State.setWaiters_pwrc (s : State) (i : Nat) (l : List Waiter) : (s.setWaiters i l).pwrc = s.pwrc := rfl
@[simp] theorem State.setWaiters_blks (s : State) (i : Nat) (l : List Waiter) : (s.setWaiters i l).blks = s.blks := rfl
@[simp] theorem State.setWaiters_alive (s : State) (i : Nat) (l : List Waiter) : (s.setWaiters i l).alive = s.alive := rfl
@[simp] theorem State.setWaiters_conds (s : State) (i : Nat) (l : List Waiter) : (s.setWaiters i l).conds = s.conds := rfl
@[simp] theorem State.setWaiters_rep (s : State) (i : Nat) (l : List Waiter) : (s.setWaiters i l).rep = s.rep := rfl
@[simp] theorem State.setWaiters_tsync (s : State) (i : Nat) (l : List Waiter) : (s.setWaiters i l).tsync = s.tsync := rfl
@[simp] theorem State.setWaiters_tap (s : State) (i : Nat) (l : List Waiter) : (s.setWaiters i l).tap = s.tap := rfl
@[simp] theorem State.setWaiters_trace (s : State) (i : Nat) (l : List Waiter) : (s.setWaiters i l).trace = s.trace := rfl
@[simp] theorem State.setWaiters_resets (s : State) (i : Nat) (l : List Waiter) : (s.setWaiters i l).resets = s.resets := rfl

/-! ### emit -/

@[simp] theorem State.emit_pending (s : State) (o : Out) : (s.emit o).pending = s.pending := rfl
@[simp] theorem State.emit_now (s : State) (o : Out) : (s.emit o).now = s.now := rfl
@[simp] theorem State.emit_free (s : State) (o : Out) : (s.emit o).free = s.free := rfl
@[simp] theorem State.emit_todo (s : State) (o : Out) : (s.emit o).todo = s.todo := rfl
@[simp] theorem State.emit_onHold (s : State) (o : Out) : (s.emit o).onHold = s.onHold := rfl
@[simp] theorem State.emit_upsets (s : State) (o : Out) : (s.emit o).upsets = s.upsets := rfl
@[simp] theorem State.emit_iml (s : State) (o : Out) : (s.emit o).iml = s.iml := rfl
@[simp] theorem State.emit_rom (s : State) (o : Out) : (s.emit o).rom = s.rom := rfl
@[simp] theorem State.emit_pins (s : State) (o : Out) : (s.emit o).pins = s.pins := rfl
@[simp] theorem State.emit_img (s : State) (o : Out) : (s.emit o).img = s.img := rfl
@[simp] theorem State.emit_posmap (s : State) (o : Out) : (s.emit o).posmap = s.posmap := rfl
@[simp] theorem State.emit_votes (s : State) (o : Out) : (s.emit o).votes = s.votes := rfl
@[simp] theorem State.emit_use (s : State) (o : Out) : (s.emit o).use = s.use := rfl
@[simp] theorem State.emit_spent (s : State) (o : Out) : (s.emit o).spent = s.spent := rfl
@[simp] theorem State.emit_refusals (s : State) (o : Out) : (s.emit o).refusals = s.refusals := rfl
@[simp] theorem State.emit_held (s : State) (o : Out) : (s.emit o).held = s.held := rfl
@[simp] theorem State.emit_lanes (s : State) (o : Out) : (s.emit o).lanes = s.lanes := rfl
@[simp] theorem State.emit_entries (s : State) (o : Out) : (s.emit o).entries = s.entries := rfl
@[simp] theorem State.emit_slots (s : State) (o : Out) : (s.emit o).slots = s.slots := rfl
@[simp] theorem State.emit_leaves (s : State) (o : Out) : (s.emit o).leaves = s.leaves := rfl
@[simp] theorem State.emit_notes (s : State) (o : Out) : (s.emit o).notes = s.notes := rfl
@[simp] theorem State.emit_seam (s : State) (o : Out) : (s.emit o).seam = s.seam := rfl
@[simp] theorem State.emit_seamNext (s : State) (o : Out) : (s.emit o).seamNext = s.seamNext := rfl
@[simp] theorem State.emit_waitq (s : State) (o : Out) : (s.emit o).waitq = s.waitq := rfl
@[simp] theorem State.emit_recs (s : State) (o : Out) : (s.emit o).recs = s.recs := rfl
@[simp] theorem State.emit_backing (s : State) (o : Out) : (s.emit o).backing = s.backing := rfl
@[simp] theorem State.emit_mblocks (s : State) (o : Out) : (s.emit o).mblocks = s.mblocks := rfl
@[simp] theorem State.emit_ablocks (s : State) (o : Out) : (s.emit o).ablocks = s.ablocks := rfl
@[simp] theorem State.emit_accs (s : State) (o : Out) : (s.emit o).accs = s.accs := rfl
@[simp] theorem State.emit_stages (s : State) (o : Out) : (s.emit o).stages = s.stages := rfl
@[simp] theorem State.emit_lockDir (s : State) (o : Out) : (s.emit o).lockDir = s.lockDir := rfl
@[simp] theorem State.emit_dirLag (s : State) (o : Out) : (s.emit o).dirLag = s.dirLag := rfl
@[simp] theorem State.emit_files (s : State) (o : Out) : (s.emit o).files = s.files := rfl
@[simp] theorem State.emit_seqs (s : State) (o : Out) : (s.emit o).seqs = s.seqs := rfl
@[simp] theorem State.emit_pages (s : State) (o : Out) : (s.emit o).pages = s.pages := rfl
@[simp] theorem State.emit_pageFrame (s : State) (o : Out) : (s.emit o).pageFrame = s.pageFrame := rfl
@[simp] theorem State.emit_badPages (s : State) (o : Out) : (s.emit o).badPages = s.badPages := rfl
@[simp] theorem State.emit_holds (s : State) (o : Out) : (s.emit o).holds = s.holds := rfl
@[simp] theorem State.emit_groups (s : State) (o : Out) : (s.emit o).groups = s.groups := rfl
@[simp] theorem State.emit_grpSel (s : State) (o : Out) : (s.emit o).grpSel = s.grpSel := rfl
@[simp] theorem State.emit_chips (s : State) (o : Out) : (s.emit o).chips = s.chips := rfl
@[simp] theorem State.emit_lctxs (s : State) (o : Out) : (s.emit o).lctxs = s.lctxs := rfl
@[simp] theorem State.emit_gather (s : State) (o : Out) : (s.emit o).gather = s.gather := rfl
@[simp] theorem State.emit_susp (s : State) (o : Out) : (s.emit o).susp = s.susp := rfl
@[simp] theorem State.emit_glocks (s : State) (o : Out) : (s.emit o).glocks = s.glocks := rfl
@[simp] theorem State.emit_glockReqs (s : State) (o : Out) : (s.emit o).glockReqs = s.glockReqs := rfl
@[simp] theorem State.emit_ports (s : State) (o : Out) : (s.emit o).ports = s.ports := rfl
@[simp] theorem State.emit_tun (s : State) (o : Out) : (s.emit o).tun = s.tun := rfl
@[simp] theorem State.emit_wq (s : State) (o : Out) : (s.emit o).wq = s.wq := rfl
@[simp] theorem State.emit_wk (s : State) (o : Out) : (s.emit o).wk = s.wk := rfl
@[simp] theorem State.emit_pwrc (s : State) (o : Out) : (s.emit o).pwrc = s.pwrc := rfl
@[simp] theorem State.emit_blks (s : State) (o : Out) : (s.emit o).blks = s.blks := rfl
@[simp] theorem State.emit_alive (s : State) (o : Out) : (s.emit o).alive = s.alive := rfl
@[simp] theorem State.emit_conds (s : State) (o : Out) : (s.emit o).conds = s.conds := rfl
@[simp] theorem State.emit_rep (s : State) (o : Out) : (s.emit o).rep = s.rep := rfl
@[simp] theorem State.emit_tsync (s : State) (o : Out) : (s.emit o).tsync = s.tsync := rfl
@[simp] theorem State.emit_tap (s : State) (o : Out) : (s.emit o).tap = s.tap := rfl
@[simp] theorem State.emit_trace (s : State) (o : Out) : (s.emit o).trace = s.trace := rfl
@[simp] theorem State.emit_resets (s : State) (o : Out) : (s.emit o).resets = s.resets := rfl

/-! ### work -/

@[simp] theorem State.work_pending (s : State) (x : Work) : (s.work x).pending = s.pending := rfl
@[simp] theorem State.work_now (s : State) (x : Work) : (s.work x).now = s.now := rfl
@[simp] theorem State.work_free (s : State) (x : Work) : (s.work x).free = s.free := rfl
@[simp] theorem State.work_onHold (s : State) (x : Work) : (s.work x).onHold = s.onHold := rfl
@[simp] theorem State.work_upsets (s : State) (x : Work) : (s.work x).upsets = s.upsets := rfl
@[simp] theorem State.work_out (s : State) (x : Work) : (s.work x).out = s.out := rfl
@[simp] theorem State.work_iml (s : State) (x : Work) : (s.work x).iml = s.iml := rfl
@[simp] theorem State.work_rom (s : State) (x : Work) : (s.work x).rom = s.rom := rfl
@[simp] theorem State.work_pins (s : State) (x : Work) : (s.work x).pins = s.pins := rfl
@[simp] theorem State.work_img (s : State) (x : Work) : (s.work x).img = s.img := rfl
@[simp] theorem State.work_posmap (s : State) (x : Work) : (s.work x).posmap = s.posmap := rfl
@[simp] theorem State.work_votes (s : State) (x : Work) : (s.work x).votes = s.votes := rfl
@[simp] theorem State.work_use (s : State) (x : Work) : (s.work x).use = s.use := rfl
@[simp] theorem State.work_spent (s : State) (x : Work) : (s.work x).spent = s.spent := rfl
@[simp] theorem State.work_refusals (s : State) (x : Work) : (s.work x).refusals = s.refusals := rfl
@[simp] theorem State.work_held (s : State) (x : Work) : (s.work x).held = s.held := rfl
@[simp] theorem State.work_lanes (s : State) (x : Work) : (s.work x).lanes = s.lanes := rfl
@[simp] theorem State.work_entries (s : State) (x : Work) : (s.work x).entries = s.entries := rfl
@[simp] theorem State.work_slots (s : State) (x : Work) : (s.work x).slots = s.slots := rfl
@[simp] theorem State.work_leaves (s : State) (x : Work) : (s.work x).leaves = s.leaves := rfl
@[simp] theorem State.work_notes (s : State) (x : Work) : (s.work x).notes = s.notes := rfl
@[simp] theorem State.work_seam (s : State) (x : Work) : (s.work x).seam = s.seam := rfl
@[simp] theorem State.work_seamNext (s : State) (x : Work) : (s.work x).seamNext = s.seamNext := rfl
@[simp] theorem State.work_waitq (s : State) (x : Work) : (s.work x).waitq = s.waitq := rfl
@[simp] theorem State.work_recs (s : State) (x : Work) : (s.work x).recs = s.recs := rfl
@[simp] theorem State.work_backing (s : State) (x : Work) : (s.work x).backing = s.backing := rfl
@[simp] theorem State.work_mblocks (s : State) (x : Work) : (s.work x).mblocks = s.mblocks := rfl
@[simp] theorem State.work_ablocks (s : State) (x : Work) : (s.work x).ablocks = s.ablocks := rfl
@[simp] theorem State.work_accs (s : State) (x : Work) : (s.work x).accs = s.accs := rfl
@[simp] theorem State.work_stages (s : State) (x : Work) : (s.work x).stages = s.stages := rfl
@[simp] theorem State.work_lockDir (s : State) (x : Work) : (s.work x).lockDir = s.lockDir := rfl
@[simp] theorem State.work_dirLag (s : State) (x : Work) : (s.work x).dirLag = s.dirLag := rfl
@[simp] theorem State.work_files (s : State) (x : Work) : (s.work x).files = s.files := rfl
@[simp] theorem State.work_seqs (s : State) (x : Work) : (s.work x).seqs = s.seqs := rfl
@[simp] theorem State.work_pages (s : State) (x : Work) : (s.work x).pages = s.pages := rfl
@[simp] theorem State.work_pageFrame (s : State) (x : Work) : (s.work x).pageFrame = s.pageFrame := rfl
@[simp] theorem State.work_badPages (s : State) (x : Work) : (s.work x).badPages = s.badPages := rfl
@[simp] theorem State.work_holds (s : State) (x : Work) : (s.work x).holds = s.holds := rfl
@[simp] theorem State.work_groups (s : State) (x : Work) : (s.work x).groups = s.groups := rfl
@[simp] theorem State.work_grpSel (s : State) (x : Work) : (s.work x).grpSel = s.grpSel := rfl
@[simp] theorem State.work_chips (s : State) (x : Work) : (s.work x).chips = s.chips := rfl
@[simp] theorem State.work_lctxs (s : State) (x : Work) : (s.work x).lctxs = s.lctxs := rfl
@[simp] theorem State.work_gather (s : State) (x : Work) : (s.work x).gather = s.gather := rfl
@[simp] theorem State.work_susp (s : State) (x : Work) : (s.work x).susp = s.susp := rfl
@[simp] theorem State.work_glocks (s : State) (x : Work) : (s.work x).glocks = s.glocks := rfl
@[simp] theorem State.work_glockReqs (s : State) (x : Work) : (s.work x).glockReqs = s.glockReqs := rfl
@[simp] theorem State.work_ports (s : State) (x : Work) : (s.work x).ports = s.ports := rfl
@[simp] theorem State.work_tun (s : State) (x : Work) : (s.work x).tun = s.tun := rfl
@[simp] theorem State.work_wq (s : State) (x : Work) : (s.work x).wq = s.wq := rfl
@[simp] theorem State.work_wk (s : State) (x : Work) : (s.work x).wk = s.wk := rfl
@[simp] theorem State.work_pwrc (s : State) (x : Work) : (s.work x).pwrc = s.pwrc := rfl
@[simp] theorem State.work_blks (s : State) (x : Work) : (s.work x).blks = s.blks := rfl
@[simp] theorem State.work_alive (s : State) (x : Work) : (s.work x).alive = s.alive := rfl
@[simp] theorem State.work_conds (s : State) (x : Work) : (s.work x).conds = s.conds := rfl
@[simp] theorem State.work_rep (s : State) (x : Work) : (s.work x).rep = s.rep := rfl
@[simp] theorem State.work_tsync (s : State) (x : Work) : (s.work x).tsync = s.tsync := rfl
@[simp] theorem State.work_tap (s : State) (x : Work) : (s.work x).tap = s.tap := rfl
@[simp] theorem State.work_trace (s : State) (x : Work) : (s.work x).trace = s.trace := rfl
@[simp] theorem State.work_resets (s : State) (x : Work) : (s.work x).resets = s.resets := rfl

/-! ### modUse -/

@[simp] theorem State.modUse_pending (s : State) (w : Wing) (d : Nat) (f : Use → Use) : (s.modUse w d f).pending = s.pending := rfl
@[simp] theorem State.modUse_now (s : State) (w : Wing) (d : Nat) (f : Use → Use) : (s.modUse w d f).now = s.now := rfl
@[simp] theorem State.modUse_free (s : State) (w : Wing) (d : Nat) (f : Use → Use) : (s.modUse w d f).free = s.free := rfl
@[simp] theorem State.modUse_todo (s : State) (w : Wing) (d : Nat) (f : Use → Use) : (s.modUse w d f).todo = s.todo := rfl
@[simp] theorem State.modUse_onHold (s : State) (w : Wing) (d : Nat) (f : Use → Use) : (s.modUse w d f).onHold = s.onHold := rfl
@[simp] theorem State.modUse_upsets (s : State) (w : Wing) (d : Nat) (f : Use → Use) : (s.modUse w d f).upsets = s.upsets := rfl
@[simp] theorem State.modUse_out (s : State) (w : Wing) (d : Nat) (f : Use → Use) : (s.modUse w d f).out = s.out := rfl
@[simp] theorem State.modUse_iml (s : State) (w : Wing) (d : Nat) (f : Use → Use) : (s.modUse w d f).iml = s.iml := rfl
@[simp] theorem State.modUse_rom (s : State) (w : Wing) (d : Nat) (f : Use → Use) : (s.modUse w d f).rom = s.rom := rfl
@[simp] theorem State.modUse_pins (s : State) (w : Wing) (d : Nat) (f : Use → Use) : (s.modUse w d f).pins = s.pins := rfl
@[simp] theorem State.modUse_img (s : State) (w : Wing) (d : Nat) (f : Use → Use) : (s.modUse w d f).img = s.img := rfl
@[simp] theorem State.modUse_posmap (s : State) (w : Wing) (d : Nat) (f : Use → Use) : (s.modUse w d f).posmap = s.posmap := rfl
@[simp] theorem State.modUse_votes (s : State) (w : Wing) (d : Nat) (f : Use → Use) : (s.modUse w d f).votes = s.votes := rfl
@[simp] theorem State.modUse_spent (s : State) (w : Wing) (d : Nat) (f : Use → Use) : (s.modUse w d f).spent = s.spent := rfl
@[simp] theorem State.modUse_refusals (s : State) (w : Wing) (d : Nat) (f : Use → Use) : (s.modUse w d f).refusals = s.refusals := rfl
@[simp] theorem State.modUse_held (s : State) (w : Wing) (d : Nat) (f : Use → Use) : (s.modUse w d f).held = s.held := rfl
@[simp] theorem State.modUse_lanes (s : State) (w : Wing) (d : Nat) (f : Use → Use) : (s.modUse w d f).lanes = s.lanes := rfl
@[simp] theorem State.modUse_entries (s : State) (w : Wing) (d : Nat) (f : Use → Use) : (s.modUse w d f).entries = s.entries := rfl
@[simp] theorem State.modUse_slots (s : State) (w : Wing) (d : Nat) (f : Use → Use) : (s.modUse w d f).slots = s.slots := rfl
@[simp] theorem State.modUse_leaves (s : State) (w : Wing) (d : Nat) (f : Use → Use) : (s.modUse w d f).leaves = s.leaves := rfl
@[simp] theorem State.modUse_notes (s : State) (w : Wing) (d : Nat) (f : Use → Use) : (s.modUse w d f).notes = s.notes := rfl
@[simp] theorem State.modUse_seam (s : State) (w : Wing) (d : Nat) (f : Use → Use) : (s.modUse w d f).seam = s.seam := rfl
@[simp] theorem State.modUse_seamNext (s : State) (w : Wing) (d : Nat) (f : Use → Use) : (s.modUse w d f).seamNext = s.seamNext := rfl
@[simp] theorem State.modUse_waitq (s : State) (w : Wing) (d : Nat) (f : Use → Use) : (s.modUse w d f).waitq = s.waitq := rfl
@[simp] theorem State.modUse_recs (s : State) (w : Wing) (d : Nat) (f : Use → Use) : (s.modUse w d f).recs = s.recs := rfl
@[simp] theorem State.modUse_backing (s : State) (w : Wing) (d : Nat) (f : Use → Use) : (s.modUse w d f).backing = s.backing := rfl
@[simp] theorem State.modUse_mblocks (s : State) (w : Wing) (d : Nat) (f : Use → Use) : (s.modUse w d f).mblocks = s.mblocks := rfl
@[simp] theorem State.modUse_ablocks (s : State) (w : Wing) (d : Nat) (f : Use → Use) : (s.modUse w d f).ablocks = s.ablocks := rfl
@[simp] theorem State.modUse_accs (s : State) (w : Wing) (d : Nat) (f : Use → Use) : (s.modUse w d f).accs = s.accs := rfl
@[simp] theorem State.modUse_stages (s : State) (w : Wing) (d : Nat) (f : Use → Use) : (s.modUse w d f).stages = s.stages := rfl
@[simp] theorem State.modUse_lockDir (s : State) (w : Wing) (d : Nat) (f : Use → Use) : (s.modUse w d f).lockDir = s.lockDir := rfl
@[simp] theorem State.modUse_dirLag (s : State) (w : Wing) (d : Nat) (f : Use → Use) : (s.modUse w d f).dirLag = s.dirLag := rfl
@[simp] theorem State.modUse_files (s : State) (w : Wing) (d : Nat) (f : Use → Use) : (s.modUse w d f).files = s.files := rfl
@[simp] theorem State.modUse_seqs (s : State) (w : Wing) (d : Nat) (f : Use → Use) : (s.modUse w d f).seqs = s.seqs := rfl
@[simp] theorem State.modUse_pages (s : State) (w : Wing) (d : Nat) (f : Use → Use) : (s.modUse w d f).pages = s.pages := rfl
@[simp] theorem State.modUse_pageFrame (s : State) (w : Wing) (d : Nat) (f : Use → Use) : (s.modUse w d f).pageFrame = s.pageFrame := rfl
@[simp] theorem State.modUse_badPages (s : State) (w : Wing) (d : Nat) (f : Use → Use) : (s.modUse w d f).badPages = s.badPages := rfl
@[simp] theorem State.modUse_holds (s : State) (w : Wing) (d : Nat) (f : Use → Use) : (s.modUse w d f).holds = s.holds := rfl
@[simp] theorem State.modUse_groups (s : State) (w : Wing) (d : Nat) (f : Use → Use) : (s.modUse w d f).groups = s.groups := rfl
@[simp] theorem State.modUse_grpSel (s : State) (w : Wing) (d : Nat) (f : Use → Use) : (s.modUse w d f).grpSel = s.grpSel := rfl
@[simp] theorem State.modUse_chips (s : State) (w : Wing) (d : Nat) (f : Use → Use) : (s.modUse w d f).chips = s.chips := rfl
@[simp] theorem State.modUse_lctxs (s : State) (w : Wing) (d : Nat) (f : Use → Use) : (s.modUse w d f).lctxs = s.lctxs := rfl
@[simp] theorem State.modUse_gather (s : State) (w : Wing) (d : Nat) (f : Use → Use) : (s.modUse w d f).gather = s.gather := rfl
@[simp] theorem State.modUse_susp (s : State) (w : Wing) (d : Nat) (f : Use → Use) : (s.modUse w d f).susp = s.susp := rfl
@[simp] theorem State.modUse_glocks (s : State) (w : Wing) (d : Nat) (f : Use → Use) : (s.modUse w d f).glocks = s.glocks := rfl
@[simp] theorem State.modUse_glockReqs (s : State) (w : Wing) (d : Nat) (f : Use → Use) : (s.modUse w d f).glockReqs = s.glockReqs := rfl
@[simp] theorem State.modUse_ports (s : State) (w : Wing) (d : Nat) (f : Use → Use) : (s.modUse w d f).ports = s.ports := rfl
@[simp] theorem State.modUse_tun (s : State) (w : Wing) (d : Nat) (f : Use → Use) : (s.modUse w d f).tun = s.tun := rfl
@[simp] theorem State.modUse_wq (s : State) (w : Wing) (d : Nat) (f : Use → Use) : (s.modUse w d f).wq = s.wq := rfl
@[simp] theorem State.modUse_wk (s : State) (w : Wing) (d : Nat) (f : Use → Use) : (s.modUse w d f).wk = s.wk := rfl
@[simp] theorem State.modUse_pwrc (s : State) (w : Wing) (d : Nat) (f : Use → Use) : (s.modUse w d f).pwrc = s.pwrc := rfl
@[simp] theorem State.modUse_blks (s : State) (w : Wing) (d : Nat) (f : Use → Use) : (s.modUse w d f).blks = s.blks := rfl
@[simp] theorem State.modUse_alive (s : State) (w : Wing) (d : Nat) (f : Use → Use) : (s.modUse w d f).alive = s.alive := rfl
@[simp] theorem State.modUse_conds (s : State) (w : Wing) (d : Nat) (f : Use → Use) : (s.modUse w d f).conds = s.conds := rfl
@[simp] theorem State.modUse_rep (s : State) (w : Wing) (d : Nat) (f : Use → Use) : (s.modUse w d f).rep = s.rep := rfl
@[simp] theorem State.modUse_tsync (s : State) (w : Wing) (d : Nat) (f : Use → Use) : (s.modUse w d f).tsync = s.tsync := rfl
@[simp] theorem State.modUse_tap (s : State) (w : Wing) (d : Nat) (f : Use → Use) : (s.modUse w d f).tap = s.tap := rfl
@[simp] theorem State.modUse_trace (s : State) (w : Wing) (d : Nat) (f : Use → Use) : (s.modUse w d f).trace = s.trace := rfl
@[simp] theorem State.modUse_resets (s : State) (w : Wing) (d : Nat) (f : Use → Use) : (s.modUse w d f).resets = s.resets := rfl

/-! ### setAcc -/

@[simp] theorem State.setAcc_pending (s : State) (w : Wing) (a : Nat) (x : BitVec 2048) : (s.setAcc w a x).pending = s.pending := rfl
@[simp] theorem State.setAcc_now (s : State) (w : Wing) (a : Nat) (x : BitVec 2048) : (s.setAcc w a x).now = s.now := rfl
@[simp] theorem State.setAcc_free (s : State) (w : Wing) (a : Nat) (x : BitVec 2048) : (s.setAcc w a x).free = s.free := rfl
@[simp] theorem State.setAcc_todo (s : State) (w : Wing) (a : Nat) (x : BitVec 2048) : (s.setAcc w a x).todo = s.todo := rfl
@[simp] theorem State.setAcc_onHold (s : State) (w : Wing) (a : Nat) (x : BitVec 2048) : (s.setAcc w a x).onHold = s.onHold := rfl
@[simp] theorem State.setAcc_upsets (s : State) (w : Wing) (a : Nat) (x : BitVec 2048) : (s.setAcc w a x).upsets = s.upsets := rfl
@[simp] theorem State.setAcc_out (s : State) (w : Wing) (a : Nat) (x : BitVec 2048) : (s.setAcc w a x).out = s.out := rfl
@[simp] theorem State.setAcc_iml (s : State) (w : Wing) (a : Nat) (x : BitVec 2048) : (s.setAcc w a x).iml = s.iml := rfl
@[simp] theorem State.setAcc_rom (s : State) (w : Wing) (a : Nat) (x : BitVec 2048) : (s.setAcc w a x).rom = s.rom := rfl
@[simp] theorem State.setAcc_pins (s : State) (w : Wing) (a : Nat) (x : BitVec 2048) : (s.setAcc w a x).pins = s.pins := rfl
@[simp] theorem State.setAcc_img (s : State) (w : Wing) (a : Nat) (x : BitVec 2048) : (s.setAcc w a x).img = s.img := rfl
@[simp] theorem State.setAcc_posmap (s : State) (w : Wing) (a : Nat) (x : BitVec 2048) : (s.setAcc w a x).posmap = s.posmap := rfl
@[simp] theorem State.setAcc_votes (s : State) (w : Wing) (a : Nat) (x : BitVec 2048) : (s.setAcc w a x).votes = s.votes := rfl
@[simp] theorem State.setAcc_use (s : State) (w : Wing) (a : Nat) (x : BitVec 2048) : (s.setAcc w a x).use = s.use := rfl
@[simp] theorem State.setAcc_spent (s : State) (w : Wing) (a : Nat) (x : BitVec 2048) : (s.setAcc w a x).spent = s.spent := rfl
@[simp] theorem State.setAcc_refusals (s : State) (w : Wing) (a : Nat) (x : BitVec 2048) : (s.setAcc w a x).refusals = s.refusals := rfl
@[simp] theorem State.setAcc_held (s : State) (w : Wing) (a : Nat) (x : BitVec 2048) : (s.setAcc w a x).held = s.held := rfl
@[simp] theorem State.setAcc_lanes (s : State) (w : Wing) (a : Nat) (x : BitVec 2048) : (s.setAcc w a x).lanes = s.lanes := rfl
@[simp] theorem State.setAcc_entries (s : State) (w : Wing) (a : Nat) (x : BitVec 2048) : (s.setAcc w a x).entries = s.entries := rfl
@[simp] theorem State.setAcc_slots (s : State) (w : Wing) (a : Nat) (x : BitVec 2048) : (s.setAcc w a x).slots = s.slots := rfl
@[simp] theorem State.setAcc_leaves (s : State) (w : Wing) (a : Nat) (x : BitVec 2048) : (s.setAcc w a x).leaves = s.leaves := rfl
@[simp] theorem State.setAcc_notes (s : State) (w : Wing) (a : Nat) (x : BitVec 2048) : (s.setAcc w a x).notes = s.notes := rfl
@[simp] theorem State.setAcc_seam (s : State) (w : Wing) (a : Nat) (x : BitVec 2048) : (s.setAcc w a x).seam = s.seam := rfl
@[simp] theorem State.setAcc_seamNext (s : State) (w : Wing) (a : Nat) (x : BitVec 2048) : (s.setAcc w a x).seamNext = s.seamNext := rfl
@[simp] theorem State.setAcc_waitq (s : State) (w : Wing) (a : Nat) (x : BitVec 2048) : (s.setAcc w a x).waitq = s.waitq := rfl
@[simp] theorem State.setAcc_recs (s : State) (w : Wing) (a : Nat) (x : BitVec 2048) : (s.setAcc w a x).recs = s.recs := rfl
@[simp] theorem State.setAcc_backing (s : State) (w : Wing) (a : Nat) (x : BitVec 2048) : (s.setAcc w a x).backing = s.backing := rfl
@[simp] theorem State.setAcc_mblocks (s : State) (w : Wing) (a : Nat) (x : BitVec 2048) : (s.setAcc w a x).mblocks = s.mblocks := rfl
@[simp] theorem State.setAcc_ablocks (s : State) (w : Wing) (a : Nat) (x : BitVec 2048) : (s.setAcc w a x).ablocks = s.ablocks := rfl
@[simp] theorem State.setAcc_stages (s : State) (w : Wing) (a : Nat) (x : BitVec 2048) : (s.setAcc w a x).stages = s.stages := rfl
@[simp] theorem State.setAcc_lockDir (s : State) (w : Wing) (a : Nat) (x : BitVec 2048) : (s.setAcc w a x).lockDir = s.lockDir := rfl
@[simp] theorem State.setAcc_dirLag (s : State) (w : Wing) (a : Nat) (x : BitVec 2048) : (s.setAcc w a x).dirLag = s.dirLag := rfl
@[simp] theorem State.setAcc_files (s : State) (w : Wing) (a : Nat) (x : BitVec 2048) : (s.setAcc w a x).files = s.files := rfl
@[simp] theorem State.setAcc_seqs (s : State) (w : Wing) (a : Nat) (x : BitVec 2048) : (s.setAcc w a x).seqs = s.seqs := rfl
@[simp] theorem State.setAcc_pages (s : State) (w : Wing) (a : Nat) (x : BitVec 2048) : (s.setAcc w a x).pages = s.pages := rfl
@[simp] theorem State.setAcc_pageFrame (s : State) (w : Wing) (a : Nat) (x : BitVec 2048) : (s.setAcc w a x).pageFrame = s.pageFrame := rfl
@[simp] theorem State.setAcc_badPages (s : State) (w : Wing) (a : Nat) (x : BitVec 2048) : (s.setAcc w a x).badPages = s.badPages := rfl
@[simp] theorem State.setAcc_holds (s : State) (w : Wing) (a : Nat) (x : BitVec 2048) : (s.setAcc w a x).holds = s.holds := rfl
@[simp] theorem State.setAcc_groups (s : State) (w : Wing) (a : Nat) (x : BitVec 2048) : (s.setAcc w a x).groups = s.groups := rfl
@[simp] theorem State.setAcc_grpSel (s : State) (w : Wing) (a : Nat) (x : BitVec 2048) : (s.setAcc w a x).grpSel = s.grpSel := rfl
@[simp] theorem State.setAcc_chips (s : State) (w : Wing) (a : Nat) (x : BitVec 2048) : (s.setAcc w a x).chips = s.chips := rfl
@[simp] theorem State.setAcc_lctxs (s : State) (w : Wing) (a : Nat) (x : BitVec 2048) : (s.setAcc w a x).lctxs = s.lctxs := rfl
@[simp] theorem State.setAcc_gather (s : State) (w : Wing) (a : Nat) (x : BitVec 2048) : (s.setAcc w a x).gather = s.gather := rfl
@[simp] theorem State.setAcc_susp (s : State) (w : Wing) (a : Nat) (x : BitVec 2048) : (s.setAcc w a x).susp = s.susp := rfl
@[simp] theorem State.setAcc_glocks (s : State) (w : Wing) (a : Nat) (x : BitVec 2048) : (s.setAcc w a x).glocks = s.glocks := rfl
@[simp] theorem State.setAcc_glockReqs (s : State) (w : Wing) (a : Nat) (x : BitVec 2048) : (s.setAcc w a x).glockReqs = s.glockReqs := rfl
@[simp] theorem State.setAcc_ports (s : State) (w : Wing) (a : Nat) (x : BitVec 2048) : (s.setAcc w a x).ports = s.ports := rfl
@[simp] theorem State.setAcc_tun (s : State) (w : Wing) (a : Nat) (x : BitVec 2048) : (s.setAcc w a x).tun = s.tun := rfl
@[simp] theorem State.setAcc_wq (s : State) (w : Wing) (a : Nat) (x : BitVec 2048) : (s.setAcc w a x).wq = s.wq := rfl
@[simp] theorem State.setAcc_wk (s : State) (w : Wing) (a : Nat) (x : BitVec 2048) : (s.setAcc w a x).wk = s.wk := rfl
@[simp] theorem State.setAcc_pwrc (s : State) (w : Wing) (a : Nat) (x : BitVec 2048) : (s.setAcc w a x).pwrc = s.pwrc := rfl
@[simp] theorem State.setAcc_blks (s : State) (w : Wing) (a : Nat) (x : BitVec 2048) : (s.setAcc w a x).blks = s.blks := rfl
@[simp] theorem State.setAcc_alive (s : State) (w : Wing) (a : Nat) (x : BitVec 2048) : (s.setAcc w a x).alive = s.alive := rfl
@[simp] theorem State.setAcc_conds (s : State) (w : Wing) (a : Nat) (x : BitVec 2048) : (s.setAcc w a x).conds = s.conds := rfl
@[simp] theorem State.setAcc_rep (s : State) (w : Wing) (a : Nat) (x : BitVec 2048) : (s.setAcc w a x).rep = s.rep := rfl
@[simp] theorem State.setAcc_tsync (s : State) (w : Wing) (a : Nat) (x : BitVec 2048) : (s.setAcc w a x).tsync = s.tsync := rfl
@[simp] theorem State.setAcc_tap (s : State) (w : Wing) (a : Nat) (x : BitVec 2048) : (s.setAcc w a x).tap = s.tap := rfl
@[simp] theorem State.setAcc_trace (s : State) (w : Wing) (a : Nat) (x : BitVec 2048) : (s.setAcc w a x).trace = s.trace := rfl
@[simp] theorem State.setAcc_resets (s : State) (w : Wing) (a : Nat) (x : BitVec 2048) : (s.setAcc w a x).resets = s.resets := rfl

/-! ### takeOp -/

@[simp] theorem State.takeOp_pending (s : State) (w : Wing) (d : Nat) : (s.takeOp w d).pending = s.pending := by cases w <;> rfl
@[simp] theorem State.takeOp_now (s : State) (w : Wing) (d : Nat) : (s.takeOp w d).now = s.now := by cases w <;> rfl
@[simp] theorem State.takeOp_free (s : State) (w : Wing) (d : Nat) : (s.takeOp w d).free = s.free := by cases w <;> rfl
@[simp] theorem State.takeOp_todo (s : State) (w : Wing) (d : Nat) : (s.takeOp w d).todo = s.todo := by cases w <;> rfl
@[simp] theorem State.takeOp_onHold (s : State) (w : Wing) (d : Nat) : (s.takeOp w d).onHold = s.onHold := by cases w <;> rfl
@[simp] theorem State.takeOp_upsets (s : State) (w : Wing) (d : Nat) : (s.takeOp w d).upsets = s.upsets := by cases w <;> rfl
@[simp] theorem State.takeOp_out (s : State) (w : Wing) (d : Nat) : (s.takeOp w d).out = s.out := by cases w <;> rfl
@[simp] theorem State.takeOp_iml (s : State) (w : Wing) (d : Nat) : (s.takeOp w d).iml = s.iml := by cases w <;> rfl
@[simp] theorem State.takeOp_rom (s : State) (w : Wing) (d : Nat) : (s.takeOp w d).rom = s.rom := by cases w <;> rfl
@[simp] theorem State.takeOp_pins (s : State) (w : Wing) (d : Nat) : (s.takeOp w d).pins = s.pins := by cases w <;> rfl
@[simp] theorem State.takeOp_img (s : State) (w : Wing) (d : Nat) : (s.takeOp w d).img = s.img := by cases w <;> rfl
@[simp] theorem State.takeOp_posmap (s : State) (w : Wing) (d : Nat) : (s.takeOp w d).posmap = s.posmap := by cases w <;> rfl
@[simp] theorem State.takeOp_votes (s : State) (w : Wing) (d : Nat) : (s.takeOp w d).votes = s.votes := by cases w <;> rfl
@[simp] theorem State.takeOp_spent (s : State) (w : Wing) (d : Nat) : (s.takeOp w d).spent = s.spent := by cases w <;> rfl
@[simp] theorem State.takeOp_refusals (s : State) (w : Wing) (d : Nat) : (s.takeOp w d).refusals = s.refusals := by cases w <;> rfl
@[simp] theorem State.takeOp_held (s : State) (w : Wing) (d : Nat) : (s.takeOp w d).held = s.held := by cases w <;> rfl
@[simp] theorem State.takeOp_lanes (s : State) (w : Wing) (d : Nat) : (s.takeOp w d).lanes = s.lanes := by cases w <;> rfl
@[simp] theorem State.takeOp_entries (s : State) (w : Wing) (d : Nat) : (s.takeOp w d).entries = s.entries := by cases w <;> rfl
@[simp] theorem State.takeOp_slots (s : State) (w : Wing) (d : Nat) : (s.takeOp w d).slots = s.slots := by cases w <;> rfl
@[simp] theorem State.takeOp_leaves (s : State) (w : Wing) (d : Nat) : (s.takeOp w d).leaves = s.leaves := by cases w <;> rfl
@[simp] theorem State.takeOp_notes (s : State) (w : Wing) (d : Nat) : (s.takeOp w d).notes = s.notes := by cases w <;> rfl
@[simp] theorem State.takeOp_seam (s : State) (w : Wing) (d : Nat) : (s.takeOp w d).seam = s.seam := by cases w <;> rfl
@[simp] theorem State.takeOp_seamNext (s : State) (w : Wing) (d : Nat) : (s.takeOp w d).seamNext = s.seamNext := by cases w <;> rfl
@[simp] theorem State.takeOp_waitq (s : State) (w : Wing) (d : Nat) : (s.takeOp w d).waitq = s.waitq := by cases w <;> rfl
@[simp] theorem State.takeOp_recs (s : State) (w : Wing) (d : Nat) : (s.takeOp w d).recs = s.recs := by cases w <;> rfl
@[simp] theorem State.takeOp_backing (s : State) (w : Wing) (d : Nat) : (s.takeOp w d).backing = s.backing := by cases w <;> rfl
@[simp] theorem State.takeOp_mblocks (s : State) (w : Wing) (d : Nat) : (s.takeOp w d).mblocks = s.mblocks := by cases w <;> rfl
@[simp] theorem State.takeOp_ablocks (s : State) (w : Wing) (d : Nat) : (s.takeOp w d).ablocks = s.ablocks := by cases w <;> rfl
@[simp] theorem State.takeOp_accs (s : State) (w : Wing) (d : Nat) : (s.takeOp w d).accs = s.accs := by cases w <;> rfl
@[simp] theorem State.takeOp_stages (s : State) (w : Wing) (d : Nat) : (s.takeOp w d).stages = s.stages := by cases w <;> rfl
@[simp] theorem State.takeOp_lockDir (s : State) (w : Wing) (d : Nat) : (s.takeOp w d).lockDir = s.lockDir := by cases w <;> rfl
@[simp] theorem State.takeOp_dirLag (s : State) (w : Wing) (d : Nat) : (s.takeOp w d).dirLag = s.dirLag := by cases w <;> rfl
@[simp] theorem State.takeOp_files (s : State) (w : Wing) (d : Nat) : (s.takeOp w d).files = s.files := by cases w <;> rfl
@[simp] theorem State.takeOp_seqs (s : State) (w : Wing) (d : Nat) : (s.takeOp w d).seqs = s.seqs := by cases w <;> rfl
@[simp] theorem State.takeOp_pages (s : State) (w : Wing) (d : Nat) : (s.takeOp w d).pages = s.pages := by cases w <;> rfl
@[simp] theorem State.takeOp_pageFrame (s : State) (w : Wing) (d : Nat) : (s.takeOp w d).pageFrame = s.pageFrame := by cases w <;> rfl
@[simp] theorem State.takeOp_badPages (s : State) (w : Wing) (d : Nat) : (s.takeOp w d).badPages = s.badPages := by cases w <;> rfl
@[simp] theorem State.takeOp_holds (s : State) (w : Wing) (d : Nat) : (s.takeOp w d).holds = s.holds := by cases w <;> rfl
@[simp] theorem State.takeOp_groups (s : State) (w : Wing) (d : Nat) : (s.takeOp w d).groups = s.groups := by cases w <;> rfl
@[simp] theorem State.takeOp_grpSel (s : State) (w : Wing) (d : Nat) : (s.takeOp w d).grpSel = s.grpSel := by cases w <;> rfl
@[simp] theorem State.takeOp_chips (s : State) (w : Wing) (d : Nat) : (s.takeOp w d).chips = s.chips := by cases w <;> rfl
@[simp] theorem State.takeOp_lctxs (s : State) (w : Wing) (d : Nat) : (s.takeOp w d).lctxs = s.lctxs := by cases w <;> rfl
@[simp] theorem State.takeOp_gather (s : State) (w : Wing) (d : Nat) : (s.takeOp w d).gather = s.gather := by cases w <;> rfl
@[simp] theorem State.takeOp_susp (s : State) (w : Wing) (d : Nat) : (s.takeOp w d).susp = s.susp := by cases w <;> rfl
@[simp] theorem State.takeOp_glocks (s : State) (w : Wing) (d : Nat) : (s.takeOp w d).glocks = s.glocks := by cases w <;> rfl
@[simp] theorem State.takeOp_glockReqs (s : State) (w : Wing) (d : Nat) : (s.takeOp w d).glockReqs = s.glockReqs := by cases w <;> rfl
@[simp] theorem State.takeOp_ports (s : State) (w : Wing) (d : Nat) : (s.takeOp w d).ports = s.ports := by cases w <;> rfl
@[simp] theorem State.takeOp_tun (s : State) (w : Wing) (d : Nat) : (s.takeOp w d).tun = s.tun := by cases w <;> rfl
@[simp] theorem State.takeOp_pwrc (s : State) (w : Wing) (d : Nat) : (s.takeOp w d).pwrc = s.pwrc := by cases w <;> rfl
@[simp] theorem State.takeOp_blks (s : State) (w : Wing) (d : Nat) : (s.takeOp w d).blks = s.blks := by cases w <;> rfl
@[simp] theorem State.takeOp_alive (s : State) (w : Wing) (d : Nat) : (s.takeOp w d).alive = s.alive := by cases w <;> rfl
@[simp] theorem State.takeOp_conds (s : State) (w : Wing) (d : Nat) : (s.takeOp w d).conds = s.conds := by cases w <;> rfl
@[simp] theorem State.takeOp_rep (s : State) (w : Wing) (d : Nat) : (s.takeOp w d).rep = s.rep := by cases w <;> rfl
@[simp] theorem State.takeOp_tsync (s : State) (w : Wing) (d : Nat) : (s.takeOp w d).tsync = s.tsync := by cases w <;> rfl
@[simp] theorem State.takeOp_tap (s : State) (w : Wing) (d : Nat) : (s.takeOp w d).tap = s.tap := by cases w <;> rfl
@[simp] theorem State.takeOp_trace (s : State) (w : Wing) (d : Nat) : (s.takeOp w d).trace = s.trace := by cases w <;> rfl
@[simp] theorem State.takeOp_resets (s : State) (w : Wing) (d : Nat) : (s.takeOp w d).resets = s.resets := by cases w <;> rfl

/-! ### dropOp -/

@[simp] theorem State.dropOp_pending (s : State) (w : Wing) (d : Nat) : (s.dropOp w d).pending = s.pending := by cases w <;> rfl
@[simp] theorem State.dropOp_now (s : State) (w : Wing) (d : Nat) : (s.dropOp w d).now = s.now := by cases w <;> rfl
@[simp] theorem State.dropOp_free (s : State) (w : Wing) (d : Nat) : (s.dropOp w d).free = s.free := by cases w <;> rfl
@[simp] theorem State.dropOp_todo (s : State) (w : Wing) (d : Nat) : (s.dropOp w d).todo = s.todo := by cases w <;> rfl
@[simp] theorem State.dropOp_onHold (s : State) (w : Wing) (d : Nat) : (s.dropOp w d).onHold = s.onHold := by cases w <;> rfl
@[simp] theorem State.dropOp_upsets (s : State) (w : Wing) (d : Nat) : (s.dropOp w d).upsets = s.upsets := by cases w <;> rfl
@[simp] theorem State.dropOp_out (s : State) (w : Wing) (d : Nat) : (s.dropOp w d).out = s.out := by cases w <;> rfl
@[simp] theorem State.dropOp_iml (s : State) (w : Wing) (d : Nat) : (s.dropOp w d).iml = s.iml := by cases w <;> rfl
@[simp] theorem State.dropOp_rom (s : State) (w : Wing) (d : Nat) : (s.dropOp w d).rom = s.rom := by cases w <;> rfl
@[simp] theorem State.dropOp_pins (s : State) (w : Wing) (d : Nat) : (s.dropOp w d).pins = s.pins := by cases w <;> rfl
@[simp] theorem State.dropOp_img (s : State) (w : Wing) (d : Nat) : (s.dropOp w d).img = s.img := by cases w <;> rfl
@[simp] theorem State.dropOp_posmap (s : State) (w : Wing) (d : Nat) : (s.dropOp w d).posmap = s.posmap := by cases w <;> rfl
@[simp] theorem State.dropOp_votes (s : State) (w : Wing) (d : Nat) : (s.dropOp w d).votes = s.votes := by cases w <;> rfl
@[simp] theorem State.dropOp_spent (s : State) (w : Wing) (d : Nat) : (s.dropOp w d).spent = s.spent := by cases w <;> rfl
@[simp] theorem State.dropOp_refusals (s : State) (w : Wing) (d : Nat) : (s.dropOp w d).refusals = s.refusals := by cases w <;> rfl
@[simp] theorem State.dropOp_held (s : State) (w : Wing) (d : Nat) : (s.dropOp w d).held = s.held := by cases w <;> rfl
@[simp] theorem State.dropOp_lanes (s : State) (w : Wing) (d : Nat) : (s.dropOp w d).lanes = s.lanes := by cases w <;> rfl
@[simp] theorem State.dropOp_entries (s : State) (w : Wing) (d : Nat) : (s.dropOp w d).entries = s.entries := by cases w <;> rfl
@[simp] theorem State.dropOp_slots (s : State) (w : Wing) (d : Nat) : (s.dropOp w d).slots = s.slots := by cases w <;> rfl
@[simp] theorem State.dropOp_leaves (s : State) (w : Wing) (d : Nat) : (s.dropOp w d).leaves = s.leaves := by cases w <;> rfl
@[simp] theorem State.dropOp_notes (s : State) (w : Wing) (d : Nat) : (s.dropOp w d).notes = s.notes := by cases w <;> rfl
@[simp] theorem State.dropOp_seam (s : State) (w : Wing) (d : Nat) : (s.dropOp w d).seam = s.seam := by cases w <;> rfl
@[simp] theorem State.dropOp_seamNext (s : State) (w : Wing) (d : Nat) : (s.dropOp w d).seamNext = s.seamNext := by cases w <;> rfl
@[simp] theorem State.dropOp_waitq (s : State) (w : Wing) (d : Nat) : (s.dropOp w d).waitq = s.waitq := by cases w <;> rfl
@[simp] theorem State.dropOp_recs (s : State) (w : Wing) (d : Nat) : (s.dropOp w d).recs = s.recs := by cases w <;> rfl
@[simp] theorem State.dropOp_backing (s : State) (w : Wing) (d : Nat) : (s.dropOp w d).backing = s.backing := by cases w <;> rfl
@[simp] theorem State.dropOp_mblocks (s : State) (w : Wing) (d : Nat) : (s.dropOp w d).mblocks = s.mblocks := by cases w <;> rfl
@[simp] theorem State.dropOp_ablocks (s : State) (w : Wing) (d : Nat) : (s.dropOp w d).ablocks = s.ablocks := by cases w <;> rfl
@[simp] theorem State.dropOp_accs (s : State) (w : Wing) (d : Nat) : (s.dropOp w d).accs = s.accs := by cases w <;> rfl
@[simp] theorem State.dropOp_stages (s : State) (w : Wing) (d : Nat) : (s.dropOp w d).stages = s.stages := by cases w <;> rfl
@[simp] theorem State.dropOp_lockDir (s : State) (w : Wing) (d : Nat) : (s.dropOp w d).lockDir = s.lockDir := by cases w <;> rfl
@[simp] theorem State.dropOp_dirLag (s : State) (w : Wing) (d : Nat) : (s.dropOp w d).dirLag = s.dirLag := by cases w <;> rfl
@[simp] theorem State.dropOp_files (s : State) (w : Wing) (d : Nat) : (s.dropOp w d).files = s.files := by cases w <;> rfl
@[simp] theorem State.dropOp_seqs (s : State) (w : Wing) (d : Nat) : (s.dropOp w d).seqs = s.seqs := by cases w <;> rfl
@[simp] theorem State.dropOp_pages (s : State) (w : Wing) (d : Nat) : (s.dropOp w d).pages = s.pages := by cases w <;> rfl
@[simp] theorem State.dropOp_pageFrame (s : State) (w : Wing) (d : Nat) : (s.dropOp w d).pageFrame = s.pageFrame := by cases w <;> rfl
@[simp] theorem State.dropOp_badPages (s : State) (w : Wing) (d : Nat) : (s.dropOp w d).badPages = s.badPages := by cases w <;> rfl
@[simp] theorem State.dropOp_holds (s : State) (w : Wing) (d : Nat) : (s.dropOp w d).holds = s.holds := by cases w <;> rfl
@[simp] theorem State.dropOp_groups (s : State) (w : Wing) (d : Nat) : (s.dropOp w d).groups = s.groups := by cases w <;> rfl
@[simp] theorem State.dropOp_grpSel (s : State) (w : Wing) (d : Nat) : (s.dropOp w d).grpSel = s.grpSel := by cases w <;> rfl
@[simp] theorem State.dropOp_chips (s : State) (w : Wing) (d : Nat) : (s.dropOp w d).chips = s.chips := by cases w <;> rfl
@[simp] theorem State.dropOp_lctxs (s : State) (w : Wing) (d : Nat) : (s.dropOp w d).lctxs = s.lctxs := by cases w <;> rfl
@[simp] theorem State.dropOp_gather (s : State) (w : Wing) (d : Nat) : (s.dropOp w d).gather = s.gather := by cases w <;> rfl
@[simp] theorem State.dropOp_susp (s : State) (w : Wing) (d : Nat) : (s.dropOp w d).susp = s.susp := by cases w <;> rfl
@[simp] theorem State.dropOp_glocks (s : State) (w : Wing) (d : Nat) : (s.dropOp w d).glocks = s.glocks := by cases w <;> rfl
@[simp] theorem State.dropOp_glockReqs (s : State) (w : Wing) (d : Nat) : (s.dropOp w d).glockReqs = s.glockReqs := by cases w <;> rfl
@[simp] theorem State.dropOp_ports (s : State) (w : Wing) (d : Nat) : (s.dropOp w d).ports = s.ports := by cases w <;> rfl
@[simp] theorem State.dropOp_tun (s : State) (w : Wing) (d : Nat) : (s.dropOp w d).tun = s.tun := by cases w <;> rfl
@[simp] theorem State.dropOp_pwrc (s : State) (w : Wing) (d : Nat) : (s.dropOp w d).pwrc = s.pwrc := by cases w <;> rfl
@[simp] theorem State.dropOp_blks (s : State) (w : Wing) (d : Nat) : (s.dropOp w d).blks = s.blks := by cases w <;> rfl
@[simp] theorem State.dropOp_alive (s : State) (w : Wing) (d : Nat) : (s.dropOp w d).alive = s.alive := by cases w <;> rfl
@[simp] theorem State.dropOp_conds (s : State) (w : Wing) (d : Nat) : (s.dropOp w d).conds = s.conds := by cases w <;> rfl
@[simp] theorem State.dropOp_rep (s : State) (w : Wing) (d : Nat) : (s.dropOp w d).rep = s.rep := by cases w <;> rfl
@[simp] theorem State.dropOp_tsync (s : State) (w : Wing) (d : Nat) : (s.dropOp w d).tsync = s.tsync := by cases w <;> rfl
@[simp] theorem State.dropOp_tap (s : State) (w : Wing) (d : Nat) : (s.dropOp w d).tap = s.tap := by cases w <;> rfl
@[simp] theorem State.dropOp_trace (s : State) (w : Wing) (d : Nat) : (s.dropOp w d).trace = s.trace := by cases w <;> rfl
@[simp] theorem State.dropOp_resets (s : State) (w : Wing) (d : Nat) : (s.dropOp w d).resets = s.resets := by cases w <;> rfl

/-! ### perfN -/

@[simp] theorem State.perfN_pending (s : State) (c n : Nat) : (s.perfN c n).pending = s.pending := rfl
@[simp] theorem State.perfN_now (s : State) (c n : Nat) : (s.perfN c n).now = s.now := rfl
@[simp] theorem State.perfN_free (s : State) (c n : Nat) : (s.perfN c n).free = s.free := rfl
@[simp] theorem State.perfN_todo (s : State) (c n : Nat) : (s.perfN c n).todo = s.todo := rfl
@[simp] theorem State.perfN_onHold (s : State) (c n : Nat) : (s.perfN c n).onHold = s.onHold := rfl
@[simp] theorem State.perfN_upsets (s : State) (c n : Nat) : (s.perfN c n).upsets = s.upsets := rfl
@[simp] theorem State.perfN_out (s : State) (c n : Nat) : (s.perfN c n).out = s.out := rfl
@[simp] theorem State.perfN_iml (s : State) (c n : Nat) : (s.perfN c n).iml = s.iml := rfl
@[simp] theorem State.perfN_rom (s : State) (c n : Nat) : (s.perfN c n).rom = s.rom := rfl
@[simp] theorem State.perfN_pins (s : State) (c n : Nat) : (s.perfN c n).pins = s.pins := rfl
@[simp] theorem State.perfN_img (s : State) (c n : Nat) : (s.perfN c n).img = s.img := rfl
@[simp] theorem State.perfN_posmap (s : State) (c n : Nat) : (s.perfN c n).posmap = s.posmap := rfl
@[simp] theorem State.perfN_votes (s : State) (c n : Nat) : (s.perfN c n).votes = s.votes := rfl
@[simp] theorem State.perfN_use (s : State) (c n : Nat) : (s.perfN c n).use = s.use := rfl
@[simp] theorem State.perfN_spent (s : State) (c n : Nat) : (s.perfN c n).spent = s.spent := rfl
@[simp] theorem State.perfN_refusals (s : State) (c n : Nat) : (s.perfN c n).refusals = s.refusals := rfl
@[simp] theorem State.perfN_held (s : State) (c n : Nat) : (s.perfN c n).held = s.held := rfl
@[simp] theorem State.perfN_lanes (s : State) (c n : Nat) : (s.perfN c n).lanes = s.lanes := rfl
@[simp] theorem State.perfN_entries (s : State) (c n : Nat) : (s.perfN c n).entries = s.entries := rfl
@[simp] theorem State.perfN_slots (s : State) (c n : Nat) : (s.perfN c n).slots = s.slots := rfl
@[simp] theorem State.perfN_leaves (s : State) (c n : Nat) : (s.perfN c n).leaves = s.leaves := rfl
@[simp] theorem State.perfN_notes (s : State) (c n : Nat) : (s.perfN c n).notes = s.notes := rfl
@[simp] theorem State.perfN_seam (s : State) (c n : Nat) : (s.perfN c n).seam = s.seam := rfl
@[simp] theorem State.perfN_seamNext (s : State) (c n : Nat) : (s.perfN c n).seamNext = s.seamNext := rfl
@[simp] theorem State.perfN_waitq (s : State) (c n : Nat) : (s.perfN c n).waitq = s.waitq := rfl
@[simp] theorem State.perfN_recs (s : State) (c n : Nat) : (s.perfN c n).recs = s.recs := rfl
@[simp] theorem State.perfN_backing (s : State) (c n : Nat) : (s.perfN c n).backing = s.backing := rfl
@[simp] theorem State.perfN_mblocks (s : State) (c n : Nat) : (s.perfN c n).mblocks = s.mblocks := rfl
@[simp] theorem State.perfN_ablocks (s : State) (c n : Nat) : (s.perfN c n).ablocks = s.ablocks := rfl
@[simp] theorem State.perfN_accs (s : State) (c n : Nat) : (s.perfN c n).accs = s.accs := rfl
@[simp] theorem State.perfN_stages (s : State) (c n : Nat) : (s.perfN c n).stages = s.stages := rfl
@[simp] theorem State.perfN_lockDir (s : State) (c n : Nat) : (s.perfN c n).lockDir = s.lockDir := rfl
@[simp] theorem State.perfN_dirLag (s : State) (c n : Nat) : (s.perfN c n).dirLag = s.dirLag := rfl
@[simp] theorem State.perfN_files (s : State) (c n : Nat) : (s.perfN c n).files = s.files := rfl
@[simp] theorem State.perfN_seqs (s : State) (c n : Nat) : (s.perfN c n).seqs = s.seqs := rfl
@[simp] theorem State.perfN_pages (s : State) (c n : Nat) : (s.perfN c n).pages = s.pages := rfl
@[simp] theorem State.perfN_pageFrame (s : State) (c n : Nat) : (s.perfN c n).pageFrame = s.pageFrame := rfl
@[simp] theorem State.perfN_badPages (s : State) (c n : Nat) : (s.perfN c n).badPages = s.badPages := rfl
@[simp] theorem State.perfN_holds (s : State) (c n : Nat) : (s.perfN c n).holds = s.holds := rfl
@[simp] theorem State.perfN_groups (s : State) (c n : Nat) : (s.perfN c n).groups = s.groups := rfl
@[simp] theorem State.perfN_grpSel (s : State) (c n : Nat) : (s.perfN c n).grpSel = s.grpSel := rfl
@[simp] theorem State.perfN_chips (s : State) (c n : Nat) : (s.perfN c n).chips = s.chips := rfl
@[simp] theorem State.perfN_lctxs (s : State) (c n : Nat) : (s.perfN c n).lctxs = s.lctxs := rfl
@[simp] theorem State.perfN_gather (s : State) (c n : Nat) : (s.perfN c n).gather = s.gather := rfl
@[simp] theorem State.perfN_susp (s : State) (c n : Nat) : (s.perfN c n).susp = s.susp := rfl
@[simp] theorem State.perfN_glocks (s : State) (c n : Nat) : (s.perfN c n).glocks = s.glocks := rfl
@[simp] theorem State.perfN_glockReqs (s : State) (c n : Nat) : (s.perfN c n).glockReqs = s.glockReqs := rfl
@[simp] theorem State.perfN_ports (s : State) (c n : Nat) : (s.perfN c n).ports = s.ports := rfl
@[simp] theorem State.perfN_tun (s : State) (c n : Nat) : (s.perfN c n).tun = s.tun := rfl
@[simp] theorem State.perfN_wq (s : State) (c n : Nat) : (s.perfN c n).wq = s.wq := rfl
@[simp] theorem State.perfN_wk (s : State) (c n : Nat) : (s.perfN c n).wk = s.wk := rfl
@[simp] theorem State.perfN_pwrc (s : State) (c n : Nat) : (s.perfN c n).pwrc = s.pwrc := rfl
@[simp] theorem State.perfN_blks (s : State) (c n : Nat) : (s.perfN c n).blks = s.blks := rfl
@[simp] theorem State.perfN_alive (s : State) (c n : Nat) : (s.perfN c n).alive = s.alive := rfl
@[simp] theorem State.perfN_conds (s : State) (c n : Nat) : (s.perfN c n).conds = s.conds := rfl
@[simp] theorem State.perfN_rep (s : State) (c n : Nat) : (s.perfN c n).rep = s.rep := rfl
@[simp] theorem State.perfN_tsync (s : State) (c n : Nat) : (s.perfN c n).tsync = s.tsync := rfl
@[simp] theorem State.perfN_tap (s : State) (c n : Nat) : (s.perfN c n).tap = s.tap := rfl
@[simp] theorem State.perfN_resets (s : State) (c n : Nat) : (s.perfN c n).resets = s.resets := rfl

/-! ### perf -/

@[simp] theorem State.perf_pending (s : State) (c : Nat) : (s.perf c).pending = s.pending := rfl
@[simp] theorem State.perf_now (s : State) (c : Nat) : (s.perf c).now = s.now := rfl
@[simp] theorem State.perf_free (s : State) (c : Nat) : (s.perf c).free = s.free := rfl
@[simp] theorem State.perf_todo (s : State) (c : Nat) : (s.perf c).todo = s.todo := rfl
@[simp] theorem State.perf_onHold (s : State) (c : Nat) : (s.perf c).onHold = s.onHold := rfl
@[simp] theorem State.perf_upsets (s : State) (c : Nat) : (s.perf c).upsets = s.upsets := rfl
@[simp] theorem State.perf_out (s : State) (c : Nat) : (s.perf c).out = s.out := rfl
@[simp] theorem State.perf_iml (s : State) (c : Nat) : (s.perf c).iml = s.iml := rfl
@[simp] theorem State.perf_rom (s : State) (c : Nat) : (s.perf c).rom = s.rom := rfl
@[simp] theorem State.perf_pins (s : State) (c : Nat) : (s.perf c).pins = s.pins := rfl
@[simp] theorem State.perf_img (s : State) (c : Nat) : (s.perf c).img = s.img := rfl
@[simp] theorem State.perf_posmap (s : State) (c : Nat) : (s.perf c).posmap = s.posmap := rfl
@[simp] theorem State.perf_votes (s : State) (c : Nat) : (s.perf c).votes = s.votes := rfl
@[simp] theorem State.perf_use (s : State) (c : Nat) : (s.perf c).use = s.use := rfl
@[simp] theorem State.perf_spent (s : State) (c : Nat) : (s.perf c).spent = s.spent := rfl
@[simp] theorem State.perf_refusals (s : State) (c : Nat) : (s.perf c).refusals = s.refusals := rfl
@[simp] theorem State.perf_held (s : State) (c : Nat) : (s.perf c).held = s.held := rfl
@[simp] theorem State.perf_lanes (s : State) (c : Nat) : (s.perf c).lanes = s.lanes := rfl
@[simp] theorem State.perf_entries (s : State) (c : Nat) : (s.perf c).entries = s.entries := rfl
@[simp] theorem State.perf_slots (s : State) (c : Nat) : (s.perf c).slots = s.slots := rfl
@[simp] theorem State.perf_leaves (s : State) (c : Nat) : (s.perf c).leaves = s.leaves := rfl
@[simp] theorem State.perf_notes (s : State) (c : Nat) : (s.perf c).notes = s.notes := rfl
@[simp] theorem State.perf_seam (s : State) (c : Nat) : (s.perf c).seam = s.seam := rfl
@[simp] theorem State.perf_seamNext (s : State) (c : Nat) : (s.perf c).seamNext = s.seamNext := rfl
@[simp] theorem State.perf_waitq (s : State) (c : Nat) : (s.perf c).waitq = s.waitq := rfl
@[simp] theorem State.perf_recs (s : State) (c : Nat) : (s.perf c).recs = s.recs := rfl
@[simp] theorem State.perf_backing (s : State) (c : Nat) : (s.perf c).backing = s.backing := rfl
@[simp] theorem State.perf_mblocks (s : State) (c : Nat) : (s.perf c).mblocks = s.mblocks := rfl
@[simp] theorem State.perf_ablocks (s : State) (c : Nat) : (s.perf c).ablocks = s.ablocks := rfl
@[simp] theorem State.perf_accs (s : State) (c : Nat) : (s.perf c).accs = s.accs := rfl
@[simp] theorem State.perf_stages (s : State) (c : Nat) : (s.perf c).stages = s.stages := rfl
@[simp] theorem State.perf_lockDir (s : State) (c : Nat) : (s.perf c).lockDir = s.lockDir := rfl
@[simp] theorem State.perf_dirLag (s : State) (c : Nat) : (s.perf c).dirLag = s.dirLag := rfl
@[simp] theorem State.perf_files (s : State) (c : Nat) : (s.perf c).files = s.files := rfl
@[simp] theorem State.perf_seqs (s : State) (c : Nat) : (s.perf c).seqs = s.seqs := rfl
@[simp] theorem State.perf_pages (s : State) (c : Nat) : (s.perf c).pages = s.pages := rfl
@[simp] theorem State.perf_pageFrame (s : State) (c : Nat) : (s.perf c).pageFrame = s.pageFrame := rfl
@[simp] theorem State.perf_badPages (s : State) (c : Nat) : (s.perf c).badPages = s.badPages := rfl
@[simp] theorem State.perf_holds (s : State) (c : Nat) : (s.perf c).holds = s.holds := rfl
@[simp] theorem State.perf_groups (s : State) (c : Nat) : (s.perf c).groups = s.groups := rfl
@[simp] theorem State.perf_grpSel (s : State) (c : Nat) : (s.perf c).grpSel = s.grpSel := rfl
@[simp] theorem State.perf_chips (s : State) (c : Nat) : (s.perf c).chips = s.chips := rfl
@[simp] theorem State.perf_lctxs (s : State) (c : Nat) : (s.perf c).lctxs = s.lctxs := rfl
@[simp] theorem State.perf_gather (s : State) (c : Nat) : (s.perf c).gather = s.gather := rfl
@[simp] theorem State.perf_susp (s : State) (c : Nat) : (s.perf c).susp = s.susp := rfl
@[simp] theorem State.perf_glocks (s : State) (c : Nat) : (s.perf c).glocks = s.glocks := rfl
@[simp] theorem State.perf_glockReqs (s : State) (c : Nat) : (s.perf c).glockReqs = s.glockReqs := rfl
@[simp] theorem State.perf_ports (s : State) (c : Nat) : (s.perf c).ports = s.ports := rfl
@[simp] theorem State.perf_tun (s : State) (c : Nat) : (s.perf c).tun = s.tun := rfl
@[simp] theorem State.perf_wq (s : State) (c : Nat) : (s.perf c).wq = s.wq := rfl
@[simp] theorem State.perf_wk (s : State) (c : Nat) : (s.perf c).wk = s.wk := rfl
@[simp] theorem State.perf_pwrc (s : State) (c : Nat) : (s.perf c).pwrc = s.pwrc := rfl
@[simp] theorem State.perf_blks (s : State) (c : Nat) : (s.perf c).blks = s.blks := rfl
@[simp] theorem State.perf_alive (s : State) (c : Nat) : (s.perf c).alive = s.alive := rfl
@[simp] theorem State.perf_conds (s : State) (c : Nat) : (s.perf c).conds = s.conds := rfl
@[simp] theorem State.perf_rep (s : State) (c : Nat) : (s.perf c).rep = s.rep := rfl
@[simp] theorem State.perf_tsync (s : State) (c : Nat) : (s.perf c).tsync = s.tsync := rfl
@[simp] theorem State.perf_tap (s : State) (c : Nat) : (s.perf c).tap = s.tap := rfl
@[simp] theorem State.perf_resets (s : State) (c : Nat) : (s.perf c).resets = s.resets := rfl

/-! ### event -/

@[simp] theorem State.event_pending (s : State) (cls blk aux obj gen : Nat) : (s.event cls blk aux obj gen).pending = s.pending := by simp only [State.event]; split <;> rfl
@[simp] theorem State.event_now (s : State) (cls blk aux obj gen : Nat) : (s.event cls blk aux obj gen).now = s.now := by simp only [State.event]; split <;> rfl
@[simp] theorem State.event_free (s : State) (cls blk aux obj gen : Nat) : (s.event cls blk aux obj gen).free = s.free := by simp only [State.event]; split <;> rfl
@[simp] theorem State.event_todo (s : State) (cls blk aux obj gen : Nat) : (s.event cls blk aux obj gen).todo = s.todo := by simp only [State.event]; split <;> rfl
@[simp] theorem State.event_onHold (s : State) (cls blk aux obj gen : Nat) : (s.event cls blk aux obj gen).onHold = s.onHold := by simp only [State.event]; split <;> rfl
@[simp] theorem State.event_upsets (s : State) (cls blk aux obj gen : Nat) : (s.event cls blk aux obj gen).upsets = s.upsets := by simp only [State.event]; split <;> rfl
@[simp] theorem State.event_out (s : State) (cls blk aux obj gen : Nat) : (s.event cls blk aux obj gen).out = s.out := by simp only [State.event]; split <;> rfl
@[simp] theorem State.event_iml (s : State) (cls blk aux obj gen : Nat) : (s.event cls blk aux obj gen).iml = s.iml := by simp only [State.event]; split <;> rfl
@[simp] theorem State.event_rom (s : State) (cls blk aux obj gen : Nat) : (s.event cls blk aux obj gen).rom = s.rom := by simp only [State.event]; split <;> rfl
@[simp] theorem State.event_pins (s : State) (cls blk aux obj gen : Nat) : (s.event cls blk aux obj gen).pins = s.pins := by simp only [State.event]; split <;> rfl
@[simp] theorem State.event_img (s : State) (cls blk aux obj gen : Nat) : (s.event cls blk aux obj gen).img = s.img := by simp only [State.event]; split <;> rfl
@[simp] theorem State.event_posmap (s : State) (cls blk aux obj gen : Nat) : (s.event cls blk aux obj gen).posmap = s.posmap := by simp only [State.event]; split <;> rfl
@[simp] theorem State.event_votes (s : State) (cls blk aux obj gen : Nat) : (s.event cls blk aux obj gen).votes = s.votes := by simp only [State.event]; split <;> rfl
@[simp] theorem State.event_use (s : State) (cls blk aux obj gen : Nat) : (s.event cls blk aux obj gen).use = s.use := by simp only [State.event]; split <;> rfl
@[simp] theorem State.event_spent (s : State) (cls blk aux obj gen : Nat) : (s.event cls blk aux obj gen).spent = s.spent := by simp only [State.event]; split <;> rfl
@[simp] theorem State.event_refusals (s : State) (cls blk aux obj gen : Nat) : (s.event cls blk aux obj gen).refusals = s.refusals := by simp only [State.event]; split <;> rfl
@[simp] theorem State.event_held (s : State) (cls blk aux obj gen : Nat) : (s.event cls blk aux obj gen).held = s.held := by simp only [State.event]; split <;> rfl
@[simp] theorem State.event_lanes (s : State) (cls blk aux obj gen : Nat) : (s.event cls blk aux obj gen).lanes = s.lanes := by simp only [State.event]; split <;> rfl
@[simp] theorem State.event_entries (s : State) (cls blk aux obj gen : Nat) : (s.event cls blk aux obj gen).entries = s.entries := by simp only [State.event]; split <;> rfl
@[simp] theorem State.event_slots (s : State) (cls blk aux obj gen : Nat) : (s.event cls blk aux obj gen).slots = s.slots := by simp only [State.event]; split <;> rfl
@[simp] theorem State.event_leaves (s : State) (cls blk aux obj gen : Nat) : (s.event cls blk aux obj gen).leaves = s.leaves := by simp only [State.event]; split <;> rfl
@[simp] theorem State.event_notes (s : State) (cls blk aux obj gen : Nat) : (s.event cls blk aux obj gen).notes = s.notes := by simp only [State.event]; split <;> rfl
@[simp] theorem State.event_seam (s : State) (cls blk aux obj gen : Nat) : (s.event cls blk aux obj gen).seam = s.seam := by simp only [State.event]; split <;> rfl
@[simp] theorem State.event_seamNext (s : State) (cls blk aux obj gen : Nat) : (s.event cls blk aux obj gen).seamNext = s.seamNext := by simp only [State.event]; split <;> rfl
@[simp] theorem State.event_waitq (s : State) (cls blk aux obj gen : Nat) : (s.event cls blk aux obj gen).waitq = s.waitq := by simp only [State.event]; split <;> rfl
@[simp] theorem State.event_recs (s : State) (cls blk aux obj gen : Nat) : (s.event cls blk aux obj gen).recs = s.recs := by simp only [State.event]; split <;> rfl
@[simp] theorem State.event_backing (s : State) (cls blk aux obj gen : Nat) : (s.event cls blk aux obj gen).backing = s.backing := by simp only [State.event]; split <;> rfl
@[simp] theorem State.event_mblocks (s : State) (cls blk aux obj gen : Nat) : (s.event cls blk aux obj gen).mblocks = s.mblocks := by simp only [State.event]; split <;> rfl
@[simp] theorem State.event_ablocks (s : State) (cls blk aux obj gen : Nat) : (s.event cls blk aux obj gen).ablocks = s.ablocks := by simp only [State.event]; split <;> rfl
@[simp] theorem State.event_accs (s : State) (cls blk aux obj gen : Nat) : (s.event cls blk aux obj gen).accs = s.accs := by simp only [State.event]; split <;> rfl
@[simp] theorem State.event_stages (s : State) (cls blk aux obj gen : Nat) : (s.event cls blk aux obj gen).stages = s.stages := by simp only [State.event]; split <;> rfl
@[simp] theorem State.event_lockDir (s : State) (cls blk aux obj gen : Nat) : (s.event cls blk aux obj gen).lockDir = s.lockDir := by simp only [State.event]; split <;> rfl
@[simp] theorem State.event_dirLag (s : State) (cls blk aux obj gen : Nat) : (s.event cls blk aux obj gen).dirLag = s.dirLag := by simp only [State.event]; split <;> rfl
@[simp] theorem State.event_files (s : State) (cls blk aux obj gen : Nat) : (s.event cls blk aux obj gen).files = s.files := by simp only [State.event]; split <;> rfl
@[simp] theorem State.event_seqs (s : State) (cls blk aux obj gen : Nat) : (s.event cls blk aux obj gen).seqs = s.seqs := by simp only [State.event]; split <;> rfl
@[simp] theorem State.event_pages (s : State) (cls blk aux obj gen : Nat) : (s.event cls blk aux obj gen).pages = s.pages := by simp only [State.event]; split <;> rfl
@[simp] theorem State.event_pageFrame (s : State) (cls blk aux obj gen : Nat) : (s.event cls blk aux obj gen).pageFrame = s.pageFrame := by simp only [State.event]; split <;> rfl
@[simp] theorem State.event_badPages (s : State) (cls blk aux obj gen : Nat) : (s.event cls blk aux obj gen).badPages = s.badPages := by simp only [State.event]; split <;> rfl
@[simp] theorem State.event_holds (s : State) (cls blk aux obj gen : Nat) : (s.event cls blk aux obj gen).holds = s.holds := by simp only [State.event]; split <;> rfl
@[simp] theorem State.event_groups (s : State) (cls blk aux obj gen : Nat) : (s.event cls blk aux obj gen).groups = s.groups := by simp only [State.event]; split <;> rfl
@[simp] theorem State.event_grpSel (s : State) (cls blk aux obj gen : Nat) : (s.event cls blk aux obj gen).grpSel = s.grpSel := by simp only [State.event]; split <;> rfl
@[simp] theorem State.event_chips (s : State) (cls blk aux obj gen : Nat) : (s.event cls blk aux obj gen).chips = s.chips := by simp only [State.event]; split <;> rfl
@[simp] theorem State.event_lctxs (s : State) (cls blk aux obj gen : Nat) : (s.event cls blk aux obj gen).lctxs = s.lctxs := by simp only [State.event]; split <;> rfl
@[simp] theorem State.event_gather (s : State) (cls blk aux obj gen : Nat) : (s.event cls blk aux obj gen).gather = s.gather := by simp only [State.event]; split <;> rfl
@[simp] theorem State.event_susp (s : State) (cls blk aux obj gen : Nat) : (s.event cls blk aux obj gen).susp = s.susp := by simp only [State.event]; split <;> rfl
@[simp] theorem State.event_glocks (s : State) (cls blk aux obj gen : Nat) : (s.event cls blk aux obj gen).glocks = s.glocks := by simp only [State.event]; split <;> rfl
@[simp] theorem State.event_glockReqs (s : State) (cls blk aux obj gen : Nat) : (s.event cls blk aux obj gen).glockReqs = s.glockReqs := by simp only [State.event]; split <;> rfl
@[simp] theorem State.event_ports (s : State) (cls blk aux obj gen : Nat) : (s.event cls blk aux obj gen).ports = s.ports := by simp only [State.event]; split <;> rfl
@[simp] theorem State.event_tun (s : State) (cls blk aux obj gen : Nat) : (s.event cls blk aux obj gen).tun = s.tun := by simp only [State.event]; split <;> rfl
@[simp] theorem State.event_wq (s : State) (cls blk aux obj gen : Nat) : (s.event cls blk aux obj gen).wq = s.wq := by simp only [State.event]; split <;> rfl
@[simp] theorem State.event_wk (s : State) (cls blk aux obj gen : Nat) : (s.event cls blk aux obj gen).wk = s.wk := by simp only [State.event]; split <;> rfl
@[simp] theorem State.event_pwrc (s : State) (cls blk aux obj gen : Nat) : (s.event cls blk aux obj gen).pwrc = s.pwrc := by simp only [State.event]; split <;> rfl
@[simp] theorem State.event_blks (s : State) (cls blk aux obj gen : Nat) : (s.event cls blk aux obj gen).blks = s.blks := by simp only [State.event]; split <;> rfl
@[simp] theorem State.event_alive (s : State) (cls blk aux obj gen : Nat) : (s.event cls blk aux obj gen).alive = s.alive := by simp only [State.event]; split <;> rfl
@[simp] theorem State.event_conds (s : State) (cls blk aux obj gen : Nat) : (s.event cls blk aux obj gen).conds = s.conds := by simp only [State.event]; split <;> rfl
@[simp] theorem State.event_rep (s : State) (cls blk aux obj gen : Nat) : (s.event cls blk aux obj gen).rep = s.rep := by simp only [State.event]; split <;> rfl
@[simp] theorem State.event_tsync (s : State) (cls blk aux obj gen : Nat) : (s.event cls blk aux obj gen).tsync = s.tsync := by simp only [State.event]; split <;> rfl
@[simp] theorem State.event_tap (s : State) (cls blk aux obj gen : Nat) : (s.event cls blk aux obj gen).tap = s.tap := by simp only [State.event]; split <;> rfl
@[simp] theorem State.event_resets (s : State) (cls blk aux obj gen : Nat) : (s.event cls blk aux obj gen).resets = s.resets := by simp only [State.event]; split <;> rfl

/-! ### dirSet -/

@[simp] theorem State.dirSet_pending (s : State) (p o : Nat) (k : Option DirKind) : (s.dirSet p o k).pending = s.pending := rfl
@[simp] theorem State.dirSet_now (s : State) (p o : Nat) (k : Option DirKind) : (s.dirSet p o k).now = s.now := rfl
@[simp] theorem State.dirSet_free (s : State) (p o : Nat) (k : Option DirKind) : (s.dirSet p o k).free = s.free := rfl
@[simp] theorem State.dirSet_todo (s : State) (p o : Nat) (k : Option DirKind) : (s.dirSet p o k).todo = s.todo := rfl
@[simp] theorem State.dirSet_onHold (s : State) (p o : Nat) (k : Option DirKind) : (s.dirSet p o k).onHold = s.onHold := rfl
@[simp] theorem State.dirSet_upsets (s : State) (p o : Nat) (k : Option DirKind) : (s.dirSet p o k).upsets = s.upsets := rfl
@[simp] theorem State.dirSet_out (s : State) (p o : Nat) (k : Option DirKind) : (s.dirSet p o k).out = s.out := rfl
@[simp] theorem State.dirSet_iml (s : State) (p o : Nat) (k : Option DirKind) : (s.dirSet p o k).iml = s.iml := rfl
@[simp] theorem State.dirSet_rom (s : State) (p o : Nat) (k : Option DirKind) : (s.dirSet p o k).rom = s.rom := rfl
@[simp] theorem State.dirSet_pins (s : State) (p o : Nat) (k : Option DirKind) : (s.dirSet p o k).pins = s.pins := rfl
@[simp] theorem State.dirSet_img (s : State) (p o : Nat) (k : Option DirKind) : (s.dirSet p o k).img = s.img := rfl
@[simp] theorem State.dirSet_posmap (s : State) (p o : Nat) (k : Option DirKind) : (s.dirSet p o k).posmap = s.posmap := rfl
@[simp] theorem State.dirSet_votes (s : State) (p o : Nat) (k : Option DirKind) : (s.dirSet p o k).votes = s.votes := rfl
@[simp] theorem State.dirSet_use (s : State) (p o : Nat) (k : Option DirKind) : (s.dirSet p o k).use = s.use := rfl
@[simp] theorem State.dirSet_spent (s : State) (p o : Nat) (k : Option DirKind) : (s.dirSet p o k).spent = s.spent := rfl
@[simp] theorem State.dirSet_refusals (s : State) (p o : Nat) (k : Option DirKind) : (s.dirSet p o k).refusals = s.refusals := rfl
@[simp] theorem State.dirSet_held (s : State) (p o : Nat) (k : Option DirKind) : (s.dirSet p o k).held = s.held := rfl
@[simp] theorem State.dirSet_lanes (s : State) (p o : Nat) (k : Option DirKind) : (s.dirSet p o k).lanes = s.lanes := rfl
@[simp] theorem State.dirSet_entries (s : State) (p o : Nat) (k : Option DirKind) : (s.dirSet p o k).entries = s.entries := rfl
@[simp] theorem State.dirSet_slots (s : State) (p o : Nat) (k : Option DirKind) : (s.dirSet p o k).slots = s.slots := rfl
@[simp] theorem State.dirSet_leaves (s : State) (p o : Nat) (k : Option DirKind) : (s.dirSet p o k).leaves = s.leaves := rfl
@[simp] theorem State.dirSet_notes (s : State) (p o : Nat) (k : Option DirKind) : (s.dirSet p o k).notes = s.notes := rfl
@[simp] theorem State.dirSet_seam (s : State) (p o : Nat) (k : Option DirKind) : (s.dirSet p o k).seam = s.seam := rfl
@[simp] theorem State.dirSet_seamNext (s : State) (p o : Nat) (k : Option DirKind) : (s.dirSet p o k).seamNext = s.seamNext := rfl
@[simp] theorem State.dirSet_waitq (s : State) (p o : Nat) (k : Option DirKind) : (s.dirSet p o k).waitq = s.waitq := rfl
@[simp] theorem State.dirSet_recs (s : State) (p o : Nat) (k : Option DirKind) : (s.dirSet p o k).recs = s.recs := rfl
@[simp] theorem State.dirSet_backing (s : State) (p o : Nat) (k : Option DirKind) : (s.dirSet p o k).backing = s.backing := rfl
@[simp] theorem State.dirSet_mblocks (s : State) (p o : Nat) (k : Option DirKind) : (s.dirSet p o k).mblocks = s.mblocks := rfl
@[simp] theorem State.dirSet_ablocks (s : State) (p o : Nat) (k : Option DirKind) : (s.dirSet p o k).ablocks = s.ablocks := rfl
@[simp] theorem State.dirSet_accs (s : State) (p o : Nat) (k : Option DirKind) : (s.dirSet p o k).accs = s.accs := rfl
@[simp] theorem State.dirSet_stages (s : State) (p o : Nat) (k : Option DirKind) : (s.dirSet p o k).stages = s.stages := rfl
@[simp] theorem State.dirSet_files (s : State) (p o : Nat) (k : Option DirKind) : (s.dirSet p o k).files = s.files := rfl
@[simp] theorem State.dirSet_seqs (s : State) (p o : Nat) (k : Option DirKind) : (s.dirSet p o k).seqs = s.seqs := rfl
@[simp] theorem State.dirSet_pages (s : State) (p o : Nat) (k : Option DirKind) : (s.dirSet p o k).pages = s.pages := rfl
@[simp] theorem State.dirSet_pageFrame (s : State) (p o : Nat) (k : Option DirKind) : (s.dirSet p o k).pageFrame = s.pageFrame := rfl
@[simp] theorem State.dirSet_badPages (s : State) (p o : Nat) (k : Option DirKind) : (s.dirSet p o k).badPages = s.badPages := rfl
@[simp] theorem State.dirSet_holds (s : State) (p o : Nat) (k : Option DirKind) : (s.dirSet p o k).holds = s.holds := rfl
@[simp] theorem State.dirSet_groups (s : State) (p o : Nat) (k : Option DirKind) : (s.dirSet p o k).groups = s.groups := rfl
@[simp] theorem State.dirSet_grpSel (s : State) (p o : Nat) (k : Option DirKind) : (s.dirSet p o k).grpSel = s.grpSel := rfl
@[simp] theorem State.dirSet_chips (s : State) (p o : Nat) (k : Option DirKind) : (s.dirSet p o k).chips = s.chips := rfl
@[simp] theorem State.dirSet_lctxs (s : State) (p o : Nat) (k : Option DirKind) : (s.dirSet p o k).lctxs = s.lctxs := rfl
@[simp] theorem State.dirSet_gather (s : State) (p o : Nat) (k : Option DirKind) : (s.dirSet p o k).gather = s.gather := rfl
@[simp] theorem State.dirSet_susp (s : State) (p o : Nat) (k : Option DirKind) : (s.dirSet p o k).susp = s.susp := rfl
@[simp] theorem State.dirSet_glocks (s : State) (p o : Nat) (k : Option DirKind) : (s.dirSet p o k).glocks = s.glocks := rfl
@[simp] theorem State.dirSet_glockReqs (s : State) (p o : Nat) (k : Option DirKind) : (s.dirSet p o k).glockReqs = s.glockReqs := rfl
@[simp] theorem State.dirSet_ports (s : State) (p o : Nat) (k : Option DirKind) : (s.dirSet p o k).ports = s.ports := rfl
@[simp] theorem State.dirSet_tun (s : State) (p o : Nat) (k : Option DirKind) : (s.dirSet p o k).tun = s.tun := rfl
@[simp] theorem State.dirSet_wq (s : State) (p o : Nat) (k : Option DirKind) : (s.dirSet p o k).wq = s.wq := rfl
@[simp] theorem State.dirSet_wk (s : State) (p o : Nat) (k : Option DirKind) : (s.dirSet p o k).wk = s.wk := rfl
@[simp] theorem State.dirSet_pwrc (s : State) (p o : Nat) (k : Option DirKind) : (s.dirSet p o k).pwrc = s.pwrc := rfl
@[simp] theorem State.dirSet_blks (s : State) (p o : Nat) (k : Option DirKind) : (s.dirSet p o k).blks = s.blks := rfl
@[simp] theorem State.dirSet_alive (s : State) (p o : Nat) (k : Option DirKind) : (s.dirSet p o k).alive = s.alive := rfl
@[simp] theorem State.dirSet_conds (s : State) (p o : Nat) (k : Option DirKind) : (s.dirSet p o k).conds = s.conds := rfl
@[simp] theorem State.dirSet_rep (s : State) (p o : Nat) (k : Option DirKind) : (s.dirSet p o k).rep = s.rep := rfl
@[simp] theorem State.dirSet_tsync (s : State) (p o : Nat) (k : Option DirKind) : (s.dirSet p o k).tsync = s.tsync := rfl
@[simp] theorem State.dirSet_tap (s : State) (p o : Nat) (k : Option DirKind) : (s.dirSet p o k).tap = s.tap := rfl
@[simp] theorem State.dirSet_trace (s : State) (p o : Nat) (k : Option DirKind) : (s.dirSet p o k).trace = s.trace := rfl

/-! ### dirSetBy -/

@[simp] theorem State.dirSetBy_pending (s : State) (b : Bool) (p o : Nat) (k : Option DirKind) : (s.dirSetBy b p o k).pending = s.pending := rfl
@[simp] theorem State.dirSetBy_now (s : State) (b : Bool) (p o : Nat) (k : Option DirKind) : (s.dirSetBy b p o k).now = s.now := rfl
@[simp] theorem State.dirSetBy_free (s : State) (b : Bool) (p o : Nat) (k : Option DirKind) : (s.dirSetBy b p o k).free = s.free := rfl
@[simp] theorem State.dirSetBy_todo (s : State) (b : Bool) (p o : Nat) (k : Option DirKind) : (s.dirSetBy b p o k).todo = s.todo := rfl
@[simp] theorem State.dirSetBy_onHold (s : State) (b : Bool) (p o : Nat) (k : Option DirKind) : (s.dirSetBy b p o k).onHold = s.onHold := rfl
@[simp] theorem State.dirSetBy_upsets (s : State) (b : Bool) (p o : Nat) (k : Option DirKind) : (s.dirSetBy b p o k).upsets = s.upsets := rfl
@[simp] theorem State.dirSetBy_out (s : State) (b : Bool) (p o : Nat) (k : Option DirKind) : (s.dirSetBy b p o k).out = s.out := rfl
@[simp] theorem State.dirSetBy_iml (s : State) (b : Bool) (p o : Nat) (k : Option DirKind) : (s.dirSetBy b p o k).iml = s.iml := rfl
@[simp] theorem State.dirSetBy_rom (s : State) (b : Bool) (p o : Nat) (k : Option DirKind) : (s.dirSetBy b p o k).rom = s.rom := rfl
@[simp] theorem State.dirSetBy_pins (s : State) (b : Bool) (p o : Nat) (k : Option DirKind) : (s.dirSetBy b p o k).pins = s.pins := rfl
@[simp] theorem State.dirSetBy_img (s : State) (b : Bool) (p o : Nat) (k : Option DirKind) : (s.dirSetBy b p o k).img = s.img := rfl
@[simp] theorem State.dirSetBy_posmap (s : State) (b : Bool) (p o : Nat) (k : Option DirKind) : (s.dirSetBy b p o k).posmap = s.posmap := rfl
@[simp] theorem State.dirSetBy_votes (s : State) (b : Bool) (p o : Nat) (k : Option DirKind) : (s.dirSetBy b p o k).votes = s.votes := rfl
@[simp] theorem State.dirSetBy_use (s : State) (b : Bool) (p o : Nat) (k : Option DirKind) : (s.dirSetBy b p o k).use = s.use := rfl
@[simp] theorem State.dirSetBy_spent (s : State) (b : Bool) (p o : Nat) (k : Option DirKind) : (s.dirSetBy b p o k).spent = s.spent := rfl
@[simp] theorem State.dirSetBy_refusals (s : State) (b : Bool) (p o : Nat) (k : Option DirKind) : (s.dirSetBy b p o k).refusals = s.refusals := rfl
@[simp] theorem State.dirSetBy_held (s : State) (b : Bool) (p o : Nat) (k : Option DirKind) : (s.dirSetBy b p o k).held = s.held := rfl
@[simp] theorem State.dirSetBy_lanes (s : State) (b : Bool) (p o : Nat) (k : Option DirKind) : (s.dirSetBy b p o k).lanes = s.lanes := rfl
@[simp] theorem State.dirSetBy_entries (s : State) (b : Bool) (p o : Nat) (k : Option DirKind) : (s.dirSetBy b p o k).entries = s.entries := rfl
@[simp] theorem State.dirSetBy_slots (s : State) (b : Bool) (p o : Nat) (k : Option DirKind) : (s.dirSetBy b p o k).slots = s.slots := rfl
@[simp] theorem State.dirSetBy_leaves (s : State) (b : Bool) (p o : Nat) (k : Option DirKind) : (s.dirSetBy b p o k).leaves = s.leaves := rfl
@[simp] theorem State.dirSetBy_notes (s : State) (b : Bool) (p o : Nat) (k : Option DirKind) : (s.dirSetBy b p o k).notes = s.notes := rfl
@[simp] theorem State.dirSetBy_seam (s : State) (b : Bool) (p o : Nat) (k : Option DirKind) : (s.dirSetBy b p o k).seam = s.seam := rfl
@[simp] theorem State.dirSetBy_seamNext (s : State) (b : Bool) (p o : Nat) (k : Option DirKind) : (s.dirSetBy b p o k).seamNext = s.seamNext := rfl
@[simp] theorem State.dirSetBy_waitq (s : State) (b : Bool) (p o : Nat) (k : Option DirKind) : (s.dirSetBy b p o k).waitq = s.waitq := rfl
@[simp] theorem State.dirSetBy_recs (s : State) (b : Bool) (p o : Nat) (k : Option DirKind) : (s.dirSetBy b p o k).recs = s.recs := rfl
@[simp] theorem State.dirSetBy_backing (s : State) (b : Bool) (p o : Nat) (k : Option DirKind) : (s.dirSetBy b p o k).backing = s.backing := rfl
@[simp] theorem State.dirSetBy_mblocks (s : State) (b : Bool) (p o : Nat) (k : Option DirKind) : (s.dirSetBy b p o k).mblocks = s.mblocks := rfl
@[simp] theorem State.dirSetBy_ablocks (s : State) (b : Bool) (p o : Nat) (k : Option DirKind) : (s.dirSetBy b p o k).ablocks = s.ablocks := rfl
@[simp] theorem State.dirSetBy_accs (s : State) (b : Bool) (p o : Nat) (k : Option DirKind) : (s.dirSetBy b p o k).accs = s.accs := rfl
@[simp] theorem State.dirSetBy_stages (s : State) (b : Bool) (p o : Nat) (k : Option DirKind) : (s.dirSetBy b p o k).stages = s.stages := rfl
@[simp] theorem State.dirSetBy_files (s : State) (b : Bool) (p o : Nat) (k : Option DirKind) : (s.dirSetBy b p o k).files = s.files := rfl
@[simp] theorem State.dirSetBy_seqs (s : State) (b : Bool) (p o : Nat) (k : Option DirKind) : (s.dirSetBy b p o k).seqs = s.seqs := rfl
@[simp] theorem State.dirSetBy_pages (s : State) (b : Bool) (p o : Nat) (k : Option DirKind) : (s.dirSetBy b p o k).pages = s.pages := rfl
@[simp] theorem State.dirSetBy_pageFrame (s : State) (b : Bool) (p o : Nat) (k : Option DirKind) : (s.dirSetBy b p o k).pageFrame = s.pageFrame := rfl
@[simp] theorem State.dirSetBy_badPages (s : State) (b : Bool) (p o : Nat) (k : Option DirKind) : (s.dirSetBy b p o k).badPages = s.badPages := rfl
@[simp] theorem State.dirSetBy_holds (s : State) (b : Bool) (p o : Nat) (k : Option DirKind) : (s.dirSetBy b p o k).holds = s.holds := rfl
@[simp] theorem State.dirSetBy_groups (s : State) (b : Bool) (p o : Nat) (k : Option DirKind) : (s.dirSetBy b p o k).groups = s.groups := rfl
@[simp] theorem State.dirSetBy_grpSel (s : State) (b : Bool) (p o : Nat) (k : Option DirKind) : (s.dirSetBy b p o k).grpSel = s.grpSel := rfl
@[simp] theorem State.dirSetBy_chips (s : State) (b : Bool) (p o : Nat) (k : Option DirKind) : (s.dirSetBy b p o k).chips = s.chips := rfl
@[simp] theorem State.dirSetBy_lctxs (s : State) (b : Bool) (p o : Nat) (k : Option DirKind) : (s.dirSetBy b p o k).lctxs = s.lctxs := rfl
@[simp] theorem State.dirSetBy_gather (s : State) (b : Bool) (p o : Nat) (k : Option DirKind) : (s.dirSetBy b p o k).gather = s.gather := rfl
@[simp] theorem State.dirSetBy_susp (s : State) (b : Bool) (p o : Nat) (k : Option DirKind) : (s.dirSetBy b p o k).susp = s.susp := rfl
@[simp] theorem State.dirSetBy_glocks (s : State) (b : Bool) (p o : Nat) (k : Option DirKind) : (s.dirSetBy b p o k).glocks = s.glocks := rfl
@[simp] theorem State.dirSetBy_glockReqs (s : State) (b : Bool) (p o : Nat) (k : Option DirKind) : (s.dirSetBy b p o k).glockReqs = s.glockReqs := rfl
@[simp] theorem State.dirSetBy_ports (s : State) (b : Bool) (p o : Nat) (k : Option DirKind) : (s.dirSetBy b p o k).ports = s.ports := rfl
@[simp] theorem State.dirSetBy_tun (s : State) (b : Bool) (p o : Nat) (k : Option DirKind) : (s.dirSetBy b p o k).tun = s.tun := rfl
@[simp] theorem State.dirSetBy_wq (s : State) (b : Bool) (p o : Nat) (k : Option DirKind) : (s.dirSetBy b p o k).wq = s.wq := rfl
@[simp] theorem State.dirSetBy_wk (s : State) (b : Bool) (p o : Nat) (k : Option DirKind) : (s.dirSetBy b p o k).wk = s.wk := rfl
@[simp] theorem State.dirSetBy_pwrc (s : State) (b : Bool) (p o : Nat) (k : Option DirKind) : (s.dirSetBy b p o k).pwrc = s.pwrc := rfl
@[simp] theorem State.dirSetBy_blks (s : State) (b : Bool) (p o : Nat) (k : Option DirKind) : (s.dirSetBy b p o k).blks = s.blks := rfl
@[simp] theorem State.dirSetBy_alive (s : State) (b : Bool) (p o : Nat) (k : Option DirKind) : (s.dirSetBy b p o k).alive = s.alive := rfl
@[simp] theorem State.dirSetBy_conds (s : State) (b : Bool) (p o : Nat) (k : Option DirKind) : (s.dirSetBy b p o k).conds = s.conds := rfl
@[simp] theorem State.dirSetBy_rep (s : State) (b : Bool) (p o : Nat) (k : Option DirKind) : (s.dirSetBy b p o k).rep = s.rep := rfl
@[simp] theorem State.dirSetBy_tsync (s : State) (b : Bool) (p o : Nat) (k : Option DirKind) : (s.dirSetBy b p o k).tsync = s.tsync := rfl
@[simp] theorem State.dirSetBy_tap (s : State) (b : Bool) (p o : Nat) (k : Option DirKind) : (s.dirSetBy b p o k).tap = s.tap := rfl
@[simp] theorem State.dirSetBy_trace (s : State) (b : Bool) (p o : Nat) (k : Option DirKind) : (s.dirSetBy b p o k).trace = s.trace := rfl

/-! ### toSeam -/

@[simp] theorem State.toSeam_pending (s : State) (w : Wing) (x : Work) : (s.toSeam w x).pending = s.pending := rfl
@[simp] theorem State.toSeam_now (s : State) (w : Wing) (x : Work) : (s.toSeam w x).now = s.now := rfl
@[simp] theorem State.toSeam_free (s : State) (w : Wing) (x : Work) : (s.toSeam w x).free = s.free := rfl
@[simp] theorem State.toSeam_todo (s : State) (w : Wing) (x : Work) : (s.toSeam w x).todo = s.todo := rfl
@[simp] theorem State.toSeam_onHold (s : State) (w : Wing) (x : Work) : (s.toSeam w x).onHold = s.onHold := rfl
@[simp] theorem State.toSeam_upsets (s : State) (w : Wing) (x : Work) : (s.toSeam w x).upsets = s.upsets := rfl
@[simp] theorem State.toSeam_out (s : State) (w : Wing) (x : Work) : (s.toSeam w x).out = s.out := rfl
@[simp] theorem State.toSeam_iml (s : State) (w : Wing) (x : Work) : (s.toSeam w x).iml = s.iml := rfl
@[simp] theorem State.toSeam_rom (s : State) (w : Wing) (x : Work) : (s.toSeam w x).rom = s.rom := rfl
@[simp] theorem State.toSeam_pins (s : State) (w : Wing) (x : Work) : (s.toSeam w x).pins = s.pins := rfl
@[simp] theorem State.toSeam_img (s : State) (w : Wing) (x : Work) : (s.toSeam w x).img = s.img := rfl
@[simp] theorem State.toSeam_posmap (s : State) (w : Wing) (x : Work) : (s.toSeam w x).posmap = s.posmap := rfl
@[simp] theorem State.toSeam_votes (s : State) (w : Wing) (x : Work) : (s.toSeam w x).votes = s.votes := rfl
@[simp] theorem State.toSeam_use (s : State) (w : Wing) (x : Work) : (s.toSeam w x).use = s.use := rfl
@[simp] theorem State.toSeam_spent (s : State) (w : Wing) (x : Work) : (s.toSeam w x).spent = s.spent := rfl
@[simp] theorem State.toSeam_refusals (s : State) (w : Wing) (x : Work) : (s.toSeam w x).refusals = s.refusals := rfl
@[simp] theorem State.toSeam_held (s : State) (w : Wing) (x : Work) : (s.toSeam w x).held = s.held := rfl
@[simp] theorem State.toSeam_lanes (s : State) (w : Wing) (x : Work) : (s.toSeam w x).lanes = s.lanes := rfl
@[simp] theorem State.toSeam_entries (s : State) (w : Wing) (x : Work) : (s.toSeam w x).entries = s.entries := rfl
@[simp] theorem State.toSeam_slots (s : State) (w : Wing) (x : Work) : (s.toSeam w x).slots = s.slots := rfl
@[simp] theorem State.toSeam_leaves (s : State) (w : Wing) (x : Work) : (s.toSeam w x).leaves = s.leaves := rfl
@[simp] theorem State.toSeam_notes (s : State) (w : Wing) (x : Work) : (s.toSeam w x).notes = s.notes := rfl
@[simp] theorem State.toSeam_waitq (s : State) (w : Wing) (x : Work) : (s.toSeam w x).waitq = s.waitq := rfl
@[simp] theorem State.toSeam_recs (s : State) (w : Wing) (x : Work) : (s.toSeam w x).recs = s.recs := rfl
@[simp] theorem State.toSeam_backing (s : State) (w : Wing) (x : Work) : (s.toSeam w x).backing = s.backing := rfl
@[simp] theorem State.toSeam_mblocks (s : State) (w : Wing) (x : Work) : (s.toSeam w x).mblocks = s.mblocks := rfl
@[simp] theorem State.toSeam_ablocks (s : State) (w : Wing) (x : Work) : (s.toSeam w x).ablocks = s.ablocks := rfl
@[simp] theorem State.toSeam_accs (s : State) (w : Wing) (x : Work) : (s.toSeam w x).accs = s.accs := rfl
@[simp] theorem State.toSeam_stages (s : State) (w : Wing) (x : Work) : (s.toSeam w x).stages = s.stages := rfl
@[simp] theorem State.toSeam_lockDir (s : State) (w : Wing) (x : Work) : (s.toSeam w x).lockDir = s.lockDir := rfl
@[simp] theorem State.toSeam_dirLag (s : State) (w : Wing) (x : Work) : (s.toSeam w x).dirLag = s.dirLag := rfl
@[simp] theorem State.toSeam_files (s : State) (w : Wing) (x : Work) : (s.toSeam w x).files = s.files := rfl
@[simp] theorem State.toSeam_seqs (s : State) (w : Wing) (x : Work) : (s.toSeam w x).seqs = s.seqs := rfl
@[simp] theorem State.toSeam_pages (s : State) (w : Wing) (x : Work) : (s.toSeam w x).pages = s.pages := rfl
@[simp] theorem State.toSeam_pageFrame (s : State) (w : Wing) (x : Work) : (s.toSeam w x).pageFrame = s.pageFrame := rfl
@[simp] theorem State.toSeam_badPages (s : State) (w : Wing) (x : Work) : (s.toSeam w x).badPages = s.badPages := rfl
@[simp] theorem State.toSeam_holds (s : State) (w : Wing) (x : Work) : (s.toSeam w x).holds = s.holds := rfl
@[simp] theorem State.toSeam_groups (s : State) (w : Wing) (x : Work) : (s.toSeam w x).groups = s.groups := rfl
@[simp] theorem State.toSeam_grpSel (s : State) (w : Wing) (x : Work) : (s.toSeam w x).grpSel = s.grpSel := rfl
@[simp] theorem State.toSeam_chips (s : State) (w : Wing) (x : Work) : (s.toSeam w x).chips = s.chips := rfl
@[simp] theorem State.toSeam_lctxs (s : State) (w : Wing) (x : Work) : (s.toSeam w x).lctxs = s.lctxs := rfl
@[simp] theorem State.toSeam_gather (s : State) (w : Wing) (x : Work) : (s.toSeam w x).gather = s.gather := rfl
@[simp] theorem State.toSeam_susp (s : State) (w : Wing) (x : Work) : (s.toSeam w x).susp = s.susp := rfl
@[simp] theorem State.toSeam_glocks (s : State) (w : Wing) (x : Work) : (s.toSeam w x).glocks = s.glocks := rfl
@[simp] theorem State.toSeam_glockReqs (s : State) (w : Wing) (x : Work) : (s.toSeam w x).glockReqs = s.glockReqs := rfl
@[simp] theorem State.toSeam_ports (s : State) (w : Wing) (x : Work) : (s.toSeam w x).ports = s.ports := rfl
@[simp] theorem State.toSeam_tun (s : State) (w : Wing) (x : Work) : (s.toSeam w x).tun = s.tun := rfl
@[simp] theorem State.toSeam_wq (s : State) (w : Wing) (x : Work) : (s.toSeam w x).wq = s.wq := rfl
@[simp] theorem State.toSeam_wk (s : State) (w : Wing) (x : Work) : (s.toSeam w x).wk = s.wk := rfl
@[simp] theorem State.toSeam_pwrc (s : State) (w : Wing) (x : Work) : (s.toSeam w x).pwrc = s.pwrc := rfl
@[simp] theorem State.toSeam_blks (s : State) (w : Wing) (x : Work) : (s.toSeam w x).blks = s.blks := rfl
@[simp] theorem State.toSeam_alive (s : State) (w : Wing) (x : Work) : (s.toSeam w x).alive = s.alive := rfl
@[simp] theorem State.toSeam_conds (s : State) (w : Wing) (x : Work) : (s.toSeam w x).conds = s.conds := rfl
@[simp] theorem State.toSeam_rep (s : State) (w : Wing) (x : Work) : (s.toSeam w x).rep = s.rep := rfl
@[simp] theorem State.toSeam_tsync (s : State) (w : Wing) (x : Work) : (s.toSeam w x).tsync = s.tsync := rfl
@[simp] theorem State.toSeam_tap (s : State) (w : Wing) (x : Work) : (s.toSeam w x).tap = s.tap := rfl
@[simp] theorem State.toSeam_trace (s : State) (w : Wing) (x : Work) : (s.toSeam w x).trace = s.trace := rfl
@[simp] theorem State.toSeam_resets (s : State) (w : Wing) (x : Work) : (s.toSeam w x).resets = s.resets := rfl

/-! ### condOff -/

@[simp] theorem State.condOff_pending (s : State) (b i : Nat) : (s.condOff b i).pending = s.pending := rfl
@[simp] theorem State.condOff_now (s : State) (b i : Nat) : (s.condOff b i).now = s.now := rfl
@[simp] theorem State.condOff_free (s : State) (b i : Nat) : (s.condOff b i).free = s.free := rfl
@[simp] theorem State.condOff_todo (s : State) (b i : Nat) : (s.condOff b i).todo = s.todo := rfl
@[simp] theorem State.condOff_onHold (s : State) (b i : Nat) : (s.condOff b i).onHold = s.onHold := rfl
@[simp] theorem State.condOff_upsets (s : State) (b i : Nat) : (s.condOff b i).upsets = s.upsets := rfl
@[simp] theorem State.condOff_out (s : State) (b i : Nat) : (s.condOff b i).out = s.out := rfl
@[simp] theorem State.condOff_iml (s : State) (b i : Nat) : (s.condOff b i).iml = s.iml := rfl
@[simp] theorem State.condOff_rom (s : State) (b i : Nat) : (s.condOff b i).rom = s.rom := rfl
@[simp] theorem State.condOff_pins (s : State) (b i : Nat) : (s.condOff b i).pins = s.pins := rfl
@[simp] theorem State.condOff_img (s : State) (b i : Nat) : (s.condOff b i).img = s.img := rfl
@[simp] theorem State.condOff_posmap (s : State) (b i : Nat) : (s.condOff b i).posmap = s.posmap := rfl
@[simp] theorem State.condOff_votes (s : State) (b i : Nat) : (s.condOff b i).votes = s.votes := rfl
@[simp] theorem State.condOff_use (s : State) (b i : Nat) : (s.condOff b i).use = s.use := rfl
@[simp] theorem State.condOff_spent (s : State) (b i : Nat) : (s.condOff b i).spent = s.spent := rfl
@[simp] theorem State.condOff_refusals (s : State) (b i : Nat) : (s.condOff b i).refusals = s.refusals := rfl
@[simp] theorem State.condOff_held (s : State) (b i : Nat) : (s.condOff b i).held = s.held := rfl
@[simp] theorem State.condOff_lanes (s : State) (b i : Nat) : (s.condOff b i).lanes = s.lanes := rfl
@[simp] theorem State.condOff_entries (s : State) (b i : Nat) : (s.condOff b i).entries = s.entries := rfl
@[simp] theorem State.condOff_slots (s : State) (b i : Nat) : (s.condOff b i).slots = s.slots := rfl
@[simp] theorem State.condOff_leaves (s : State) (b i : Nat) : (s.condOff b i).leaves = s.leaves := rfl
@[simp] theorem State.condOff_notes (s : State) (b i : Nat) : (s.condOff b i).notes = s.notes := rfl
@[simp] theorem State.condOff_seam (s : State) (b i : Nat) : (s.condOff b i).seam = s.seam := rfl
@[simp] theorem State.condOff_seamNext (s : State) (b i : Nat) : (s.condOff b i).seamNext = s.seamNext := rfl
@[simp] theorem State.condOff_waitq (s : State) (b i : Nat) : (s.condOff b i).waitq = s.waitq := rfl
@[simp] theorem State.condOff_recs (s : State) (b i : Nat) : (s.condOff b i).recs = s.recs := rfl
@[simp] theorem State.condOff_backing (s : State) (b i : Nat) : (s.condOff b i).backing = s.backing := rfl
@[simp] theorem State.condOff_mblocks (s : State) (b i : Nat) : (s.condOff b i).mblocks = s.mblocks := rfl
@[simp] theorem State.condOff_ablocks (s : State) (b i : Nat) : (s.condOff b i).ablocks = s.ablocks := rfl
@[simp] theorem State.condOff_accs (s : State) (b i : Nat) : (s.condOff b i).accs = s.accs := rfl
@[simp] theorem State.condOff_stages (s : State) (b i : Nat) : (s.condOff b i).stages = s.stages := rfl
@[simp] theorem State.condOff_lockDir (s : State) (b i : Nat) : (s.condOff b i).lockDir = s.lockDir := rfl
@[simp] theorem State.condOff_dirLag (s : State) (b i : Nat) : (s.condOff b i).dirLag = s.dirLag := rfl
@[simp] theorem State.condOff_files (s : State) (b i : Nat) : (s.condOff b i).files = s.files := rfl
@[simp] theorem State.condOff_seqs (s : State) (b i : Nat) : (s.condOff b i).seqs = s.seqs := rfl
@[simp] theorem State.condOff_pages (s : State) (b i : Nat) : (s.condOff b i).pages = s.pages := rfl
@[simp] theorem State.condOff_pageFrame (s : State) (b i : Nat) : (s.condOff b i).pageFrame = s.pageFrame := rfl
@[simp] theorem State.condOff_badPages (s : State) (b i : Nat) : (s.condOff b i).badPages = s.badPages := rfl
@[simp] theorem State.condOff_holds (s : State) (b i : Nat) : (s.condOff b i).holds = s.holds := rfl
@[simp] theorem State.condOff_groups (s : State) (b i : Nat) : (s.condOff b i).groups = s.groups := rfl
@[simp] theorem State.condOff_grpSel (s : State) (b i : Nat) : (s.condOff b i).grpSel = s.grpSel := rfl
@[simp] theorem State.condOff_chips (s : State) (b i : Nat) : (s.condOff b i).chips = s.chips := rfl
@[simp] theorem State.condOff_lctxs (s : State) (b i : Nat) : (s.condOff b i).lctxs = s.lctxs := rfl
@[simp] theorem State.condOff_gather (s : State) (b i : Nat) : (s.condOff b i).gather = s.gather := rfl
@[simp] theorem State.condOff_susp (s : State) (b i : Nat) : (s.condOff b i).susp = s.susp := rfl
@[simp] theorem State.condOff_glocks (s : State) (b i : Nat) : (s.condOff b i).glocks = s.glocks := rfl
@[simp] theorem State.condOff_glockReqs (s : State) (b i : Nat) : (s.condOff b i).glockReqs = s.glockReqs := rfl
@[simp] theorem State.condOff_ports (s : State) (b i : Nat) : (s.condOff b i).ports = s.ports := rfl
@[simp] theorem State.condOff_tun (s : State) (b i : Nat) : (s.condOff b i).tun = s.tun := rfl
@[simp] theorem State.condOff_wq (s : State) (b i : Nat) : (s.condOff b i).wq = s.wq := rfl
@[simp] theorem State.condOff_wk (s : State) (b i : Nat) : (s.condOff b i).wk = s.wk := rfl
@[simp] theorem State.condOff_pwrc (s : State) (b i : Nat) : (s.condOff b i).pwrc = s.pwrc := rfl
@[simp] theorem State.condOff_blks (s : State) (b i : Nat) : (s.condOff b i).blks = s.blks := rfl
@[simp] theorem State.condOff_alive (s : State) (b i : Nat) : (s.condOff b i).alive = s.alive := rfl
@[simp] theorem State.condOff_rep (s : State) (b i : Nat) : (s.condOff b i).rep = s.rep := rfl
@[simp] theorem State.condOff_tsync (s : State) (b i : Nat) : (s.condOff b i).tsync = s.tsync := rfl
@[simp] theorem State.condOff_tap (s : State) (b i : Nat) : (s.condOff b i).tap = s.tap := rfl
@[simp] theorem State.condOff_trace (s : State) (b i : Nat) : (s.condOff b i).trace = s.trace := rfl
@[simp] theorem State.condOff_resets (s : State) (b i : Nat) : (s.condOff b i).resets = s.resets := rfl

/-! ### beat -/

@[simp] theorem State.beat_pending (s : State) (w : Wing) (k : Nat) (t : BeatType) (i : Nat) (m : BitVec 48) : (s.beat w k t i m).pending = s.pending := by unfold State.beat; split; rfl; cases w <;> rfl
@[simp] theorem State.beat_now (s : State) (w : Wing) (k : Nat) (t : BeatType) (i : Nat) (m : BitVec 48) : (s.beat w k t i m).now = s.now := by unfold State.beat; split; rfl; cases w <;> rfl
@[simp] theorem State.beat_free (s : State) (w : Wing) (k : Nat) (t : BeatType) (i : Nat) (m : BitVec 48) : (s.beat w k t i m).free = s.free := by unfold State.beat; split; rfl; cases w <;> rfl
@[simp] theorem State.beat_todo (s : State) (w : Wing) (k : Nat) (t : BeatType) (i : Nat) (m : BitVec 48) : (s.beat w k t i m).todo = s.todo := by unfold State.beat; split; rfl; cases w <;> rfl
@[simp] theorem State.beat_onHold (s : State) (w : Wing) (k : Nat) (t : BeatType) (i : Nat) (m : BitVec 48) : (s.beat w k t i m).onHold = s.onHold := by unfold State.beat; split; rfl; cases w <;> rfl
@[simp] theorem State.beat_upsets (s : State) (w : Wing) (k : Nat) (t : BeatType) (i : Nat) (m : BitVec 48) : (s.beat w k t i m).upsets = s.upsets := by unfold State.beat; split; rfl; cases w <;> rfl
@[simp] theorem State.beat_out (s : State) (w : Wing) (k : Nat) (t : BeatType) (i : Nat) (m : BitVec 48) : (s.beat w k t i m).out = s.out := by unfold State.beat; split; rfl; cases w <;> rfl
@[simp] theorem State.beat_iml (s : State) (w : Wing) (k : Nat) (t : BeatType) (i : Nat) (m : BitVec 48) : (s.beat w k t i m).iml = s.iml := by unfold State.beat; split; rfl; cases w <;> rfl
@[simp] theorem State.beat_rom (s : State) (w : Wing) (k : Nat) (t : BeatType) (i : Nat) (m : BitVec 48) : (s.beat w k t i m).rom = s.rom := by unfold State.beat; split; rfl; cases w <;> rfl
@[simp] theorem State.beat_pins (s : State) (w : Wing) (k : Nat) (t : BeatType) (i : Nat) (m : BitVec 48) : (s.beat w k t i m).pins = s.pins := by unfold State.beat; split; rfl; cases w <;> rfl
@[simp] theorem State.beat_img (s : State) (w : Wing) (k : Nat) (t : BeatType) (i : Nat) (m : BitVec 48) : (s.beat w k t i m).img = s.img := by unfold State.beat; split; rfl; cases w <;> rfl
@[simp] theorem State.beat_posmap (s : State) (w : Wing) (k : Nat) (t : BeatType) (i : Nat) (m : BitVec 48) : (s.beat w k t i m).posmap = s.posmap := by unfold State.beat; split; rfl; cases w <;> rfl
@[simp] theorem State.beat_votes (s : State) (w : Wing) (k : Nat) (t : BeatType) (i : Nat) (m : BitVec 48) : (s.beat w k t i m).votes = s.votes := by unfold State.beat; split; rfl; cases w <;> rfl
@[simp] theorem State.beat_use (s : State) (w : Wing) (k : Nat) (t : BeatType) (i : Nat) (m : BitVec 48) : (s.beat w k t i m).use = s.use := by unfold State.beat; split; rfl; cases w <;> rfl
@[simp] theorem State.beat_spent (s : State) (w : Wing) (k : Nat) (t : BeatType) (i : Nat) (m : BitVec 48) : (s.beat w k t i m).spent = s.spent := by unfold State.beat; split; rfl; cases w <;> rfl
@[simp] theorem State.beat_refusals (s : State) (w : Wing) (k : Nat) (t : BeatType) (i : Nat) (m : BitVec 48) : (s.beat w k t i m).refusals = s.refusals := by unfold State.beat; split; rfl; cases w <;> rfl
@[simp] theorem State.beat_held (s : State) (w : Wing) (k : Nat) (t : BeatType) (i : Nat) (m : BitVec 48) : (s.beat w k t i m).held = s.held := by unfold State.beat; split; rfl; cases w <;> rfl
@[simp] theorem State.beat_lanes (s : State) (w : Wing) (k : Nat) (t : BeatType) (i : Nat) (m : BitVec 48) : (s.beat w k t i m).lanes = s.lanes := by unfold State.beat; split; rfl; cases w <;> rfl
@[simp] theorem State.beat_entries (s : State) (w : Wing) (k : Nat) (t : BeatType) (i : Nat) (m : BitVec 48) : (s.beat w k t i m).entries = s.entries := by unfold State.beat; split; rfl; cases w <;> rfl
@[simp] theorem State.beat_slots (s : State) (w : Wing) (k : Nat) (t : BeatType) (i : Nat) (m : BitVec 48) : (s.beat w k t i m).slots = s.slots := by unfold State.beat; split; rfl; cases w <;> rfl
@[simp] theorem State.beat_leaves (s : State) (w : Wing) (k : Nat) (t : BeatType) (i : Nat) (m : BitVec 48) : (s.beat w k t i m).leaves = s.leaves := by unfold State.beat; split; rfl; cases w <;> rfl
@[simp] theorem State.beat_notes (s : State) (w : Wing) (k : Nat) (t : BeatType) (i : Nat) (m : BitVec 48) : (s.beat w k t i m).notes = s.notes := by unfold State.beat; split; rfl; cases w <;> rfl
@[simp] theorem State.beat_seam (s : State) (w : Wing) (k : Nat) (t : BeatType) (i : Nat) (m : BitVec 48) : (s.beat w k t i m).seam = s.seam := by unfold State.beat; split; rfl; cases w <;> rfl
@[simp] theorem State.beat_seamNext (s : State) (w : Wing) (k : Nat) (t : BeatType) (i : Nat) (m : BitVec 48) : (s.beat w k t i m).seamNext = s.seamNext := by unfold State.beat; split; rfl; cases w <;> rfl
@[simp] theorem State.beat_waitq (s : State) (w : Wing) (k : Nat) (t : BeatType) (i : Nat) (m : BitVec 48) : (s.beat w k t i m).waitq = s.waitq := by unfold State.beat; split; rfl; cases w <;> rfl
@[simp] theorem State.beat_recs (s : State) (w : Wing) (k : Nat) (t : BeatType) (i : Nat) (m : BitVec 48) : (s.beat w k t i m).recs = s.recs := by unfold State.beat; split; rfl; cases w <;> rfl
@[simp] theorem State.beat_backing (s : State) (w : Wing) (k : Nat) (t : BeatType) (i : Nat) (m : BitVec 48) : (s.beat w k t i m).backing = s.backing := by unfold State.beat; split; rfl; cases w <;> rfl
@[simp] theorem State.beat_mblocks (s : State) (w : Wing) (k : Nat) (t : BeatType) (i : Nat) (m : BitVec 48) : (s.beat w k t i m).mblocks = s.mblocks := by unfold State.beat; split; rfl; cases w <;> rfl
@[simp] theorem State.beat_ablocks (s : State) (w : Wing) (k : Nat) (t : BeatType) (i : Nat) (m : BitVec 48) : (s.beat w k t i m).ablocks = s.ablocks := by unfold State.beat; split; rfl; cases w <;> rfl
@[simp] theorem State.beat_accs (s : State) (w : Wing) (k : Nat) (t : BeatType) (i : Nat) (m : BitVec 48) : (s.beat w k t i m).accs = s.accs := by unfold State.beat; split; rfl; cases w <;> rfl
@[simp] theorem State.beat_stages (s : State) (w : Wing) (k : Nat) (t : BeatType) (i : Nat) (m : BitVec 48) : (s.beat w k t i m).stages = s.stages := by unfold State.beat; split; rfl; cases w <;> rfl
@[simp] theorem State.beat_lockDir (s : State) (w : Wing) (k : Nat) (t : BeatType) (i : Nat) (m : BitVec 48) : (s.beat w k t i m).lockDir = s.lockDir := by unfold State.beat; split; rfl; cases w <;> rfl
@[simp] theorem State.beat_dirLag (s : State) (w : Wing) (k : Nat) (t : BeatType) (i : Nat) (m : BitVec 48) : (s.beat w k t i m).dirLag = s.dirLag := by unfold State.beat; split; rfl; cases w <;> rfl
@[simp] theorem State.beat_files (s : State) (w : Wing) (k : Nat) (t : BeatType) (i : Nat) (m : BitVec 48) : (s.beat w k t i m).files = s.files := by unfold State.beat; split; rfl; cases w <;> rfl
@[simp] theorem State.beat_seqs (s : State) (w : Wing) (k : Nat) (t : BeatType) (i : Nat) (m : BitVec 48) : (s.beat w k t i m).seqs = s.seqs := by unfold State.beat; split; rfl; cases w <;> rfl
@[simp] theorem State.beat_pages (s : State) (w : Wing) (k : Nat) (t : BeatType) (i : Nat) (m : BitVec 48) : (s.beat w k t i m).pages = s.pages := by unfold State.beat; split; rfl; cases w <;> rfl
@[simp] theorem State.beat_pageFrame (s : State) (w : Wing) (k : Nat) (t : BeatType) (i : Nat) (m : BitVec 48) : (s.beat w k t i m).pageFrame = s.pageFrame := by unfold State.beat; split; rfl; cases w <;> rfl
@[simp] theorem State.beat_badPages (s : State) (w : Wing) (k : Nat) (t : BeatType) (i : Nat) (m : BitVec 48) : (s.beat w k t i m).badPages = s.badPages := by unfold State.beat; split; rfl; cases w <;> rfl
@[simp] theorem State.beat_holds (s : State) (w : Wing) (k : Nat) (t : BeatType) (i : Nat) (m : BitVec 48) : (s.beat w k t i m).holds = s.holds := by unfold State.beat; split; rfl; cases w <;> rfl
@[simp] theorem State.beat_groups (s : State) (w : Wing) (k : Nat) (t : BeatType) (i : Nat) (m : BitVec 48) : (s.beat w k t i m).groups = s.groups := by unfold State.beat; split; rfl; cases w <;> rfl
@[simp] theorem State.beat_grpSel (s : State) (w : Wing) (k : Nat) (t : BeatType) (i : Nat) (m : BitVec 48) : (s.beat w k t i m).grpSel = s.grpSel := by unfold State.beat; split; rfl; cases w <;> rfl
@[simp] theorem State.beat_chips (s : State) (w : Wing) (k : Nat) (t : BeatType) (i : Nat) (m : BitVec 48) : (s.beat w k t i m).chips = s.chips := by unfold State.beat; split; rfl; cases w <;> rfl
@[simp] theorem State.beat_lctxs (s : State) (w : Wing) (k : Nat) (t : BeatType) (i : Nat) (m : BitVec 48) : (s.beat w k t i m).lctxs = s.lctxs := by unfold State.beat; split; rfl; cases w <;> rfl
@[simp] theorem State.beat_gather (s : State) (w : Wing) (k : Nat) (t : BeatType) (i : Nat) (m : BitVec 48) : (s.beat w k t i m).gather = s.gather := by unfold State.beat; split; rfl; cases w <;> rfl
@[simp] theorem State.beat_susp (s : State) (w : Wing) (k : Nat) (t : BeatType) (i : Nat) (m : BitVec 48) : (s.beat w k t i m).susp = s.susp := by unfold State.beat; split; rfl; cases w <;> rfl
@[simp] theorem State.beat_glocks (s : State) (w : Wing) (k : Nat) (t : BeatType) (i : Nat) (m : BitVec 48) : (s.beat w k t i m).glocks = s.glocks := by unfold State.beat; split; rfl; cases w <;> rfl
@[simp] theorem State.beat_glockReqs (s : State) (w : Wing) (k : Nat) (t : BeatType) (i : Nat) (m : BitVec 48) : (s.beat w k t i m).glockReqs = s.glockReqs := by unfold State.beat; split; rfl; cases w <;> rfl
@[simp] theorem State.beat_ports (s : State) (w : Wing) (k : Nat) (t : BeatType) (i : Nat) (m : BitVec 48) : (s.beat w k t i m).ports = s.ports := by unfold State.beat; split; rfl; cases w <;> rfl
@[simp] theorem State.beat_tun (s : State) (w : Wing) (k : Nat) (t : BeatType) (i : Nat) (m : BitVec 48) : (s.beat w k t i m).tun = s.tun := by unfold State.beat; split; rfl; cases w <;> rfl
@[simp] theorem State.beat_pwrc (s : State) (w : Wing) (k : Nat) (t : BeatType) (i : Nat) (m : BitVec 48) : (s.beat w k t i m).pwrc = s.pwrc := by unfold State.beat; split; rfl; cases w <;> rfl
@[simp] theorem State.beat_blks (s : State) (w : Wing) (k : Nat) (t : BeatType) (i : Nat) (m : BitVec 48) : (s.beat w k t i m).blks = s.blks := by unfold State.beat; split; rfl; cases w <;> rfl
@[simp] theorem State.beat_alive (s : State) (w : Wing) (k : Nat) (t : BeatType) (i : Nat) (m : BitVec 48) : (s.beat w k t i m).alive = s.alive := by unfold State.beat; split; rfl; cases w <;> rfl
@[simp] theorem State.beat_conds (s : State) (w : Wing) (k : Nat) (t : BeatType) (i : Nat) (m : BitVec 48) : (s.beat w k t i m).conds = s.conds := by unfold State.beat; split; rfl; cases w <;> rfl
@[simp] theorem State.beat_rep (s : State) (w : Wing) (k : Nat) (t : BeatType) (i : Nat) (m : BitVec 48) : (s.beat w k t i m).rep = s.rep := by unfold State.beat; split; rfl; cases w <;> rfl
@[simp] theorem State.beat_tsync (s : State) (w : Wing) (k : Nat) (t : BeatType) (i : Nat) (m : BitVec 48) : (s.beat w k t i m).tsync = s.tsync := by unfold State.beat; split; rfl; cases w <;> rfl
@[simp] theorem State.beat_tap (s : State) (w : Wing) (k : Nat) (t : BeatType) (i : Nat) (m : BitVec 48) : (s.beat w k t i m).tap = s.tap := by unfold State.beat; split; rfl; cases w <;> rfl
@[simp] theorem State.beat_trace (s : State) (w : Wing) (k : Nat) (t : BeatType) (i : Nat) (m : BitVec 48) : (s.beat w k t i m).trace = s.trace := by unfold State.beat; split; rfl; cases w <;> rfl
@[simp] theorem State.beat_resets (s : State) (w : Wing) (k : Nat) (t : BeatType) (i : Nat) (m : BitVec 48) : (s.beat w k t i m).resets = s.resets := by unfold State.beat; split; rfl; cases w <;> rfl

/-! ### beat1 -/

@[simp] theorem State.beat1_pending (s : State) (w : Wing) (p : Nat) (t : BeatType) (i : Nat) : (s.beat1 w p t i).pending = s.pending := by unfold State.beat1; simp
@[simp] theorem State.beat1_now (s : State) (w : Wing) (p : Nat) (t : BeatType) (i : Nat) : (s.beat1 w p t i).now = s.now := by unfold State.beat1; simp
@[simp] theorem State.beat1_free (s : State) (w : Wing) (p : Nat) (t : BeatType) (i : Nat) : (s.beat1 w p t i).free = s.free := by unfold State.beat1; simp
@[simp] theorem State.beat1_todo (s : State) (w : Wing) (p : Nat) (t : BeatType) (i : Nat) : (s.beat1 w p t i).todo = s.todo := by unfold State.beat1; simp
@[simp] theorem State.beat1_onHold (s : State) (w : Wing) (p : Nat) (t : BeatType) (i : Nat) : (s.beat1 w p t i).onHold = s.onHold := by unfold State.beat1; simp
@[simp] theorem State.beat1_upsets (s : State) (w : Wing) (p : Nat) (t : BeatType) (i : Nat) : (s.beat1 w p t i).upsets = s.upsets := by unfold State.beat1; simp
@[simp] theorem State.beat1_out (s : State) (w : Wing) (p : Nat) (t : BeatType) (i : Nat) : (s.beat1 w p t i).out = s.out := by unfold State.beat1; simp
@[simp] theorem State.beat1_iml (s : State) (w : Wing) (p : Nat) (t : BeatType) (i : Nat) : (s.beat1 w p t i).iml = s.iml := by unfold State.beat1; simp
@[simp] theorem State.beat1_rom (s : State) (w : Wing) (p : Nat) (t : BeatType) (i : Nat) : (s.beat1 w p t i).rom = s.rom := by unfold State.beat1; simp
@[simp] theorem State.beat1_pins (s : State) (w : Wing) (p : Nat) (t : BeatType) (i : Nat) : (s.beat1 w p t i).pins = s.pins := by unfold State.beat1; simp
@[simp] theorem State.beat1_img (s : State) (w : Wing) (p : Nat) (t : BeatType) (i : Nat) : (s.beat1 w p t i).img = s.img := by unfold State.beat1; simp
@[simp] theorem State.beat1_posmap (s : State) (w : Wing) (p : Nat) (t : BeatType) (i : Nat) : (s.beat1 w p t i).posmap = s.posmap := by unfold State.beat1; simp
@[simp] theorem State.beat1_votes (s : State) (w : Wing) (p : Nat) (t : BeatType) (i : Nat) : (s.beat1 w p t i).votes = s.votes := by unfold State.beat1; simp
@[simp] theorem State.beat1_use (s : State) (w : Wing) (p : Nat) (t : BeatType) (i : Nat) : (s.beat1 w p t i).use = s.use := by unfold State.beat1; simp
@[simp] theorem State.beat1_spent (s : State) (w : Wing) (p : Nat) (t : BeatType) (i : Nat) : (s.beat1 w p t i).spent = s.spent := by unfold State.beat1; simp
@[simp] theorem State.beat1_refusals (s : State) (w : Wing) (p : Nat) (t : BeatType) (i : Nat) : (s.beat1 w p t i).refusals = s.refusals := by unfold State.beat1; simp
@[simp] theorem State.beat1_held (s : State) (w : Wing) (p : Nat) (t : BeatType) (i : Nat) : (s.beat1 w p t i).held = s.held := by unfold State.beat1; simp
@[simp] theorem State.beat1_lanes (s : State) (w : Wing) (p : Nat) (t : BeatType) (i : Nat) : (s.beat1 w p t i).lanes = s.lanes := by unfold State.beat1; simp
@[simp] theorem State.beat1_entries (s : State) (w : Wing) (p : Nat) (t : BeatType) (i : Nat) : (s.beat1 w p t i).entries = s.entries := by unfold State.beat1; simp
@[simp] theorem State.beat1_slots (s : State) (w : Wing) (p : Nat) (t : BeatType) (i : Nat) : (s.beat1 w p t i).slots = s.slots := by unfold State.beat1; simp
@[simp] theorem State.beat1_leaves (s : State) (w : Wing) (p : Nat) (t : BeatType) (i : Nat) : (s.beat1 w p t i).leaves = s.leaves := by unfold State.beat1; simp
@[simp] theorem State.beat1_notes (s : State) (w : Wing) (p : Nat) (t : BeatType) (i : Nat) : (s.beat1 w p t i).notes = s.notes := by unfold State.beat1; simp
@[simp] theorem State.beat1_seam (s : State) (w : Wing) (p : Nat) (t : BeatType) (i : Nat) : (s.beat1 w p t i).seam = s.seam := by unfold State.beat1; simp
@[simp] theorem State.beat1_seamNext (s : State) (w : Wing) (p : Nat) (t : BeatType) (i : Nat) : (s.beat1 w p t i).seamNext = s.seamNext := by unfold State.beat1; simp
@[simp] theorem State.beat1_waitq (s : State) (w : Wing) (p : Nat) (t : BeatType) (i : Nat) : (s.beat1 w p t i).waitq = s.waitq := by unfold State.beat1; simp
@[simp] theorem State.beat1_recs (s : State) (w : Wing) (p : Nat) (t : BeatType) (i : Nat) : (s.beat1 w p t i).recs = s.recs := by unfold State.beat1; simp
@[simp] theorem State.beat1_backing (s : State) (w : Wing) (p : Nat) (t : BeatType) (i : Nat) : (s.beat1 w p t i).backing = s.backing := by unfold State.beat1; simp
@[simp] theorem State.beat1_mblocks (s : State) (w : Wing) (p : Nat) (t : BeatType) (i : Nat) : (s.beat1 w p t i).mblocks = s.mblocks := by unfold State.beat1; simp
@[simp] theorem State.beat1_ablocks (s : State) (w : Wing) (p : Nat) (t : BeatType) (i : Nat) : (s.beat1 w p t i).ablocks = s.ablocks := by unfold State.beat1; simp
@[simp] theorem State.beat1_accs (s : State) (w : Wing) (p : Nat) (t : BeatType) (i : Nat) : (s.beat1 w p t i).accs = s.accs := by unfold State.beat1; simp
@[simp] theorem State.beat1_stages (s : State) (w : Wing) (p : Nat) (t : BeatType) (i : Nat) : (s.beat1 w p t i).stages = s.stages := by unfold State.beat1; simp
@[simp] theorem State.beat1_lockDir (s : State) (w : Wing) (p : Nat) (t : BeatType) (i : Nat) : (s.beat1 w p t i).lockDir = s.lockDir := by unfold State.beat1; simp
@[simp] theorem State.beat1_dirLag (s : State) (w : Wing) (p : Nat) (t : BeatType) (i : Nat) : (s.beat1 w p t i).dirLag = s.dirLag := by unfold State.beat1; simp
@[simp] theorem State.beat1_files (s : State) (w : Wing) (p : Nat) (t : BeatType) (i : Nat) : (s.beat1 w p t i).files = s.files := by unfold State.beat1; simp
@[simp] theorem State.beat1_seqs (s : State) (w : Wing) (p : Nat) (t : BeatType) (i : Nat) : (s.beat1 w p t i).seqs = s.seqs := by unfold State.beat1; simp
@[simp] theorem State.beat1_pages (s : State) (w : Wing) (p : Nat) (t : BeatType) (i : Nat) : (s.beat1 w p t i).pages = s.pages := by unfold State.beat1; simp
@[simp] theorem State.beat1_pageFrame (s : State) (w : Wing) (p : Nat) (t : BeatType) (i : Nat) : (s.beat1 w p t i).pageFrame = s.pageFrame := by unfold State.beat1; simp
@[simp] theorem State.beat1_badPages (s : State) (w : Wing) (p : Nat) (t : BeatType) (i : Nat) : (s.beat1 w p t i).badPages = s.badPages := by unfold State.beat1; simp
@[simp] theorem State.beat1_holds (s : State) (w : Wing) (p : Nat) (t : BeatType) (i : Nat) : (s.beat1 w p t i).holds = s.holds := by unfold State.beat1; simp
@[simp] theorem State.beat1_groups (s : State) (w : Wing) (p : Nat) (t : BeatType) (i : Nat) : (s.beat1 w p t i).groups = s.groups := by unfold State.beat1; simp
@[simp] theorem State.beat1_grpSel (s : State) (w : Wing) (p : Nat) (t : BeatType) (i : Nat) : (s.beat1 w p t i).grpSel = s.grpSel := by unfold State.beat1; simp
@[simp] theorem State.beat1_chips (s : State) (w : Wing) (p : Nat) (t : BeatType) (i : Nat) : (s.beat1 w p t i).chips = s.chips := by unfold State.beat1; simp
@[simp] theorem State.beat1_lctxs (s : State) (w : Wing) (p : Nat) (t : BeatType) (i : Nat) : (s.beat1 w p t i).lctxs = s.lctxs := by unfold State.beat1; simp
@[simp] theorem State.beat1_gather (s : State) (w : Wing) (p : Nat) (t : BeatType) (i : Nat) : (s.beat1 w p t i).gather = s.gather := by unfold State.beat1; simp
@[simp] theorem State.beat1_susp (s : State) (w : Wing) (p : Nat) (t : BeatType) (i : Nat) : (s.beat1 w p t i).susp = s.susp := by unfold State.beat1; simp
@[simp] theorem State.beat1_glocks (s : State) (w : Wing) (p : Nat) (t : BeatType) (i : Nat) : (s.beat1 w p t i).glocks = s.glocks := by unfold State.beat1; simp
@[simp] theorem State.beat1_glockReqs (s : State) (w : Wing) (p : Nat) (t : BeatType) (i : Nat) : (s.beat1 w p t i).glockReqs = s.glockReqs := by unfold State.beat1; simp
@[simp] theorem State.beat1_ports (s : State) (w : Wing) (p : Nat) (t : BeatType) (i : Nat) : (s.beat1 w p t i).ports = s.ports := by unfold State.beat1; simp
@[simp] theorem State.beat1_tun (s : State) (w : Wing) (p : Nat) (t : BeatType) (i : Nat) : (s.beat1 w p t i).tun = s.tun := by unfold State.beat1; simp
@[simp] theorem State.beat1_pwrc (s : State) (w : Wing) (p : Nat) (t : BeatType) (i : Nat) : (s.beat1 w p t i).pwrc = s.pwrc := by unfold State.beat1; simp
@[simp] theorem State.beat1_blks (s : State) (w : Wing) (p : Nat) (t : BeatType) (i : Nat) : (s.beat1 w p t i).blks = s.blks := by unfold State.beat1; simp
@[simp] theorem State.beat1_alive (s : State) (w : Wing) (p : Nat) (t : BeatType) (i : Nat) : (s.beat1 w p t i).alive = s.alive := by unfold State.beat1; simp
@[simp] theorem State.beat1_conds (s : State) (w : Wing) (p : Nat) (t : BeatType) (i : Nat) : (s.beat1 w p t i).conds = s.conds := by unfold State.beat1; simp
@[simp] theorem State.beat1_rep (s : State) (w : Wing) (p : Nat) (t : BeatType) (i : Nat) : (s.beat1 w p t i).rep = s.rep := by unfold State.beat1; simp
@[simp] theorem State.beat1_tsync (s : State) (w : Wing) (p : Nat) (t : BeatType) (i : Nat) : (s.beat1 w p t i).tsync = s.tsync := by unfold State.beat1; simp
@[simp] theorem State.beat1_tap (s : State) (w : Wing) (p : Nat) (t : BeatType) (i : Nat) : (s.beat1 w p t i).tap = s.tap := by unfold State.beat1; simp
@[simp] theorem State.beat1_trace (s : State) (w : Wing) (p : Nat) (t : BeatType) (i : Nat) : (s.beat1 w p t i).trace = s.trace := by unfold State.beat1; simp
@[simp] theorem State.beat1_resets (s : State) (w : Wing) (p : Nat) (t : BeatType) (i : Nat) : (s.beat1 w p t i).resets = s.resets := by unfold State.beat1; simp

/-! ### setVote -/

@[simp] theorem State.setVote_pending (s : State) (w : Wing) (p : Nat) (v : Bool) : (s.setVote w p v).pending = s.pending := rfl
@[simp] theorem State.setVote_now (s : State) (w : Wing) (p : Nat) (v : Bool) : (s.setVote w p v).now = s.now := rfl
@[simp] theorem State.setVote_free (s : State) (w : Wing) (p : Nat) (v : Bool) : (s.setVote w p v).free = s.free := rfl
@[simp] theorem State.setVote_todo (s : State) (w : Wing) (p : Nat) (v : Bool) : (s.setVote w p v).todo = s.todo := rfl
@[simp] theorem State.setVote_onHold (s : State) (w : Wing) (p : Nat) (v : Bool) : (s.setVote w p v).onHold = s.onHold := rfl
@[simp] theorem State.setVote_upsets (s : State) (w : Wing) (p : Nat) (v : Bool) : (s.setVote w p v).upsets = s.upsets := rfl
@[simp] theorem State.setVote_out (s : State) (w : Wing) (p : Nat) (v : Bool) : (s.setVote w p v).out = s.out := rfl
@[simp] theorem State.setVote_iml (s : State) (w : Wing) (p : Nat) (v : Bool) : (s.setVote w p v).iml = s.iml := rfl
@[simp] theorem State.setVote_rom (s : State) (w : Wing) (p : Nat) (v : Bool) : (s.setVote w p v).rom = s.rom := rfl
@[simp] theorem State.setVote_pins (s : State) (w : Wing) (p : Nat) (v : Bool) : (s.setVote w p v).pins = s.pins := rfl
@[simp] theorem State.setVote_img (s : State) (w : Wing) (p : Nat) (v : Bool) : (s.setVote w p v).img = s.img := rfl
@[simp] theorem State.setVote_posmap (s : State) (w : Wing) (p : Nat) (v : Bool) : (s.setVote w p v).posmap = s.posmap := rfl
@[simp] theorem State.setVote_use (s : State) (w : Wing) (p : Nat) (v : Bool) : (s.setVote w p v).use = s.use := rfl
@[simp] theorem State.setVote_spent (s : State) (w : Wing) (p : Nat) (v : Bool) : (s.setVote w p v).spent = s.spent := rfl
@[simp] theorem State.setVote_refusals (s : State) (w : Wing) (p : Nat) (v : Bool) : (s.setVote w p v).refusals = s.refusals := rfl
@[simp] theorem State.setVote_held (s : State) (w : Wing) (p : Nat) (v : Bool) : (s.setVote w p v).held = s.held := rfl
@[simp] theorem State.setVote_lanes (s : State) (w : Wing) (p : Nat) (v : Bool) : (s.setVote w p v).lanes = s.lanes := rfl
@[simp] theorem State.setVote_entries (s : State) (w : Wing) (p : Nat) (v : Bool) : (s.setVote w p v).entries = s.entries := rfl
@[simp] theorem State.setVote_slots (s : State) (w : Wing) (p : Nat) (v : Bool) : (s.setVote w p v).slots = s.slots := rfl
@[simp] theorem State.setVote_leaves (s : State) (w : Wing) (p : Nat) (v : Bool) : (s.setVote w p v).leaves = s.leaves := rfl
@[simp] theorem State.setVote_notes (s : State) (w : Wing) (p : Nat) (v : Bool) : (s.setVote w p v).notes = s.notes := rfl
@[simp] theorem State.setVote_seam (s : State) (w : Wing) (p : Nat) (v : Bool) : (s.setVote w p v).seam = s.seam := rfl
@[simp] theorem State.setVote_seamNext (s : State) (w : Wing) (p : Nat) (v : Bool) : (s.setVote w p v).seamNext = s.seamNext := rfl
@[simp] theorem State.setVote_waitq (s : State) (w : Wing) (p : Nat) (v : Bool) : (s.setVote w p v).waitq = s.waitq := rfl
@[simp] theorem State.setVote_recs (s : State) (w : Wing) (p : Nat) (v : Bool) : (s.setVote w p v).recs = s.recs := rfl
@[simp] theorem State.setVote_backing (s : State) (w : Wing) (p : Nat) (v : Bool) : (s.setVote w p v).backing = s.backing := rfl
@[simp] theorem State.setVote_mblocks (s : State) (w : Wing) (p : Nat) (v : Bool) : (s.setVote w p v).mblocks = s.mblocks := rfl
@[simp] theorem State.setVote_ablocks (s : State) (w : Wing) (p : Nat) (v : Bool) : (s.setVote w p v).ablocks = s.ablocks := rfl
@[simp] theorem State.setVote_accs (s : State) (w : Wing) (p : Nat) (v : Bool) : (s.setVote w p v).accs = s.accs := rfl
@[simp] theorem State.setVote_stages (s : State) (w : Wing) (p : Nat) (v : Bool) : (s.setVote w p v).stages = s.stages := rfl
@[simp] theorem State.setVote_lockDir (s : State) (w : Wing) (p : Nat) (v : Bool) : (s.setVote w p v).lockDir = s.lockDir := rfl
@[simp] theorem State.setVote_dirLag (s : State) (w : Wing) (p : Nat) (v : Bool) : (s.setVote w p v).dirLag = s.dirLag := rfl
@[simp] theorem State.setVote_files (s : State) (w : Wing) (p : Nat) (v : Bool) : (s.setVote w p v).files = s.files := rfl
@[simp] theorem State.setVote_seqs (s : State) (w : Wing) (p : Nat) (v : Bool) : (s.setVote w p v).seqs = s.seqs := rfl
@[simp] theorem State.setVote_pages (s : State) (w : Wing) (p : Nat) (v : Bool) : (s.setVote w p v).pages = s.pages := rfl
@[simp] theorem State.setVote_pageFrame (s : State) (w : Wing) (p : Nat) (v : Bool) : (s.setVote w p v).pageFrame = s.pageFrame := rfl
@[simp] theorem State.setVote_badPages (s : State) (w : Wing) (p : Nat) (v : Bool) : (s.setVote w p v).badPages = s.badPages := rfl
@[simp] theorem State.setVote_holds (s : State) (w : Wing) (p : Nat) (v : Bool) : (s.setVote w p v).holds = s.holds := rfl
@[simp] theorem State.setVote_groups (s : State) (w : Wing) (p : Nat) (v : Bool) : (s.setVote w p v).groups = s.groups := rfl
@[simp] theorem State.setVote_grpSel (s : State) (w : Wing) (p : Nat) (v : Bool) : (s.setVote w p v).grpSel = s.grpSel := rfl
@[simp] theorem State.setVote_chips (s : State) (w : Wing) (p : Nat) (v : Bool) : (s.setVote w p v).chips = s.chips := rfl
@[simp] theorem State.setVote_lctxs (s : State) (w : Wing) (p : Nat) (v : Bool) : (s.setVote w p v).lctxs = s.lctxs := rfl
@[simp] theorem State.setVote_gather (s : State) (w : Wing) (p : Nat) (v : Bool) : (s.setVote w p v).gather = s.gather := rfl
@[simp] theorem State.setVote_susp (s : State) (w : Wing) (p : Nat) (v : Bool) : (s.setVote w p v).susp = s.susp := rfl
@[simp] theorem State.setVote_glocks (s : State) (w : Wing) (p : Nat) (v : Bool) : (s.setVote w p v).glocks = s.glocks := rfl
@[simp] theorem State.setVote_glockReqs (s : State) (w : Wing) (p : Nat) (v : Bool) : (s.setVote w p v).glockReqs = s.glockReqs := rfl
@[simp] theorem State.setVote_ports (s : State) (w : Wing) (p : Nat) (v : Bool) : (s.setVote w p v).ports = s.ports := rfl
@[simp] theorem State.setVote_tun (s : State) (w : Wing) (p : Nat) (v : Bool) : (s.setVote w p v).tun = s.tun := rfl
@[simp] theorem State.setVote_wq (s : State) (w : Wing) (p : Nat) (v : Bool) : (s.setVote w p v).wq = s.wq := rfl
@[simp] theorem State.setVote_wk (s : State) (w : Wing) (p : Nat) (v : Bool) : (s.setVote w p v).wk = s.wk := rfl
@[simp] theorem State.setVote_pwrc (s : State) (w : Wing) (p : Nat) (v : Bool) : (s.setVote w p v).pwrc = s.pwrc := rfl
@[simp] theorem State.setVote_blks (s : State) (w : Wing) (p : Nat) (v : Bool) : (s.setVote w p v).blks = s.blks := rfl
@[simp] theorem State.setVote_alive (s : State) (w : Wing) (p : Nat) (v : Bool) : (s.setVote w p v).alive = s.alive := rfl
@[simp] theorem State.setVote_conds (s : State) (w : Wing) (p : Nat) (v : Bool) : (s.setVote w p v).conds = s.conds := rfl
@[simp] theorem State.setVote_rep (s : State) (w : Wing) (p : Nat) (v : Bool) : (s.setVote w p v).rep = s.rep := rfl
@[simp] theorem State.setVote_tsync (s : State) (w : Wing) (p : Nat) (v : Bool) : (s.setVote w p v).tsync = s.tsync := rfl
@[simp] theorem State.setVote_tap (s : State) (w : Wing) (p : Nat) (v : Bool) : (s.setVote w p v).tap = s.tap := rfl
@[simp] theorem State.setVote_resets (s : State) (w : Wing) (p : Nat) (v : Bool) : (s.setVote w p v).resets = s.resets := rfl

/-! ### stir -/

@[simp] theorem State.stir_pending (s : State) (w : Wing) : (s.stir w).pending = s.pending := rfl
@[simp] theorem State.stir_now (s : State) (w : Wing) : (s.stir w).now = s.now := rfl
@[simp] theorem State.stir_free (s : State) (w : Wing) : (s.stir w).free = s.free := rfl
@[simp] theorem State.stir_todo (s : State) (w : Wing) : (s.stir w).todo = s.todo := rfl
@[simp] theorem State.stir_onHold (s : State) (w : Wing) : (s.stir w).onHold = s.onHold := rfl
@[simp] theorem State.stir_upsets (s : State) (w : Wing) : (s.stir w).upsets = s.upsets := rfl
@[simp] theorem State.stir_out (s : State) (w : Wing) : (s.stir w).out = s.out := rfl
@[simp] theorem State.stir_iml (s : State) (w : Wing) : (s.stir w).iml = s.iml := rfl
@[simp] theorem State.stir_rom (s : State) (w : Wing) : (s.stir w).rom = s.rom := rfl
@[simp] theorem State.stir_pins (s : State) (w : Wing) : (s.stir w).pins = s.pins := rfl
@[simp] theorem State.stir_img (s : State) (w : Wing) : (s.stir w).img = s.img := rfl
@[simp] theorem State.stir_posmap (s : State) (w : Wing) : (s.stir w).posmap = s.posmap := rfl
@[simp] theorem State.stir_votes (s : State) (w : Wing) : (s.stir w).votes = s.votes := rfl
@[simp] theorem State.stir_use (s : State) (w : Wing) : (s.stir w).use = s.use := rfl
@[simp] theorem State.stir_spent (s : State) (w : Wing) : (s.stir w).spent = s.spent := rfl
@[simp] theorem State.stir_refusals (s : State) (w : Wing) : (s.stir w).refusals = s.refusals := rfl
@[simp] theorem State.stir_held (s : State) (w : Wing) : (s.stir w).held = s.held := rfl
@[simp] theorem State.stir_lanes (s : State) (w : Wing) : (s.stir w).lanes = s.lanes := rfl
@[simp] theorem State.stir_entries (s : State) (w : Wing) : (s.stir w).entries = s.entries := rfl
@[simp] theorem State.stir_slots (s : State) (w : Wing) : (s.stir w).slots = s.slots := rfl
@[simp] theorem State.stir_leaves (s : State) (w : Wing) : (s.stir w).leaves = s.leaves := rfl
@[simp] theorem State.stir_notes (s : State) (w : Wing) : (s.stir w).notes = s.notes := rfl
@[simp] theorem State.stir_seam (s : State) (w : Wing) : (s.stir w).seam = s.seam := rfl
@[simp] theorem State.stir_seamNext (s : State) (w : Wing) : (s.stir w).seamNext = s.seamNext := rfl
@[simp] theorem State.stir_waitq (s : State) (w : Wing) : (s.stir w).waitq = s.waitq := rfl
@[simp] theorem State.stir_recs (s : State) (w : Wing) : (s.stir w).recs = s.recs := rfl
@[simp] theorem State.stir_backing (s : State) (w : Wing) : (s.stir w).backing = s.backing := rfl
@[simp] theorem State.stir_mblocks (s : State) (w : Wing) : (s.stir w).mblocks = s.mblocks := rfl
@[simp] theorem State.stir_ablocks (s : State) (w : Wing) : (s.stir w).ablocks = s.ablocks := rfl
@[simp] theorem State.stir_accs (s : State) (w : Wing) : (s.stir w).accs = s.accs := rfl
@[simp] theorem State.stir_stages (s : State) (w : Wing) : (s.stir w).stages = s.stages := rfl
@[simp] theorem State.stir_lockDir (s : State) (w : Wing) : (s.stir w).lockDir = s.lockDir := rfl
@[simp] theorem State.stir_dirLag (s : State) (w : Wing) : (s.stir w).dirLag = s.dirLag := rfl
@[simp] theorem State.stir_files (s : State) (w : Wing) : (s.stir w).files = s.files := rfl
@[simp] theorem State.stir_seqs (s : State) (w : Wing) : (s.stir w).seqs = s.seqs := rfl
@[simp] theorem State.stir_pages (s : State) (w : Wing) : (s.stir w).pages = s.pages := rfl
@[simp] theorem State.stir_pageFrame (s : State) (w : Wing) : (s.stir w).pageFrame = s.pageFrame := rfl
@[simp] theorem State.stir_badPages (s : State) (w : Wing) : (s.stir w).badPages = s.badPages := rfl
@[simp] theorem State.stir_holds (s : State) (w : Wing) : (s.stir w).holds = s.holds := rfl
@[simp] theorem State.stir_groups (s : State) (w : Wing) : (s.stir w).groups = s.groups := rfl
@[simp] theorem State.stir_grpSel (s : State) (w : Wing) : (s.stir w).grpSel = s.grpSel := rfl
@[simp] theorem State.stir_chips (s : State) (w : Wing) : (s.stir w).chips = s.chips := rfl
@[simp] theorem State.stir_lctxs (s : State) (w : Wing) : (s.stir w).lctxs = s.lctxs := rfl
@[simp] theorem State.stir_gather (s : State) (w : Wing) : (s.stir w).gather = s.gather := rfl
@[simp] theorem State.stir_susp (s : State) (w : Wing) : (s.stir w).susp = s.susp := rfl
@[simp] theorem State.stir_glocks (s : State) (w : Wing) : (s.stir w).glocks = s.glocks := rfl
@[simp] theorem State.stir_glockReqs (s : State) (w : Wing) : (s.stir w).glockReqs = s.glockReqs := rfl
@[simp] theorem State.stir_ports (s : State) (w : Wing) : (s.stir w).ports = s.ports := rfl
@[simp] theorem State.stir_tun (s : State) (w : Wing) : (s.stir w).tun = s.tun := rfl
@[simp] theorem State.stir_wq (s : State) (w : Wing) : (s.stir w).wq = s.wq := rfl
@[simp] theorem State.stir_wk (s : State) (w : Wing) : (s.stir w).wk = s.wk := rfl
@[simp] theorem State.stir_pwrc (s : State) (w : Wing) : (s.stir w).pwrc = s.pwrc := rfl
@[simp] theorem State.stir_blks (s : State) (w : Wing) : (s.stir w).blks = s.blks := rfl
@[simp] theorem State.stir_alive (s : State) (w : Wing) : (s.stir w).alive = s.alive := rfl
@[simp] theorem State.stir_conds (s : State) (w : Wing) : (s.stir w).conds = s.conds := rfl
@[simp] theorem State.stir_rep (s : State) (w : Wing) : (s.stir w).rep = s.rep := rfl
@[simp] theorem State.stir_tsync (s : State) (w : Wing) : (s.stir w).tsync = s.tsync := rfl
@[simp] theorem State.stir_tap (s : State) (w : Wing) : (s.stir w).tap = s.tap := rfl
@[simp] theorem State.stir_resets (s : State) (w : Wing) : (s.stir w).resets = s.resets := rfl

/-! ### crossing -/

@[simp] theorem State.crossing_pending (s : State) (w : Wing) : (s.crossing w).pending = s.pending := rfl
@[simp] theorem State.crossing_now (s : State) (w : Wing) : (s.crossing w).now = s.now := rfl
@[simp] theorem State.crossing_free (s : State) (w : Wing) : (s.crossing w).free = s.free := rfl
@[simp] theorem State.crossing_todo (s : State) (w : Wing) : (s.crossing w).todo = s.todo := rfl
@[simp] theorem State.crossing_onHold (s : State) (w : Wing) : (s.crossing w).onHold = s.onHold := rfl
@[simp] theorem State.crossing_upsets (s : State) (w : Wing) : (s.crossing w).upsets = s.upsets := rfl
@[simp] theorem State.crossing_out (s : State) (w : Wing) : (s.crossing w).out = s.out := rfl
@[simp] theorem State.crossing_iml (s : State) (w : Wing) : (s.crossing w).iml = s.iml := rfl
@[simp] theorem State.crossing_rom (s : State) (w : Wing) : (s.crossing w).rom = s.rom := rfl
@[simp] theorem State.crossing_pins (s : State) (w : Wing) : (s.crossing w).pins = s.pins := rfl
@[simp] theorem State.crossing_img (s : State) (w : Wing) : (s.crossing w).img = s.img := rfl
@[simp] theorem State.crossing_posmap (s : State) (w : Wing) : (s.crossing w).posmap = s.posmap := rfl
@[simp] theorem State.crossing_votes (s : State) (w : Wing) : (s.crossing w).votes = s.votes := rfl
@[simp] theorem State.crossing_use (s : State) (w : Wing) : (s.crossing w).use = s.use := rfl
@[simp] theorem State.crossing_spent (s : State) (w : Wing) : (s.crossing w).spent = s.spent := rfl
@[simp] theorem State.crossing_refusals (s : State) (w : Wing) : (s.crossing w).refusals = s.refusals := rfl
@[simp] theorem State.crossing_held (s : State) (w : Wing) : (s.crossing w).held = s.held := rfl
@[simp] theorem State.crossing_lanes (s : State) (w : Wing) : (s.crossing w).lanes = s.lanes := rfl
@[simp] theorem State.crossing_entries (s : State) (w : Wing) : (s.crossing w).entries = s.entries := rfl
@[simp] theorem State.crossing_slots (s : State) (w : Wing) : (s.crossing w).slots = s.slots := rfl
@[simp] theorem State.crossing_leaves (s : State) (w : Wing) : (s.crossing w).leaves = s.leaves := rfl
@[simp] theorem State.crossing_notes (s : State) (w : Wing) : (s.crossing w).notes = s.notes := rfl
@[simp] theorem State.crossing_seam (s : State) (w : Wing) : (s.crossing w).seam = s.seam := rfl
@[simp] theorem State.crossing_seamNext (s : State) (w : Wing) : (s.crossing w).seamNext = s.seamNext := rfl
@[simp] theorem State.crossing_waitq (s : State) (w : Wing) : (s.crossing w).waitq = s.waitq := rfl
@[simp] theorem State.crossing_recs (s : State) (w : Wing) : (s.crossing w).recs = s.recs := rfl
@[simp] theorem State.crossing_backing (s : State) (w : Wing) : (s.crossing w).backing = s.backing := rfl
@[simp] theorem State.crossing_mblocks (s : State) (w : Wing) : (s.crossing w).mblocks = s.mblocks := rfl
@[simp] theorem State.crossing_ablocks (s : State) (w : Wing) : (s.crossing w).ablocks = s.ablocks := rfl
@[simp] theorem State.crossing_accs (s : State) (w : Wing) : (s.crossing w).accs = s.accs := rfl
@[simp] theorem State.crossing_stages (s : State) (w : Wing) : (s.crossing w).stages = s.stages := rfl
@[simp] theorem State.crossing_lockDir (s : State) (w : Wing) : (s.crossing w).lockDir = s.lockDir := rfl
@[simp] theorem State.crossing_dirLag (s : State) (w : Wing) : (s.crossing w).dirLag = s.dirLag := rfl
@[simp] theorem State.crossing_files (s : State) (w : Wing) : (s.crossing w).files = s.files := rfl
@[simp] theorem State.crossing_seqs (s : State) (w : Wing) : (s.crossing w).seqs = s.seqs := rfl
@[simp] theorem State.crossing_pages (s : State) (w : Wing) : (s.crossing w).pages = s.pages := rfl
@[simp] theorem State.crossing_pageFrame (s : State) (w : Wing) : (s.crossing w).pageFrame = s.pageFrame := rfl
@[simp] theorem State.crossing_badPages (s : State) (w : Wing) : (s.crossing w).badPages = s.badPages := rfl
@[simp] theorem State.crossing_holds (s : State) (w : Wing) : (s.crossing w).holds = s.holds := rfl
@[simp] theorem State.crossing_groups (s : State) (w : Wing) : (s.crossing w).groups = s.groups := rfl
@[simp] theorem State.crossing_grpSel (s : State) (w : Wing) : (s.crossing w).grpSel = s.grpSel := rfl
@[simp] theorem State.crossing_chips (s : State) (w : Wing) : (s.crossing w).chips = s.chips := rfl
@[simp] theorem State.crossing_lctxs (s : State) (w : Wing) : (s.crossing w).lctxs = s.lctxs := rfl
@[simp] theorem State.crossing_gather (s : State) (w : Wing) : (s.crossing w).gather = s.gather := rfl
@[simp] theorem State.crossing_susp (s : State) (w : Wing) : (s.crossing w).susp = s.susp := rfl
@[simp] theorem State.crossing_glocks (s : State) (w : Wing) : (s.crossing w).glocks = s.glocks := rfl
@[simp] theorem State.crossing_glockReqs (s : State) (w : Wing) : (s.crossing w).glockReqs = s.glockReqs := rfl
@[simp] theorem State.crossing_ports (s : State) (w : Wing) : (s.crossing w).ports = s.ports := rfl
@[simp] theorem State.crossing_tun (s : State) (w : Wing) : (s.crossing w).tun = s.tun := rfl
@[simp] theorem State.crossing_wq (s : State) (w : Wing) : (s.crossing w).wq = s.wq := rfl
@[simp] theorem State.crossing_wk (s : State) (w : Wing) : (s.crossing w).wk = s.wk := rfl
@[simp] theorem State.crossing_pwrc (s : State) (w : Wing) : (s.crossing w).pwrc = s.pwrc := rfl
@[simp] theorem State.crossing_blks (s : State) (w : Wing) : (s.crossing w).blks = s.blks := rfl
@[simp] theorem State.crossing_alive (s : State) (w : Wing) : (s.crossing w).alive = s.alive := rfl
@[simp] theorem State.crossing_conds (s : State) (w : Wing) : (s.crossing w).conds = s.conds := rfl
@[simp] theorem State.crossing_rep (s : State) (w : Wing) : (s.crossing w).rep = s.rep := rfl
@[simp] theorem State.crossing_tsync (s : State) (w : Wing) : (s.crossing w).tsync = s.tsync := rfl
@[simp] theorem State.crossing_tap (s : State) (w : Wing) : (s.crossing w).tap = s.tap := rfl
@[simp] theorem State.crossing_resets (s : State) (w : Wing) : (s.crossing w).resets = s.resets := rfl

end Sys2Proof.Machine
end

