-- ==== Sys2Proof/Laws/Settle.lean ====
section
/-! SUPPORT. The end of a step: a calm state stays as it is, and every settled state is calm. -/
namespace Sys2Proof.Machine

theorem State.with_todo (s : State) (h : s.todo = []) : ({ s with todo := [] } : State) = s := by
  rw [← h]

theorem settleGo_nil (n : Nat) (s : State) (h : s.todo = []) : settleGo n s = s := by
  cases n with
  | zero => rfl
  | succ n => simp [settleGo, h]

theorem settleGo_cons (n : Nat) (s : State) (x : Work) (t : List Work) (h : s.todo = x :: t) :
    settleGo (n + 1) s = settleGo n (({ s with todo := t } : State).runWork x) := by
  simp [settleGo, h]

theorem Trace.peak_q (t : Trace) (n : Nat) (h : n ≤ t.peakQ) : t.peak .q n = t := by
  simp only [Trace.peak, Nat.max_eq_left h]

theorem Trace.peak_k (t : Trace) (n : Nat) (h : n ≤ t.peakK) : t.peak .k n = t := by
  simp only [Trace.peak, Nat.max_eq_left h]

/-- Peaks that are no lower than the occupancies stay. -/
theorem seamPeaks_eq (s : State) (hq : s.seamHeld .q ≤ s.trace.peakQ) (hk : s.seamHeld .k ≤ s.trace.peakK) : s.seamPeaks = s := by
  unfold State.seamPeaks
  rw [Trace.peak_q _ _ hq, Trace.peak_k _ _ hk]

/-- A wave that runs as it must stays. -/
theorem aliveNow_eq (s : State) (h : s.trace.wave.run = s.aliveRuns) : s.aliveNow = s := by
  unfold State.aliveNow
  exact if_pos h

/-- FL_RESET_N stays once it is as it must be. -/
theorem flashNow_eq (s : State) (h : 50000 ≤ s.now → s.inReset = false → s.pins.flResetN = true) : s.flashNow = s := by
  unfold State.flashNow
  refine if_neg (fun x => ?_)
  have h1 := h x.1 x.2.1
  rw [x.2.2] at h1
  exact absurd h1 (by decide)

/-- A state with no work left and its pins and peaks in place is what settling gives. -/
theorem settle_of_calm (s : State) (h : s.calm) : s.settle = s := by
  obtain ⟨ht, hq, hk, ha, hf⟩ := h
  unfold State.settle
  rw [settleGo_nil _ _ ht, State.with_todo _ ht, seamPeaks_eq _ hq hk, aliveNow_eq _ ha, flashNow_eq _ hf]

/-- The pins at the end of a step touch the trace and the pins alone. -/
theorem aliveNow_run (s : State) : s.aliveNow.trace.wave.run = s.aliveRuns := by
  unfold State.aliveNow
  dsimp only
  split
  · assumption
  · rfl

theorem aliveNow_frame (s : State) :
    ∃ x, s.aliveNow = { s with trace := { s.trace with wave := x } } := by
  unfold State.aliveNow
  dsimp only
  split
  · exact ⟨s.trace.wave, rfl⟩
  · exact ⟨_, rfl⟩

theorem flashNow_frame (s : State) : ∃ b, s.flashNow = { s with pins := { s.pins with flResetN := b } } := by
  unfold State.flashNow
  split
  · exact ⟨true, rfl⟩
  · exact ⟨s.pins.flResetN, rfl⟩

theorem flashNow_flResetN (s : State) : 50000 ≤ s.flashNow.now → s.flashNow.inReset = false → s.flashNow.pins.flResetN = true := by
  unfold State.flashNow
  split
  · exact fun _ _ => rfl
  · next h =>
    intro h1 h2
    cases hp : s.pins.flResetN with
    | true => rfl
    | false => exact absurd ⟨h1, h2, hp⟩ h

/-- Every settled state is calm. -/
theorem calm_settle (s : State) : s.settle.calm := by
  have key : ∀ u : State, u.todo = [] → (u.seamPeaks.aliveNow).flashNow.calm := by
    intro u h
    have hr := aliveNow_run u.seamPeaks
    obtain ⟨x, hx⟩ := aliveNow_frame u.seamPeaks
    obtain ⟨b, hb⟩ := flashNow_frame u.seamPeaks.aliveNow
    refine ⟨by rw [hb, hx]; exact h, ?_, ?_, ?_, flashNow_flResetN _⟩
    · rw [hb, hx]; exact Nat.le_max_right _ _
    · rw [hb, hx]; exact Nat.le_max_right _ _
    · rw [hb]; exact hr.trans (by rw [hx]; rfl)
  exact key _ rfl

/-- What the seam holds for a wing depends on the commands and units there, on the lock directory's updates, and on whether the wing is
open. -/
theorem seamHeld_congr (s t : State) (w : Wing) (h1 : t.held = s.held) (h2 : t.seam = s.seam) (h3 : t.dirLag = s.dirLag)
    (h4 : t.seamOpen w = s.seamOpen w) : t.seamHeld w = s.seamHeld w := by
  simp only [State.seamHeld, h1, h2, h3, h4]

/-- Calm depends on the work left, on what waits at the seam, on whether its ways are open, and on the peaks and the pins. -/
theorem calm_congr (s t : State) (h : s.calm) (h1 : t.todo = s.todo) (h2 : t.held = s.held) (h3 : t.seam = s.seam)
    (h4 : t.dirLag = s.dirLag) (ho : ∀ w, t.seamOpen w = s.seamOpen w) (hq : s.trace.peakQ ≤ t.trace.peakQ)
    (hk : s.trace.peakK ≤ t.trace.peakK) (hw : t.trace.wave.run = s.trace.wave.run) (ha : t.aliveRuns = s.aliveRuns)
    (hn : t.now = s.now) (hr : t.inReset = s.inReset) (hp : t.pins = s.pins) : t.calm := by
  obtain ⟨a, b, c, d, e⟩ := h
  exact ⟨h1.trans a, by rw [seamHeld_congr s t .q h2 h3 h4 (ho .q)]; exact Nat.le_trans b hq,
    by rw [seamHeld_congr s t .k h2 h3 h4 (ho .k)]; exact Nat.le_trans c hk, by rw [hw, ha]; exact d, by rw [hn, hr, hp]; exact e⟩

end Sys2Proof.Machine
end

