-- ==== Sys2Proof/Laws/Present.lean ====
section
/-! SUPPORT. An agent's command that passes its checks runs its body at its unit, on the state as presented but for the rate token
taken, the events counted, and its response entry marked in flight. -/
namespace Sys2Proof.Machine

/-- A state with other rate tokens spent, another trace and other response entries. -/
abbrev State.beside (s : State) (sp : Table Nat) (tr : Trace) (en : Table Entry) : State :=
  { s with spent := sp, trace := tr, entries := en }

theorem takeToken_eq (s s1 : State) (w : Wing) (d : Nat) (h : s.takeToken w d = some s1) :
    ∃ sp, s1 = s.beside sp s.trace s.entries := by
  unfold State.takeToken at h
  dsimp only at h
  split at h
  · cases h; exact ⟨s.spent, rfl⟩
  · split at h
    · cases h
    · cases h; exact ⟨_, rfl⟩

/-- A trace as a command may leave it: SEAM_OCC's peaks no lower, ALIVE_OUT the same. -/
def Trace.follows (a b : Trace) : Prop := a.peakQ ≤ b.peakQ ∧ a.peakK ≤ b.peakK ∧ b.wave = a.wave

theorem Trace.follows_refl (a : Trace) : a.follows a := ⟨Nat.le_refl _, Nat.le_refl _, rfl⟩

theorem Trace.follows_trans {a b c : Trace} (h : a.follows b) (g : b.follows c) : a.follows c :=
  ⟨Nat.le_trans h.1 g.1, Nat.le_trans h.2.1 g.2.1, g.2.2.trans h.2.2⟩

theorem follows_setCalm (t : Trace) (w : Wing) (n : Nat) : t.follows (t.setCalm w n) := by
  cases w <;> exact ⟨Nat.le_refl _, Nat.le_refl _, rfl⟩

theorem follows_peak (t : Trace) (w : Wing) (n : Nat) : t.follows (t.peak w n) := by
  cases w
  · exact ⟨Nat.le_max_left _ _, Nat.le_refl _, rfl⟩
  · exact ⟨Nat.le_refl _, Nat.le_max_left _ _, rfl⟩

theorem perf_beside (s : State) (sp tr en) (n : Nat) :
    ∃ tr', tr.follows tr' ∧ (s.beside sp tr en).perf n = s.beside sp tr' en :=
  ⟨{ tr with pc := ((s.beside sp tr en).perf n).trace.pc }, ⟨Nat.le_refl _, Nat.le_refl _, rfl⟩, rfl⟩

theorem stir_beside (s : State) (sp tr en) (w : Wing) :
    ∃ tr', tr.follows tr' ∧ (s.beside sp tr en).stir w = s.beside sp tr' en := ⟨_, follows_setCalm tr w 0, rfl⟩

theorem crossing_beside (s : State) (sp tr en) (w : Wing) :
    ∃ tr', tr.follows tr' ∧ (s.beside sp tr en).crossing w = s.beside sp tr' en :=
  ⟨_, Trace.follows_trans (follows_peak tr w _) (follows_setCalm _ w 0), rfl⟩

/-- The command as it goes to its unit, merged into an earlier unit or not (R22). -/
def presHeld (x : Src) (op : Op) (w : CmdW) (m : Bool) : Held := { srcHeld x op w with merged := m }

theorem callerOf_src (s : State) (x : Src) (op : Op) (w : CmdW) (m : Bool) (sp tr en) :
    (s.beside sp tr en).callerOf (presHeld x op w m) = s.caller x op w := by
  obtain ⟨p, path, q, m2, z⟩ := x
  cases path <;> rfl

theorem mustFollow_pres (s : State) (x : Src) (op : Op) (w : CmdW) (m : Bool) (sp tr en) :
    (s.beside sp tr en).mustFollow (presHeld x op w m) = s.mustFollow (srcHeld x op w) := by
  obtain ⟨p, path, q, m2, z⟩ := x
  cases path <;> rfl

theorem siteOf_beside (s : State) (c : Ctx) (sp tr en) : (s.beside sp tr en).siteOf c = s.siteOf c := rfl

theorem keepResident_eq (s : State) (o : Nat) (r : Resident) (h : s.resident o = some r) (e : r.evicting = false) :
    s.keepResident o = s := by
  simp [State.keepResident, h, e]

theorem srcReq_ofAgent (x : Src) (op : Op) (w : CmdW) (m : Bool) : (presHeld x op w m).req.ofAgent = true := by
  obtain ⟨p, path, q, m2, z⟩ := x
  cases path <;> rfl

theorem srcHeld_op (x : Src) (op : Op) (w : CmdW) : (srcHeld x op w).op = op := by
  obtain ⟨p, path, q, m2, z⟩ := x
  cases path <;> rfl

theorem srcHeld_w (x : Src) (op : Op) (w : CmdW) : (srcHeld x op w).w = w := by
  obtain ⟨p, path, q, m2, z⟩ := x
  cases path <;> rfl

theorem srcHeld_mates (x : Src) (op : Op) (w : CmdW) : (srcHeld x op w).mates = x.mates := by
  obtain ⟨p, path, q, m2, z⟩ := x
  cases path <;> rfl

theorem readRows_none (s : State) (o : Nat) (r : Resident) (h : s.badRows o r = []) : s.readRows o r = s := by
  unfold State.readRows
  rw [h]
  rfl

theorem rewrite_none (s t : State) (o : Nat) (r : Resident) (h : s.badRows o r = []) : s.rewrite t o r = t := by
  unfold State.rewrite
  rw [h]

/-- From check 5 on, a command on an object runs its body. -/
theorem runObj_eq (s : State) (x : Src) (op : Op) (w : CmdW) (m late : Bool) (sp tr en)
    (hsvc : serviceOnly op = false ∨ s.domOf x.pos = 0) (hf : s.finds x op w)
    (hopen : (s.obj w.obj.toNat).isSome = true ∨ op = .open)
    (hwait : op = .wait → s.waitFormat (s.caller x op w) = none) :
    ∃ tr', tr.follows tr' ∧ (s.beside sp tr en).runObj (presHeld x op w m) (s.caller x op w) late true =
      (runBody (s.caller x op w) (s.beside sp tr' en)).2.finish (presHeld x op w m) late
        (runBody (s.caller x op w) (s.beside sp tr' en)).1 := by
  obtain ⟨hmay, hfc, ⟨r, hr, hev, hrow, hbad⟩, hops, hfree, _, hslot⟩ := hf
  obtain ⟨tr', hfo, htr⟩ : ∃ tr', tr.follows tr' ∧
      (if true && !(presHeld x op w m).merged then (s.beside sp tr en).perf 1 else s.beside sp tr en) = s.beside sp tr' en := by
    split
    · exact perf_beside s sp tr en 1
    · exact ⟨tr, Trace.follows_refl _, rfl⟩
  refine ⟨tr', hfo, ?_⟩
  unfold State.runObj
  dsimp only
  rw [htr]
  have hmates : (presHeld x op w m).mates = x.mates := srcHeld_mates x op w
  have hfull : (s.beside sp tr' en).opFull (presHeld x op w m) = false := by
    unfold State.opFull
    have h1 : (s.beside sp tr' en).opFreeWith (presHeld x op w m).mates.2 (wingOf (presHeld x op w m).w.obj.toNat) = true := by
      rw [hmates]
      show s.opFreeWith x.mates.2 (wingOf (srcHeld x op w).w.obj.toNat) = true
      rw [srcHeld_w]
      exact hfree
    rw [h1, Bool.not_true, Bool.and_false]
  have hobj : (s.caller x op w).obj = w.obj.toNat := rfl
  have h1 : (s.beside sp tr' en).mayUse (s.caller x op w).dom w.obj.toNat = true := hmay
  have h2 : (serviceOnly (s.caller x op w).op && (s.caller x op w).dom != 0) = false := by
    show (serviceOnly op && s.domOf x.pos != 0) = false
    rcases hsvc with h | h <;> simp [h]
  have h3 : (s.beside sp tr' en).fileContained w.obj.toNat = false := hfc
  have h4 : (s.beside sp tr' en).resident w.obj.toNat = some r := hr
  have h5 : (s.beside sp tr' en).keepResident w.obj.toNat = s.beside sp tr' en := keepResident_eq _ _ r h4 hev
  have hrow' : (s.beside sp tr' en).rowBusy w.obj.toNat r = false := hrow
  have hbad' : (s.beside sp tr' en).badRows w.obj.toNat r = [] := hbad
  simp only [hfull, hobj, h1, h2, h3, h4, hrow', Bool.not_true, Bool.false_eq_true, if_false]
  unfold State.runRead
  simp only [hobj, h5, readRows_none _ _ _ hbad', h3, rewrite_none _ _ _ _ hbad', Bool.false_eq_true, if_false]
  unfold State.runHere
  have h6 : (((s.beside sp tr' en).obj (s.caller x op w).obj).isNone && (s.caller x op w).op != Op.open) = false := by
    show ((s.obj w.obj.toNat).isNone && op != .open) = false
    rcases hopen with h | h
    · cases ho : s.obj w.obj.toNat <;> simp_all
    · simp [h]
  have h7 : (if (s.caller x op w).op = Op.wait then (s.beside sp tr' en).waitFormat (s.caller x op w) else none) = none := by
    split
    · rename_i h; exact hwait h
    · rfl
  have h8 : (if (s.caller x op w).op.waits = true then
      (s.beside sp tr' en).slotCheck (s.caller x op w).pos (s.caller x op w).w.slot.toNat
        (wingOf (s.caller x op w).obj) (s.caller x op w).dom else none) = none := by
    split
    · rename_i h; exact hslot h
    · rfl
  have h9 : (s.beside sp tr' en).opsOkWith (presHeld x op w m).mates.1 (wingOf (s.caller x op w).obj) (s.caller x op w).dom = true := by
    rw [hmates]
    exact hops
  simp only [h6, h7, h8, h9, srcReq_ofAgent, Bool.not_true, Bool.and_false, Bool.false_eq_true, if_false]

theorem calm_beside {s : State} (h : s.calm) (sp : Table Nat) {tr : Trace} (en : Table Entry) (hfo : s.trace.follows tr) :
    (s.beside sp tr en).calm :=
  calm_congr _ _ h rfl rfl rfl rfl (fun _ => rfl) hfo.1 hfo.2.1 (by rw [hfo.2.2]) rfl rfl rfl rfl

/-- At the seam, a command whose unit is at work goes on, its unit's wing stirred. -/
theorem cross_eq (s : State) (x : Src) (op : Op) (w : CmdW) (m late : Bool) (sp tr en) (hm : s.meets x op w) :
    ∃ tr', tr.follows tr' ∧
      (s.beside sp tr en).cross (presHeld x op w m) late true = (s.beside sp tr' en).runCmd (presHeld x op w m) late true := by
  unfold State.cross
  dsimp only
  rw [callerOf_src, siteOf_beside]
  unfold State.meets at hm
  cases hs : (s.siteOf (s.caller x op w)).wing with
  | none => exact ⟨tr, Trace.follows_refl _, rfl⟩
  | some v =>
    rw [hs] at hm
    simp only [Option.all_some, Bool.and_eq_true, Bool.or_eq_true, beq_iff_eq, Bool.not_eq_true'] at hm
    have h1 : (s.beside sp tr en).active v = true := hm.1
    have h2 : (v != (s.caller x op w).inw && (s.beside sp tr en).contained bSEAM) = false := by
      show (v != srcWing x && s.contained bSEAM) = false
      rcases hm.2 with h | h <;> simp [h]
    simp only [h1, h2, Bool.false_eq_true, if_false, if_true]
    split
    · obtain ⟨tr', hfo, htr⟩ := crossing_beside s sp tr en v
      exact ⟨tr', hfo, by rw [htr]⟩
    · exact ⟨tr, Trace.follows_refl _, rfl⟩

/-- At its unit, a command stirs the unit's wing and runs as one on an object or on none. -/
theorem runCmd_eq (s : State) (x : Src) (op : Op) (w : CmdW) (m late : Bool) (sp tr en)
    (hmf : s.mustFollow (srcHeld x op w) = false) :
    ∃ tr', tr.follows tr' ∧ (s.beside sp tr en).runCmd (presHeld x op w m) late true =
      if op.onObject then (s.beside sp tr' en).runObj (presHeld x op w m) (s.caller x op w) late true
      else (s.beside sp tr' en).runPlain (presHeld x op w m) (s.caller x op w) late true := by
  unfold State.runCmd
  dsimp only
  rw [callerOf_src, siteOf_beside]
  have hop : (s.caller x op w).op = op := rfl
  cases hs : (s.siteOf (s.caller x op w)).wing with
  | none =>
    refine ⟨tr, Trace.follows_refl _, ?_⟩
    simp only [mustFollow_pres, hmf, hop, Bool.false_eq_true, if_false]
  | some v =>
    obtain ⟨tr', hfo, htr⟩ := stir_beside s sp tr en v
    refine ⟨tr', hfo, ?_⟩
    simp only [htr, mustFollow_pres, hmf, hop, Bool.false_eq_true, if_false]

theorem joinUnits_beside (s : State) (h : Held) (ahead : Nat) (sp tr en) :
    ∃ m tr', tr.follows tr' ∧ (s.beside sp tr en).joinUnits h ahead = ({ h with merged := m }, s.beside sp tr' en) := by
  unfold State.joinUnits
  split
  · exact ⟨h.merged, tr, Trace.follows_refl _, rfl⟩
  · refine ⟨_, _, ?_, rfl⟩
    exact ⟨Nat.le_refl _, Nat.le_refl _, rfl⟩

theorem caughtBy_none (s : State) (h : Held) (hc : ∀ g ∈ s.held, ∀ b late, g.place ≠ .caught b late) : s.caughtBy h = none := by
  unfold State.caughtBy
  rw [List.findSome?_eq_none_iff]
  intro g hg
  split
  · split
    · rename_i b l hb; exact absurd hb (hc g hg b l)
    · rfl
  · rfl

theorem entryChecks_ok (s s1 : State) (h : Held) (c : Ctx) (a1 : (s.posEnt c.pos).enabled = true)
    (a2 : s.takeToken c.inw c.dom = some s1) (a3 : h.bad = false)
    (a4 : formatReason c.op c.w c.onWindow (s.identity c.pos) = none) : s.entryChecks h c = .ok s1 := by
  unfold State.entryChecks
  simp only [a1, a2, a3, a4, Bool.not_true, Bool.false_eq_true, if_false]

theorem behind_none (s : State) (h : Held) (hr : h.req.ofAgent = true)
    (hc : ∀ g ∈ s.held, g.req.ofAgent = true → g.place ≠ .aside ∧ ∀ u, g.place ≠ .window u) : s.behind h = false := by
  unfold State.behind
  rw [List.any_eq_false.mpr, Bool.and_false]
  intro g hg
  cases hp : g.place <;> try simp only [Bool.and_false, Bool.false_eq_true, not_false_eq_true]
  rename_i u
  cases hs : g.req.samePath h.req
  · simp [Held.keepsOrder, hs]
  · have ha : g.req.ofAgent = true := by
      revert hs hr
      cases g.req <;> cases h.req <;> simp [Req.samePath, Req.ofAgent]
    exact absurd hp ((hc g hg ha).2 u)

theorem retryFor_none (s : State) (h : Held)
    (hc : ∀ g ∈ s.held, g.req.ofAgent = true → g.place ≠ .aside ∧ ∀ u, g.place ≠ .window u) : s.retryFor h = s := by
  unfold State.retryFor
  dsimp only
  split
  · rw [List.filter_eq_nil_iff.mpr]
    · rfl
    · intro g hg
      cases ha : g.req.ofAgent
      · simp
      · simp [(hc g hg ha).1]
  · rfl

/-- The entries while a command of a source is in flight. -/
def flying (s : State) (x : Src) (w : CmdW) : Table Entry :=
  match x.path with
  | .slot _ => s.entries
  | .caught _ _ => s.entries
  | .win _ => tmod Entry.empty s.entries (srcEntry x w).key (fun e => { e with inFlight := true })

/-- A rate token is taken whatever else has changed. -/
theorem takeToken_beside (s : State) (w : Wing) (d : Nat) (tr en) (h : (s.takeToken w d).isSome = true) :
    ∃ sp, (s.beside s.spent tr en).takeToken w d = some (s.beside sp tr en) := by
  obtain ⟨s1, hs1⟩ := Option.isSome_iff_exists.mp h
  unfold State.takeToken at hs1 ⊢
  have hdom : (s.beside s.spent tr en).domain d = s.domain d := rfl
  rw [hdom]
  dsimp only at hs1 ⊢
  split
  · exact ⟨s.spent, rfl⟩
  · next h0 =>
    rw [if_neg h0] at hs1
    split
    · next h1 => rw [if_pos h1] at hs1; cases hs1
    · exact ⟨_, rfl⟩

/-- A command that passes checks 1 to 4 reaches the seam. -/
theorem present_eq (s : State) (x : Src) (op : Op) (w : CmdW) (ht : s.takes x op w) :
    ∃ m sp tr, s.trace.follows tr ∧
      s.present x op false w = (s.beside sp tr (flying s x w)).cross (presHeld x op w m) (s.lateFor x op w) true := by
  obtain ⟨⟨⟨_, ⟨hr, hres⟩, hp, hact, hstr, hpr⟩, hen, htok⟩, hfmt, hpath⟩ := ht
  obtain ⟨tr0, hfo0, htr0⟩ := stir_beside s s.spent s.trace s.entries (srcWing x)
  have hstir : s.stir (srcWing x) = s.beside s.spent tr0 s.entries := htr0
  unfold State.present
  rw [if_pos hstr, hstir]
  obtain ⟨p, path, q, mates, z⟩ := x
  cases path with
  | caught a b => exact hpath.elim
  | slot ahead =>
    have hp' : ¬ 768 ≤ p := Nat.not_le.mpr hp
    obtain ⟨sp, hs1⟩ := takeToken_beside s _ _ tr0 s.entries htok
    generalize hx : (⟨p, .slot ahead, q, mates, z⟩ : Src) = x at *
    have hc : (s.beside s.spent tr0 s.entries).callerOf (slotHeld p mates op false w) = s.caller x op w := by subst hx; rfl
    have hchk : (s.beside s.spent tr0 s.entries).entryChecks (slotHeld p mates op false w) (s.caller x op w) =
        .ok (s.beside sp tr0 s.entries) := by
      subst hx
      exact entryChecks_ok _ _ _ _ hen hs1 rfl hfmt
    have hadm : (s.beside sp tr0 s.entries).admission (s.caller x op w) ahead false = none := by subst hx; exact hpath
    have hl : (false || !(s.beside sp tr0 s.entries).prompt ((s.beside sp tr0 s.entries).siteOf (s.caller x op w))) =
      s.lateFor x op w := by subst hx; rfl
    unfold State.presentSlot
    have b1 : (s.beside s.spent tr0 s.entries).active (posWing p) = true := by subst hx; exact hact
    have hr' : (s.beside s.spent tr0 s.entries).ready = true := hr
    have hres' : (s.beside s.spent tr0 s.entries).inReset = false := hres
    have hpath' : x.path = .slot ahead := by subst hx; rfl
    have hpos : x.pos = p := by subst hx; rfl
    have hmates : x.mates = mates := by subst hx; rfl
    simp only [hpath', hpos, hmates, hres', hp', hr', b1, Bool.not_true, Bool.or_self, Bool.false_eq_true, if_false, if_true]
    unfold State.decode
    simp only [hc, hchk, hadm, hl]
    obtain ⟨tr, hfo, htr⟩ : ∃ tr, tr0.follows tr ∧
        (if (s.lateFor x op w && (s.beside sp tr0 s.entries).siteOf (s.caller x op w) != .port) = true then
          (s.beside sp tr0 s.entries).perf 3 else s.beside sp tr0 s.entries) = s.beside sp tr s.entries := by
      split
      · exact perf_beside s sp tr0 s.entries 3
      · exact ⟨_, Trace.follows_refl _, rfl⟩
    obtain ⟨m, tr', hfo', hj⟩ := joinUnits_beside s (slotHeld p mates op false w) ahead sp tr s.entries
    refine ⟨m, sp, tr', Trace.follows_trans hfo0 (Trace.follows_trans hfo hfo'), ?_⟩
    rw [htr, hj]
    have hcb : (s.beside sp tr' s.entries).caughtBy (slotHeld p mates op false w) = none :=
      caughtBy_none _ _ (by subst hx; exact hpr)
    simp only [hcb, Option.or_none, ite_self]
    subst hx
    rfl
  | win v =>
    obtain ⟨hn, hstuck⟩ := hpath
    obtain ⟨hing, ⟨_, hfl, _, _⟩, hheld⟩ := hpr
    have hp' : ¬ 768 ≤ p := Nat.not_le.mpr hp
    let h : Held := winHeld v p mates op false w
    let y : EntryId := { win := v, pos := p, t := w.tag.toNat % 4 }
    let c : Ctx := s.caller ⟨p, .win v, q, mates, z⟩ op w
    let en : Table Entry := flying s ⟨p, .win v, q, mates, z⟩ w
    let s0 : State := s.beside s.spent tr0 s.entries
    have hc : s0.callerOf h = c := rfl
    obtain ⟨sp, hsp⟩ := takeToken_beside s _ _ tr0 en htok
    obtain ⟨m, tr', hfo', hj⟩ := joinUnits_beside s h q sp tr0 en
    refine ⟨m, sp, tr', Trace.follows_trans hfo0 hfo', ?_⟩
    have b1 : s0.active v = true := hact
    have hr' : s0.ready = true := hr
    have hres' : s0.inReset = false := hres
    have hing' : s0.contained (bING v) = false := hing
    have b2 : s0.retryFor h = s0 := retryFor_none s0 h hheld
    show s0.presentWin v p q mates op false w = _
    unfold State.presentWin
    simp only [hres', hp', hr', b1, hing', Bool.not_true, Bool.or_self, Bool.false_eq_true, if_false]
    show (s0.retryFor h).takeWin h y q = _
    rw [b2]
    unfold State.takeWin
    have b3 : s0.windowStuck c = false := hstuck
    have b4 : s0.behind h = false := behind_none s0 h rfl hheld
    have b5 : s0.entryBusy h y = false := hfl
    have b6 : h.mute = false := rfl
    have b7 : (s0.modEntry y (fun z => { z with inFlight := true })).entryChecks h c = .ok (s.beside sp tr0 en) :=
      entryChecks_ok _ _ _ _ hen hsp rfl hfmt
    have b8 : (s.beside sp tr0 en).bindNotify c y false = .ok (s.beside sp tr0 en) := by
      unfold State.bindNotify
      have : c.w.notify = false := hn
      simp only [this, Bool.not_false, if_true]
    simp only [hc, b3, b4, b5, b6, Bool.or_false, Bool.false_eq_true, if_false]
    rw [b7]
    simp only [b8]
    rw [hj]
    rfl

/-- A command on an object that is accepted and finds its record runs its body and answers. -/
theorem give_object (s : State) (x : Src) (op : Op) (w : CmdW) (hob : op.onObject = true)
    (hsvc : serviceOnly op = false ∨ s.domOf x.pos = 0) (ht : s.takes x op w) (hm : s.meets x op w) (hf : s.finds x op w)
    (hopen : (s.obj w.obj.toNat).isSome = true ∨ op = .open)
    (hwait : op = .wait → s.waitFormat (s.caller x op w) = none) :
    ∃ m sp tr, s.trace.follows tr ∧
      s.give x op false w = ((runBody (s.caller x op w) (s.beside sp tr (flying s x w))).2.finish (presHeld x op w m)
        (s.lateFor x op w) (runBody (s.caller x op w) (s.beside sp tr (flying s x w))).1).settle := by
  obtain ⟨m, sp, tr, hfo, hpr⟩ := present_eq s x op w ht
  obtain ⟨tr1, hfo1, hcr⟩ := cross_eq s x op w m (s.lateFor x op w) sp tr (flying s x w) hm
  obtain ⟨tr2, hfo2, hrc⟩ := runCmd_eq s x op w m (s.lateFor x op w) sp tr1 (flying s x w) hf.2.2.2.2.2.1
  obtain ⟨tr3, hfo3, hro⟩ := runObj_eq s x op w m (s.lateFor x op w) sp tr2 (flying s x w) hsvc hf hopen hwait
  refine ⟨m, sp, tr3, Trace.follows_trans hfo (Trace.follows_trans hfo1 (Trace.follows_trans hfo2 hfo3)), ?_⟩
  unfold State.give
  rw [hpr, hcr, hrc, if_pos hob, hro]

/-! ### Answering -/

/-- An answer other than REFUSED_STATE changes the lanes and the entries alone. -/
theorem finish_eq (s u : State) (x : Src) (op : Op) (w : CmdW) (m : Bool) (st : Status) (v : BitVec 51) (hst : st ≠ .refusedState)
    (ht : s.takes x op w) (hl : u.lanes = s.lanes) (he : u.entries = flying s x w) :
    ∃ ln en, u.finish (presHeld x op w m) (s.lateFor x op w) (.ans st v) = { u with lanes := ln, entries := en } ∧
      s.answered { u with lanes := ln, entries := en } x op w st v := by
  obtain ⟨p, path, q0, mates, z0⟩ := x
  cases path with
  | caught a b => exact ht.2.2.elim
  | slot ahead =>
    generalize hx : (⟨p, .slot ahead, q0, mates, z0⟩ : Src) = x at *
    have hpath : x.path = .slot ahead := by subst hx; rfl
    have hpos : x.pos = p := by subst hx; rfl
    have hreq : (presHeld x op w m).req = .slot p := by subst hx; rfl
    have hmute : (presHeld x op w m).mute = false := by subst hx; rfl
    have hcaught : (presHeld x op w m).isCaught = false := by subst hx; rfl
    have htag : (presHeld x op w m).w.tag = w.tag := by subst hx; rfl
    have hlane (q : Nat) : u.lane q = s.lane q := by unfold State.lane; rw [hl]
    have hent (y : EntryId) : u.entry y = s.entry y := by
      unfold State.entry; rw [he]; subst hx; rfl
    have hmv : (presHeld x op w m).moves = (srcHeld x op w).moves := rfl
    unfold State.finish State.endStaged State.answer State.toLaneL State.deliver State.answered State.answeredAs
    simp only [hreq, hmute, hcaught, htag, hst, hpath, hpos, hmv, Bool.false_and, Bool.false_eq_true, if_false]
    cases hlate : s.lateFor x op w
    · refine ⟨_, u.entries, rfl, ?_, ?_, hent⟩
      · simp only [Bool.false_eq_true, if_false, State.lane, tget_tmod, if_true]
        rw [hl]
      · intro q hq
        simp only [if_false, State.lane, tget_tmod, hq]
        rw [hl]
    · refine ⟨_, u.entries, rfl, ?_, ?_, hent⟩
      · simp only [if_true, State.lane, tget_tmod]
        rw [hl]
      · intro q hq
        simp only [State.lane, tget_tmod, hq, if_false]
        rw [hl]
  | win v' =>
    obtain ⟨⟨⟨_, _, _, _, _, hpr⟩, _, _⟩, _, _⟩ := ht
    obtain ⟨_, ⟨hd, _, hsl, hf2⟩, _⟩ := hpr
    generalize hx : (⟨p, .win v', q0, mates, z0⟩ : Src) = x at *
    have hpath : x.path = .win v' := by subst hx; rfl
    have hreq : (presHeld x op w m).req = .win (srcEntry x w) := by subst hx; rfl
    have hmute : (presHeld x op w m).mute = false := by subst hx; rfl
    have htag : (presHeld x op w m).w.tag = w.tag := by subst hx; rfl
    have hfly : flying s x w = tmod Entry.empty s.entries (srcEntry x w).key (fun y => { y with inFlight := true }) := by
      subst hx; rfl
    rw [hfly] at he
    generalize hy : srcEntry x w = y at *
    have hen : u.entry y = { s.entry y with inFlight := true } := by
      unfold State.entry
      rw [he]
      simp only [tget_tmod, if_true]
    unfold State.finish State.endStaged State.answer State.deliver State.writeEntry State.answered State.answeredAs
    simp only [hreq, hmute, htag, hst, hpath, hen, hd, hsl, hf2, hy, State.unlink, Bool.false_and, Bool.false_eq_true, if_false]
    refine ⟨u.lanes, _, rfl, ?_, ?_, ?_⟩
    · have hue : tget Entry.empty u.entries y.key = { s.entry y with inFlight := true } := hen
      generalize hz : s.entry y = z at *
      simp only [State.entry, tget_tmod, if_true]
      rw [hue]
      obtain ⟨a, b, c, d, f, g⟩ := z
      simp_all
    · intro z hz
      simp only [State.entry, tget_tmod, hz, if_false]
      rw [he]
      simp only [tget_tmod, hz, if_false]
    · intro q
      show tget Lanes.empty u.lanes q = _
      rw [hl]; rfl

/-- A command whose body answers, leaves no work, and touches neither lanes nor entries: the step ends with the answer in
place. -/
theorem give_ans (s : State) (x : Src) (op : Op) (w : CmdW) (hob : op.onObject = true)
    (hsvc : serviceOnly op = false ∨ s.domOf x.pos = 0) (ht : s.takes x op w) (hm : s.meets x op w) (hf : s.finds x op w)
    (hopen : (s.obj w.obj.toNat).isSome = true ∨ op = .open)
    (hwait : op = .wait → s.waitFormat (s.caller x op w) = none)
    (st : Status) (v : BitVec 51) (hst : st ≠ .refusedState) (b : Table Nat → Trace → Table Entry → State)
    (hb : ∀ sp tr en, runBody (s.caller x op w) (s.beside sp tr en) = (.ans st v, b sp tr en))
    (hl : ∀ sp tr en, (b sp tr en).lanes = s.lanes) (he : ∀ sp tr en, (b sp tr en).entries = en)
    (hc : ∀ sp tr en, s.trace.follows tr → (b sp tr en).calm) :
    ∃ sp tr en0 ln en, s.trace.follows tr ∧ s.give x op false w = { b sp tr en0 with lanes := ln, entries := en } ∧
      s.answered { b sp tr en0 with lanes := ln, entries := en } x op w st v := by
  obtain ⟨m, sp, tr, hfo, hg⟩ := give_object s x op w hob hsvc ht hm hf hopen hwait
  rw [hb] at hg
  obtain ⟨ln, en, hfin, hans⟩ := finish_eq s (b sp tr (flying s x w)) x op w m st v hst ht (hl _ _ _) (he _ _ _)
  refine ⟨sp, tr, flying s x w, ln, en, hfo, ?_, hans⟩
  rw [hg]
  dsimp only
  rw [hfin]
  exact settle_of_calm _ (calm_congr _ _ (hc sp tr (flying s x w) hfo) rfl rfl rfl rfl (fun _ => rfl) (Nat.le_refl _)
    (Nat.le_refl _) rfl rfl rfl rfl rfl)

theorem regSite_no_pipe (off f p : Nat) : regSite off ≠ .pipe f p := by
  unfold regSite
  repeat' split
  all_goals exact fun h => by cases h

/-- A POLL or CANCEL_WAIT whose record reads without error, and every other command on no object, changes nothing but the trace before
its body. -/
theorem slotUnit_eq (s : State) (x : Src) (op : Op) (w : CmdW) (sp tr en) (hob : op.onObject = false)
    (hb : op = .poll ∨ op = .cancelWait → ∀ o r, (s.slot x.pos w.slot.toNat).bind SlotRec.obj = some o → s.resident o = some r →
      s.badRows o r = []) :
    ∃ tr', tr.follows tr' ∧ (s.beside sp tr en).slotUnit (s.caller x op w) true = s.beside sp tr' en := by
  unfold State.slotUnit
  split
  · next f p o hs ho =>
    obtain ⟨tr', hfo, htr⟩ := perf_beside s sp tr en 1
    refine ⟨tr', hfo, ?_⟩
    simp only [if_true]
    rw [htr]
    have hop : op = .poll ∨ op = .cancelWait := by
      rw [siteOf_beside] at hs
      have hnr := regSite_no_pipe (s.caller x op w).w.arg.toNat f p
      cases op <;> first
        | exact Or.inl rfl
        | exact Or.inr rfl
        | exact absurd hob (by decide)
        | exact absurd hs hnr
        | exact absurd (show Site.port = .pipe f p from hs) (by simp)
        | exact absurd (show Site.tcu = .pipe f p from hs) (by simp)
        | exact absurd (show Site.seam = .pipe f p from hs) (by simp)
        | exact absurd (show Site.regs _ = .pipe f p from hs) (by simp)
    have hr := hb hop o
    split
    · next r hres => exact readRows_none _ _ _ (hr r ho hres)
    · rfl
  · exact ⟨tr, Trace.follows_refl _, rfl⟩

/-- A command on no object that is accepted runs its body and answers. -/
theorem give_plain (s : State) (x : Src) (op : Op) (w : CmdW) (hob : op.onObject = false) (hh : s.heard x op w)
    (hmf : s.mustFollow (srcHeld x op w) = false) :
    ∃ m sp tr, s.trace.follows tr ∧
      s.give x op false w = ((runBody (s.caller x op w) (s.beside sp tr (flying s x w))).2.finish (presHeld x op w m)
        (s.lateFor x op w) (runBody (s.caller x op w) (s.beside sp tr (flying s x w))).1).settle := by
  obtain ⟨ht, hm, hsvc, hbad, hslot⟩ := hh
  obtain ⟨m, sp, tr, hfo, hpr⟩ := present_eq s x op w ht
  obtain ⟨tr1, hfo1, hcr⟩ := cross_eq s x op w m (s.lateFor x op w) sp tr (flying s x w) hm
  obtain ⟨tr2, hfo2, hrc⟩ := runCmd_eq s x op w m (s.lateFor x op w) sp tr1 (flying s x w) hmf
  obtain ⟨tr3, hfo3, hsu⟩ := slotUnit_eq s x op w sp tr2 (flying s x w) hob hbad
  refine ⟨m, sp, tr3, Trace.follows_trans hfo (Trace.follows_trans hfo1 (Trace.follows_trans hfo2 hfo3)), ?_⟩
  unfold State.give
  rw [hpr, hcr, hrc, hob]
  simp only [Bool.false_eq_true, if_false]
  unfold State.runPlain
  have h2 : (serviceOnly (s.caller x op w).op && (s.caller x op w).dom != 0) = false := by
    show (serviceOnly op && s.domOf x.pos != 0) = false
    rcases hsvc with h | h <;> simp [h]
  have h8 : (if (s.caller x op w).op.waits = true then
      (s.beside sp tr3 (flying s x w)).slotCheck (s.caller x op w).pos (s.caller x op w).w.slot.toNat
        (posWing (s.caller x op w).pos) (s.caller x op w).dom else none) = none := by
    split
    · rename_i h; exact hslot h
    · rfl
  simp only [hsu, h2, h8, Bool.false_eq_true, if_false]

/-- No command of an agent follows one on no object. -/
theorem mustFollow_plain (s : State) (x : Src) (op : Op) (w : CmdW) (hob : op.onObject = false) :
    s.mustFollow (srcHeld x op w) = false := by
  unfold State.mustFollow
  rw [List.any_eq_false.mpr]
  intro g _
  simp [Held.keepsOrder, srcHeld_op, hob]

/-- As `give_ans`, for a command on no object. -/
theorem give_plain_ans (s : State) (x : Src) (op : Op) (w : CmdW) (hob : op.onObject = false) (hh : s.heard x op w)
    (st : Status) (v : BitVec 51) (hst : st ≠ .refusedState) (b : Table Nat → Trace → Table Entry → State)
    (hb : ∀ sp tr en, runBody (s.caller x op w) (s.beside sp tr en) = (.ans st v, b sp tr en))
    (hl : ∀ sp tr en, (b sp tr en).lanes = s.lanes) (he : ∀ sp tr en, (b sp tr en).entries = en)
    (hc : ∀ sp tr en, s.trace.follows tr → (b sp tr en).calm) :
    ∃ sp tr en0 ln en, s.trace.follows tr ∧ s.give x op false w = { b sp tr en0 with lanes := ln, entries := en } ∧
      s.answered { b sp tr en0 with lanes := ln, entries := en } x op w st v := by
  obtain ⟨m, sp, tr, hfo, hg⟩ := give_plain s x op w hob hh (mustFollow_plain s x op w hob)
  rw [hb] at hg
  obtain ⟨ln, en, hfin, hans⟩ := finish_eq s (b sp tr (flying s x w)) x op w m st v hst hh.1 (hl _ _ _) (he _ _ _)
  refine ⟨sp, tr, flying s x w, ln, en, hfo, ?_, hans⟩
  rw [hg]
  dsimp only
  rw [hfin]
  exact settle_of_calm _ (calm_congr _ _ (hc sp tr (flying s x w) hfo) rfl rfl rfl rfl (fun _ => rfl) (Nat.le_refl _)
    (Nat.le_refl _) rfl rfl rfl rfl rfl)

end Sys2Proof.Machine
end

