-- ==== Sys2Proof/Laws/Complete.lean ====
section
/-! SUPPORT. Completing slots: which slots become READY with what, and that only slots, uses and the wings' wake builders change. -/
namespace Sys2Proof.Machine

/-- Fold of a relation over `each`. -/
theorem each_rel {α σ : Type} (R : σ → σ → Prop) (refl : ∀ s, R s s) (trans : ∀ a b c, R a b → R b c → R a c)
    (f : α → σ → σ) (h : ∀ a s, R s (f a s)) (l : List α) (s : σ) : R s (each f l s) := by
  induction l generalizing s with
  | nil => exact refl s
  | cons a l ih => exact trans _ _ _ (h a s) (ih (f a s))

/-- Only slots, uses and what slots change of the wings' own state differ. -/
def Wakes (s t : State) : Prop :=
  (∃ a b c d, t = { s with slots := a, use := b, wq := c, wk := d }) ∧ s.wq.woken t.wq ∧ s.wk.woken t.wk

theorem woken_refl (a : WingSt) : a.woken a := rfl

theorem woken_trans {a b c : WingSt} (h : a.woken b) (k : b.woken c) : a.woken c := by
  unfold WingSt.woken at *
  rw [k, h]

theorem Wakes.refl (s : State) : Wakes s s := ⟨⟨s.slots, s.use, s.wq, s.wk, rfl⟩, rfl, rfl⟩

theorem Wakes.trans {s t u : State} (h : Wakes s t) (k : Wakes t u) : Wakes s u := by
  obtain ⟨⟨a, b, c, d, rfl⟩, h1, h2⟩ := h
  obtain ⟨⟨a', b', c', d', rfl⟩, k1, k2⟩ := k
  exact ⟨⟨a', b', c', d', rfl⟩, woken_trans h1 k1, woken_trans h2 k2⟩

theorem woken_pwr {a b : WingSt} (h : a.woken b) : b.pwr = a.pwr := by
  unfold WingSt.woken at h
  rw [h]

/-- Where the wings' power states and the blocks stay, a wing is open at the seam as before. -/
theorem seamOpen_woken {s t : State} (hb : t.blks = s.blks) (hq : s.wq.woken t.wq) (hk : s.wk.woken t.wk) (w : Wing) :
    t.seamOpen w = s.seamOpen w := by
  have w1 := woken_pwr hq
  have w2 := woken_pwr hk
  cases w
  · simp only [State.seamOpen, State.active, State.pwr, State.wing, State.contained, State.blk, hb, w1]
  · simp only [State.seamOpen, State.active, State.pwr, State.wing, State.contained, State.blk, hb, w2]

/-- A calm state stays calm where slots change the wings' own state and nothing comes to the seam. -/
theorem calm_woken {s t : State} (c : s.calm) (h1 : t.todo = s.todo) (h2 : t.held = s.held) (h3 : t.seam = s.seam)
    (h4 : t.dirLag = s.dirLag) (h5 : t.blks = s.blks) (h6 : t.iml = s.iml) (h7 : t.tap = s.tap) (h8 : t.now = s.now)
    (h9 : t.pins = s.pins) (ht : s.trace.follows t.trace) (hq : s.wq.woken t.wq) (hk : s.wk.woken t.wk) : t.calm := by
  have hr : t.inReset = s.inReset := by simp only [State.inReset, h6, h7]
  have ha : t.aliveRuns = s.aliveRuns := by simp only [State.aliveRuns, hr, State.ready, h6, State.contained, State.blk, h5]
  exact calm_congr _ _ c h1 h2 h3 h4 (seamOpen_woken h5 hq hk) ht.1 ht.2.1 (by rw [ht.2.2]) ha h8 hr h9

theorem Wakes.calm {s t : State} (h : Wakes s t) (c : s.calm) : t.calm := by
  obtain ⟨⟨a, b, c', d, rfl⟩, h1, h2⟩ := h
  exact calm_woken c rfl rfl rfl rfl rfl rfl rfl rfl rfl (Trace.follows_refl _) h1 h2

/-- A change of what slots change in a wing's state. -/
theorem Wakes.modWing (s : State) (w : Wing) (f : WingSt → WingSt) (h : ∀ x, WingSt.woken x (f x)) : Wakes s (s.modWing w f) := by
  cases w
  · exact ⟨⟨s.slots, s.use, f s.wq, s.wk, rfl⟩, h _, rfl⟩
  · exact ⟨⟨s.slots, s.use, s.wq, f s.wk, rfl⟩, rfl, h _⟩

theorem Wakes.modUse (s : State) (w : Wing) (d : Nat) (f : Use → Use) : Wakes s (s.modUse w d f) :=
  ⟨⟨s.slots, _, s.wq, s.wk, rfl⟩, rfl, rfl⟩

theorem Wakes.setSlot (s : State) (p i : Nat) (r : Option SlotRec) : Wakes s (s.setSlot p i r) :=
  ⟨⟨_, s.use, s.wq, s.wk, rfl⟩, rfl, rfl⟩

theorem Wakes.dropOp (s : State) (w : Wing) (d : Nat) : Wakes s (s.dropOp w d) :=
  (Wakes.modUse s w d _).trans (Wakes.modWing _ w _ (fun _ => rfl))

theorem Wakes.takeOp (s : State) (w : Wing) (d : Nat) : Wakes s (s.takeOp w d) :=
  (Wakes.modUse s w d _).trans (Wakes.modWing _ w _ (fun _ => rfl))

theorem Wakes.beat (s : State) (w : Wing) (k : Nat) (t : BeatType) (i : Nat) (m : BitVec 48) : Wakes s (s.beat w k t i m) := by
  unfold State.beat
  split
  · exact Wakes.refl s
  · exact Wakes.modWing _ _ _ (fun _ => rfl)

theorem Wakes.setBeats (s : State) (w : Wing) (l : List (Nat × Nat)) : Wakes s (s.setBeats w l) := by
  unfold State.setBeats
  refine each_rel Wakes Wakes.refl (fun _ _ _ => Wakes.trans) _ ?_ _ _
  intro i s
  dsimp only
  split
  · exact Wakes.refl s
  · refine each_rel Wakes Wakes.refl (fun _ _ _ => Wakes.trans) _ ?_ _ _
    intro k s
    split
    · exact Wakes.refl s
    · exact Wakes.beat ..

theorem Wakes.announce (s : State) (w : Wing) (l : List (Nat × Nat)) : Wakes s (s.announce w l) := by
  unfold State.announce
  split
  · refine Wakes.trans ?_ (Wakes.setBeats ..)
    exact Wakes.modWing _ _ _ (fun _ => rfl)
  · split
    · exact Wakes.setBeats ..
    · exact Wakes.modWing _ _ _ (fun _ => rfl)

theorem Wakes.finishSlot (s : State) (p i : Nat) (st : Status) (v : BitVec 51) : Wakes s (s.finishSlot p i st v) := by
  unfold State.finishSlot
  split
  · split
    · exact Wakes.refl s
    · dsimp only
      split
      · exact Wakes.setSlot ..
      · exact (Wakes.setSlot ..).trans (Wakes.dropOp ..)
  · exact Wakes.refl s

/-- Completing slots changes slots, uses and the wake builders alone. -/
theorem Wakes.completeAll (s : State) (w : Wing) (l : List (Nat × Nat × Status × BitVec 51)) : Wakes s (s.completeAll w l) := by
  unfold State.completeAll
  refine Wakes.trans ?_ (Wakes.announce ..)
  exact each_rel Wakes Wakes.refl (fun _ _ _ => Wakes.trans) _ (fun x s => Wakes.finishSlot ..) _ _

theorem Wakes.complete (s : State) (w : Wing) (p i : Nat) (st : Status) (v : BitVec 51) : Wakes s (s.complete w p i st v) :=
  (Wakes.finishSlot ..).trans (Wakes.announce ..)

/-! ### The slots -/

theorem beat_slots (s : State) (w : Wing) (k : Nat) (t : BeatType) (i : Nat) (m : BitVec 48) : (s.beat w k t i m).slots = s.slots := by
  simp

theorem setBeats_slots (s : State) (w : Wing) (l : List (Nat × Nat)) : (s.setBeats w l).slots = s.slots := by
  unfold State.setBeats
  refine each_rel (fun (s t : State) => t.slots = s.slots) (fun _ => rfl) (fun _ _ _ h k => Eq.trans k h) _ ?_ _ _
  intro i s
  dsimp only
  split
  · rfl
  · refine each_rel (fun (s t : State) => t.slots = s.slots) (fun _ => rfl) (fun _ _ _ h k => Eq.trans k h) _ ?_ _ _
    intro k s
    split <;> simp

theorem announce_slots (s : State) (w : Wing) (l : List (Nat × Nat)) : (s.announce w l).slots = s.slots := by
  unfold State.announce
  split
  · rw [setBeats_slots]; simp
  · split
    · exact setBeats_slots ..
    · simp

theorem finishSlot_slot (s : State) (p i q j : Nat) (st : Status) (v : BitVec 51) :
    (s.finishSlot p i st v).slot q j =
      if 8 * q + j = 8 * p + i then (s.slot p i).map (fun r => if r.ready.isSome then r else { r with ready := some (st, v) })
      else s.slot q j := by
  have key : 8 * q + j = 8 * p + i → s.slot q j = s.slot p i := by
    intro h; unfold State.slot; rw [h]
  unfold State.finishSlot
  cases h : s.slot p i with
  | none =>
    dsimp only
    split
    · rename_i e; rw [key e, h]; rfl
    · rfl
  | some r =>
    dsimp only
    cases hr : r.ready with
    | some y =>
      dsimp only
      split
      · rename_i e; rw [key e, h]; simp [hr]
      · rfl
    | none =>
      dsimp only
      cases he : r.entry <;>
      · dsimp only
        simp only [State.slot, State.setSlot, State.dropOp_slots, tget_tset]
        split
        · simp [hr, he]
        · rfl

/-- The slots after a list of completions: those of the list that were waiting are READY, every other slot is as it was. -/
theorem finishAll_slot (l : List (Nat × Nat × Status × BitVec 51)) (s : State) (q j : Nat)
    (hn : (l.map (fun x => 8 * x.1 + x.2.1)).Nodup) :
    (each (fun x s => State.finishSlot s x.1 x.2.1 x.2.2.1 x.2.2.2) l s).slot q j =
      match l.find? (fun x => 8 * x.1 + x.2.1 == 8 * q + j) with
      | some x => (s.slot q j).map (fun r => if r.ready.isSome then r else { r with ready := some (x.2.2.1, x.2.2.2) })
      | none => s.slot q j := by
  induction l generalizing s with
  | nil => rfl
  | cons a l ih =>
    simp only [List.map_cons, List.nodup_cons] at hn
    unfold each
    rw [ih _ hn.2]
    by_cases h : 8 * a.1 + a.2.1 = 8 * q + j
    · have hnone : l.find? (fun x => 8 * x.1 + x.2.1 == 8 * q + j) = none := by
        rw [List.find?_eq_none]
        intro y hy
        simp only [beq_iff_eq]
        intro e
        exact hn.1 (List.mem_map.mpr ⟨y, hy, e.trans h.symm⟩)
      have hq : s.slot a.1 a.2.1 = s.slot q j := by unfold State.slot; rw [h]
      rw [hnone, List.find?_cons_of_pos (by simp [h]), finishSlot_slot, if_pos h.symm, hq]
    · rw [List.find?_cons_of_neg (by simp [h])]
      rw [finishSlot_slot, if_neg (Ne.symm h)]

theorem completeAll_slot (l : List (Nat × Nat × Status × BitVec 51)) (s : State) (w : Wing) (q j : Nat)
    (hn : (l.map (fun x => 8 * x.1 + x.2.1)).Nodup) :
    (s.completeAll w l).slot q j =
      match l.find? (fun x => 8 * x.1 + x.2.1 == 8 * q + j) with
      | some x => (s.slot q j).map (fun r => if r.ready.isSome then r else { r with ready := some (x.2.2.1, x.2.2.2) })
      | none => s.slot q j := by
  rw [← finishAll_slot l s q j hn]
  unfold State.completeAll
  simp only [State.slot, announce_slots]

end Sys2Proof.Machine
end

