-- ==== Sys2Proof/Laws/Agents.lean ====
section
/-! SUPPORT. What an agent's command on an object leaves, by the shape of its body: an answer alone, one body changed, a slot bound, or
waiters completed. -/
namespace Sys2Proof.Machine

theorem pick {P : Table Nat → Trace → Table Entry → State → Prop} (h : ∀ sp tr en, ∃ b, P sp tr en b) :
    ∃ f : Table Nat → Trace → Table Entry → State, ∀ sp tr en, P sp tr en (f sp tr en) :=
  ⟨fun sp tr en => Classical.choose (h sp tr en), fun sp tr en => Classical.choose_spec (h sp tr en)⟩

theorem modObj_obj (s : State) (n : Nat) (f : Obj → Obj) (o : Obj) (h : s.obj n = some o) : (s.modObj n f).obj n = some (f o) := by
  unfold State.obj State.resident State.modObj at *
  simp only [tget_tmod, if_true]
  cases hr : tget none s.recs n with
  | none => simp [hr] at h
  | some r => simp [hr] at h; simp [h]

theorem modObj_other (s : State) (n m : Nat) (f : Obj → Obj) (h : m ≠ n) : (s.modObj n f).resident m = s.resident m := by
  unfold State.resident State.modObj
  simp only [tget_tmod, h, if_false]

theorem setBody_puts (s : State) (n : Nat) (b : Body) (o : Obj) (h : s.obj n = some o) :
    s.puts (s.setBody n b) n (some { o with body := b }) :=
  ⟨modObj_obj s n _ o h, fun m hm => modObj_other s n m _ hm⟩

/-- A command whose body answers and changes the body of its object alone. -/
theorem give_body (s : State) (x : Src) (op : Op) (w : CmdW) (hob : op.onObject = true)
    (hsvc : serviceOnly op = false) (h : s.reaches x op w) (o : Obj) (ho : s.obj w.obj.toNat = some o)
    (hwait : op = .wait → s.waitFormat (s.caller x op w) = none)
    (st : Status) (v : BitVec 51) (hst : st ≠ .refusedState) (B : Body)
    (hb : ∀ sp tr en, runBody (s.caller x op w) (s.beside sp tr en) = (.ans st v, (s.beside sp tr en).setBody w.obj.toNat B)) :
    ∃ t, s.give x op false w = t ∧ s.answered t x op w st v ∧ s.changed t w.obj.toNat (some { o with body := B }) := by
  obtain ⟨ht, hm, hf⟩ := h
  obtain ⟨sp, tr, en0, ln, en, _, hg, ha⟩ := give_ans s x op w hob (.inl hsvc) ht hm hf (.inl (by simp [ho])) hwait st v hst
    (fun sp tr en => (s.beside sp tr en).setBody w.obj.toNat B) hb (fun _ _ _ => rfl) (fun _ _ _ => rfl)
    (fun sp tr en hfo => calm_congr _ _ (calm_beside ht.1.1.1 sp en hfo) rfl rfl rfl rfl (fun _ => rfl) (Nat.le_refl _) (Nat.le_refl _)
      rfl rfl rfl rfl rfl)
  refine ⟨_, rfl, ?_, ?_⟩
  · rw [hg]; exact ha
  · rw [hg]
    exact ⟨setBody_puts s _ B o ho, rfl⟩

/-- A command whose body answers and changes nothing. -/
theorem give_only (s : State) (x : Src) (op : Op) (w : CmdW) (hob : op.onObject = true)
    (hsvc : serviceOnly op = false) (h : s.reaches x op w) (o : Obj) (ho : s.obj w.obj.toNat = some o)
    (hwait : op = .wait → s.waitFormat (s.caller x op w) = none)
    (st : Status) (v : BitVec 51) (hst : st ≠ .refusedState)
    (hb : ∀ sp tr en, runBody (s.caller x op w) (s.beside sp tr en) = (.ans st v, s.beside sp tr en)) :
    ∃ t, s.give x op false w = t ∧ s.answered t x op w st v ∧ s.answersOnly t := by
  obtain ⟨ht, hm, hf⟩ := h
  obtain ⟨sp, tr, en0, ln, en, _, hg, ha⟩ := give_ans s x op w hob (.inl hsvc) ht hm hf (.inl (by simp [ho])) hwait st v hst
    (fun sp tr en => s.beside sp tr en) hb (fun _ _ _ => rfl) (fun _ _ _ => rfl)
    (fun sp tr en hfo => calm_beside ht.1.1.1 sp en hfo)
  refine ⟨_, rfl, ?_, ?_⟩
  · rw [hg]; exact ha
  · rw [hg]; rfl

theorem Wakes.bindSlot (s : State) (p i obj hm qw d v en) : Wakes s (s.bindSlot p i obj hm qw d v en) := by
  unfold State.bindSlot
  dsimp only
  cases en
  · exact ((Wakes.setSlot ..).trans (Wakes.modUse ..)).trans ((Wakes.takeOp ..).trans (Wakes.beat ..))
  · exact ((Wakes.setSlot ..).trans (Wakes.modUse ..)).trans (Wakes.beat ..)

theorem bindSlot_slots (s : State) (p i obj hm qw d v en) :
  (s.bindSlot p i obj hm qw d v en).slots = tset none s.slots (8*p+i) (some { obj := obj, home := hm, dom := d, qwing := qw, value := v, entry := en, ready := none }) := by
  unfold State.bindSlot
  dsimp only
  cases en <;> cases hm <;> simp [State.setSlot]

theorem bindWait_eq (s : State) (c : Ctx) (k p v) : ∃ s1, Wakes s s1 ∧
   (∀ q j, s1.slot q j = if 8*q+j = 8*c.pos + c.w.slot.toNat then some (boundSlot c.obj c.dom v) else s.slot q j) ∧
   s.bindWait c k p v = (.ans .pending v, s1.setWaiters c.obj (enqueue (s.waiters c.obj) { pos := c.pos, slot := c.w.slot.toNat, prio := p, kind := k })) := by
  have hw := Wakes.bindSlot s c.pos c.w.slot.toNat (some c.obj) (.wing (wingOf c.obj)) (wingOf c.obj) c.dom v none
  refine ⟨_, hw, ?_, ?_⟩
  · intro q j
    unfold State.slot
    rw [bindSlot_slots, tget_tset]
    rfl
  · unfold State.bindWait
    dsimp only
    have : (s.bindSlot c.pos c.w.slot.toNat (some c.obj) (.wing (wingOf c.obj)) (wingOf c.obj) c.dom v none).waitq = s.waitq := by
      obtain ⟨⟨a,b,c',d,h⟩,_⟩ := hw
      rw [h]
    unfold State.waiters
    rw [this]

/-- A command whose body binds its slot to wait on its object. -/
theorem give_waits (s : State) (x : Src) (op : Op) (w : CmdW) (hob : op.onObject = true)
    (hsvc : serviceOnly op = false) (h : s.reaches x op w) (o : Obj) (ho : s.obj w.obj.toNat = some o)
    (hwait : op = .wait → s.waitFormat (s.caller x op w) = none) (k : WaitKind) (p : Nat) (v : BitVec 51)
    (hb : ∀ sp tr en, runBody (s.caller x op w) (s.beside sp tr en) = (s.beside sp tr en).bindWait (s.caller x op w) k p v) :
    ∃ t, s.give x op false w = t ∧ s.answered t x op w .pending v ∧ s.waits t x w k p v ∧ t.recs = s.recs ∧ s.serves t := by
  obtain ⟨ht, hm, hf⟩ := h
  have key (sp tr en) : ∃ b, Wakes (s.beside sp tr en) b ∧ (∀ q j, b.slot q j = if 8*q+j = 8*x.pos + w.slot.toNat then some (boundSlot w.obj.toNat (s.domOf x.pos) v) else s.slot q j) ∧ (s.beside sp tr en).bindWait (s.caller x op w) k p v = (.ans .pending v, b.setWaiters w.obj.toNat (enqueue (s.waiters w.obj.toNat) { pos := x.pos, slot := w.slot.toNat, prio := p, kind := k })) := bindWait_eq (s.beside sp tr en) (s.caller x op w) k p v
  obtain ⟨f, hpk⟩ := pick key
  have hf1 sp tr en := (hpk sp tr en).1
  have hf2 sp tr en := (hpk sp tr en).2.1
  have hf3 sp tr en := (hpk sp tr en).2.2
  obtain ⟨sp, tr, en0, ln, en, _, hg, ha⟩ := give_ans s x op w hob (.inl hsvc) ht hm hf (.inl (by simp [ho])) hwait .pending v (by decide)
    (fun sp tr en => (f sp tr en).setWaiters w.obj.toNat (enqueue (s.waiters w.obj.toNat) { pos := x.pos, slot := w.slot.toNat, prio := p, kind := k }))
    (fun sp tr en => by rw [hb, hf3])
    (fun sp tr en => by obtain ⟨⟨a,b,c,d,e⟩,_⟩ := hf1 sp tr en; show (f sp tr en).lanes = _; rw [e]) 
    (fun sp tr en => by obtain ⟨⟨a,b,c,d,e⟩,_⟩ := hf1 sp tr en; show (f sp tr en).entries = _; rw [e]) 
    (fun sp tr en hfo => by
      exact calm_congr _ _ (Wakes.calm (hf1 sp tr en) (calm_beside ht.1.1.1 sp en hfo)) rfl rfl rfl rfl (fun _ => rfl) (Nat.le_refl _)
        (Nat.le_refl _) rfl rfl rfl rfl rfl)
  refine ⟨_, rfl, ?_, ?_, ?_, ?_⟩
  · rw [hg]; exact ha
  · rw [hg]
    obtain ⟨⟨a,b,c,d,e⟩,_⟩ := hf1 sp tr en0
    refine ⟨hf2 sp tr en0, ?_, ?_⟩
    · show tget [] (tset [] _ _ _) _ = _
      rw [tget_tset, if_pos rfl]
    · intro n hn
      show tget [] (tset [] (f sp tr en0).waitq _ _) n = _
      rw [tget_tset, if_neg hn, e]; rfl
  · rw [hg]
    obtain ⟨⟨a,b,c,d,e⟩,_⟩ := hf1 sp tr en0
    show (f sp tr en0).recs = _
    rw [e]
  · rw [hg]
    obtain ⟨⟨a,b,c,d,e⟩,h1,h2⟩ := hf1 sp tr en0
    rw [e] at h1 h2 ⊢
    exact ⟨h1, h2, rfl⟩

/-- A command whose body answers, changes the body of its object and completes waiters of it. -/
theorem give_wakes (s : State) (x : Src) (op : Op) (w : CmdW) (hob : op.onObject = true)
    (hsvc : serviceOnly op = false) (h : s.reaches x op w) (o : Obj) (ho : s.obj w.obj.toNat = some o)
    (hwait : op = .wait → s.waitFormat (s.caller x op w) = none) (st : Status) (hst : st ≠ .refusedState) (v : BitVec 51)
    (B : Body) (left : List Waiter) (l : List (Nat × Nat × Status × BitVec 51)) (hd : (l.map (fun y => 8 * y.1 + y.2.1)).Nodup)
    (hb : ∀ sp tr en, runBody (s.caller x op w) (s.beside sp tr en) = (.ans st v, 
       (((s.beside sp tr en).setWaiters w.obj.toNat left).completeAll (wingOf w.obj.toNat) l).setBody w.obj.toNat B) ∨
       runBody (s.caller x op w) (s.beside sp tr en) = (.ans st v, 
       ((((s.beside sp tr en).setBody w.obj.toNat B).setWaiters w.obj.toNat left).completeAll (wingOf w.obj.toNat) l))) :
    ∃ t, s.give x op false w = t ∧ s.answered t x op w st v ∧ s.puts t w.obj.toNat (some { o with body := B }) ∧ s.wakes t w.obj.toNat left l ∧ s.serves t := by
  obtain ⟨ht, hm, hf⟩ := h
  let P (sp : Table Nat) (tr : Trace) (en : Table Entry) (b : State) : Prop :=
    ∃ S U Q K, b = { ((s.beside sp tr en).setBody w.obj.toNat B).setWaiters w.obj.toNat left with slots := S, use := U, wq := Q, wk := K } ∧
      s.wq.woken Q ∧ s.wk.woken K ∧ ∀ q j, tget none S (8*q+j) = match l.find? (fun y => 8 * y.1 + y.2.1 == 8 * q + j) with
    | some y => (s.slot q j).map (fun r => if r.ready.isSome then r else { r with ready := some (y.2.2.1, y.2.2.2) })
    | none => s.slot q j
  have key (sp tr en) : ∃ b, P sp tr en b ∧ runBody (s.caller x op w) (s.beside sp tr en) = (.ans st v, b) := by
    rcases hb sp tr en with h | h
    · refine ⟨_, ?_, h⟩
      obtain ⟨⟨S,U,Q,K,e⟩,h1,h2⟩ := Wakes.completeAll ((s.beside sp tr en).setWaiters w.obj.toNat left) (wingOf w.obj.toNat) l
      refine ⟨S,U,Q,K,?_,?_,?_,?_⟩
      · rw [e]; rfl
      · rw [e] at h1; exact h1
      · rw [e] at h2; exact h2
      · intro q j
        have := completeAll_slot l ((s.beside sp tr en).setWaiters w.obj.toNat left) (wingOf w.obj.toNat) q j hd
        rw [e] at this
        exact this
    · refine ⟨_, ?_, h⟩
      obtain ⟨⟨S,U,Q,K,e⟩,h1,h2⟩ := Wakes.completeAll (((s.beside sp tr en).setBody w.obj.toNat B).setWaiters w.obj.toNat left) (wingOf w.obj.toNat) l
      refine ⟨S,U,Q,K,?_,?_,?_,?_⟩
      · rw [e]
      · rw [e] at h1; exact h1
      · rw [e] at h2; exact h2
      · intro q j
        have := completeAll_slot l (((s.beside sp tr en).setBody w.obj.toNat B).setWaiters w.obj.toNat left) (wingOf w.obj.toNat) q j hd
        rw [e] at this
        exact this
  obtain ⟨f, hpk⟩ := pick key
  have hf1 sp tr en := (hpk sp tr en).1
  have hf2 sp tr en := (hpk sp tr en).2
  obtain ⟨sp, tr, en0, ln, en, _, hg, ha⟩ := give_ans s x op w hob (.inl hsvc) ht hm hf (.inl (by simp [ho])) hwait st v hst f hf2
    (fun sp tr en => by obtain ⟨S,U,Q,K,e,_⟩ := hf1 sp tr en; rw [e]; rfl) 
    (fun sp tr en => by obtain ⟨S,U,Q,K,e,_⟩ := hf1 sp tr en; rw [e]; rfl) 
    (fun sp tr en hfo => by
      obtain ⟨S,U,Q,K,e,h1,h2,_⟩ := hf1 sp tr en
      rw [e]
      exact calm_woken ht.1.1.1 rfl rfl rfl rfl rfl rfl rfl rfl rfl hfo h1 h2)
  obtain ⟨S,U,Q,K,e,h1,h2,h3⟩ := hf1 sp tr en0
  refine ⟨_, rfl, ?_, ?_, ?_, ?_⟩
  · rw [hg]; exact ha
  · rw [hg, e]; exact setBody_puts s _ B o ho
  · rw [hg, e]
    refine ⟨h3, ?_, ?_⟩
    · show tget [] (tset [] _ _ _) _ = _
      rw [tget_tset, if_pos rfl]
    · intro n hn
      show tget [] (tset [] _ _ _) n = _
      rw [tget_tset, if_neg hn]; rfl
  · rw [hg, e]
    exact ⟨h1, h2, rfl⟩

end Sys2Proof.Machine
end

