-- ==== Sys2Proof/Laws/PerInstr.lean ====
section
/-! SUPPORT. One lemma per row of the table: the word of an agent command carries its opcode. -/
namespace Sys2Proof.Laws

theorem commandOpc_encodeCommand (opc : BitVec 6) (w : CmdW) : commandOpc (encodeCommand opc w) = opc := by
  ext i hi
  simp only [commandOpc, encodeCommand, BitVec.getElem_extractLsb', BitVec.getLsbD_append]
  repeat rw [if_neg (by omega)]
  rw [show 122 + i - 64 - 20 - 20 - 1 - 1 - 1 - 1 - 8 - 3 - 3 = i by omega, ← BitVec.getLsbD_eq_getElem]

/-- Bits 127:122 of the word of an agent command are the code of its opcode (Table 3.1, Table 3.3). -/
def Encoding.Statement (i : Instr) : Prop :=
  ∀ (op : Op) (src : Src) (w : CmdW), commandOf i = some (op, src, w) → commandOpc (encode i) = op.code

theorem Encoding.of_word {i : Instr} {op : Op} {src : Src} {w : CmdW} (h : commandOf i = some (op, src, w))
    (he : encode i = encodeCommand op.code w) : Encoding.Statement i := by
  intro op' src' w' h'
  cases h.symm.trans h'
  exact he ▸ commandOpc_encodeCommand _ _

theorem Encoding.of_none {i : Instr} (h : commandOf i = none) : Encoding.Statement i := by
  intro op src w h'
  cases h.symm.trans h'

theorem Encoding.nop (src : Src) (w : CmdW) : Encoding.Statement (.nop src w) := Encoding.of_word rfl rfl
theorem Encoding.open (src : Src) (w : CmdW) : Encoding.Statement (.open src w) := Encoding.of_word rfl rfl
theorem Encoding.close (src : Src) (w : CmdW) : Encoding.Statement (.close src w) := Encoding.of_word rfl rfl
theorem Encoding.bindMembers (src : Src) (w : CmdW) : Encoding.Statement (.bindMembers src w) := Encoding.of_word rfl rfl
theorem Encoding.grant (src : Src) (w : CmdW) : Encoding.Statement (.grant src w) := Encoding.of_word rfl rfl
theorem Encoding.grantRevoke (src : Src) (w : CmdW) : Encoding.Statement (.grantRevoke src w) := Encoding.of_word rfl rfl
theorem Encoding.pin (src : Src) (w : CmdW) : Encoding.Statement (.pin src w) := Encoding.of_word rfl rfl
theorem Encoding.unpin (src : Src) (w : CmdW) : Encoding.Statement (.unpin src w) := Encoding.of_word rfl rfl
theorem Encoding.arrive (src : Src) (w : CmdW) : Encoding.Statement (.arrive src w) := Encoding.of_word rfl rfl
theorem Encoding.arriveWait (src : Src) (w : CmdW) : Encoding.Statement (.arriveWait src w) := Encoding.of_word rfl rfl
theorem Encoding.wait (src : Src) (w : CmdW) : Encoding.Statement (.wait src w) := Encoding.of_word rfl rfl
theorem Encoding.poll (src : Src) (w : CmdW) : Encoding.Statement (.poll src w) := Encoding.of_word rfl rfl
theorem Encoding.cancelWait (src : Src) (w : CmdW) : Encoding.Statement (.cancelWait src w) := Encoding.of_word rfl rfl
theorem Encoding.semPost (src : Src) (w : CmdW) : Encoding.Statement (.semPost src w) := Encoding.of_word rfl rfl
theorem Encoding.semTake (src : Src) (w : CmdW) : Encoding.Statement (.semTake src w) := Encoding.of_word rfl rfl
theorem Encoding.semTry (src : Src) (w : CmdW) : Encoding.Statement (.semTry src w) := Encoding.of_word rfl rfl
theorem Encoding.lockAcquire (src : Src) (w : CmdW) : Encoding.Statement (.lockAcquire src w) := Encoding.of_word rfl rfl
theorem Encoding.lockTry (src : Src) (w : CmdW) : Encoding.Statement (.lockTry src w) := Encoding.of_word rfl rfl
theorem Encoding.lockRelease (src : Src) (w : CmdW) : Encoding.Statement (.lockRelease src w) := Encoding.of_word rfl rfl
theorem Encoding.lockHandoff (src : Src) (w : CmdW) : Encoding.Statement (.lockHandoff src w) := Encoding.of_word rfl rfl
theorem Encoding.tokenGive (src : Src) (w : CmdW) : Encoding.Statement (.tokenGive src w) := Encoding.of_word rfl rfl
theorem Encoding.tokenTake (src : Src) (w : CmdW) : Encoding.Statement (.tokenTake src w) := Encoding.of_word rfl rfl
theorem Encoding.tokenTry (src : Src) (w : CmdW) : Encoding.Statement (.tokenTry src w) := Encoding.of_word rfl rfl
theorem Encoding.flagSet (src : Src) (w : CmdW) : Encoding.Statement (.flagSet src w) := Encoding.of_word rfl rfl
theorem Encoding.flagClear (src : Src) (w : CmdW) : Encoding.Statement (.flagClear src w) := Encoding.of_word rfl rfl
theorem Encoding.payloadWrite (src : Src) (w : CmdW) : Encoding.Statement (.payloadWrite src w) := Encoding.of_word rfl rfl
theorem Encoding.resultRead (src : Src) (w : CmdW) : Encoding.Statement (.resultRead src w) := Encoding.of_word rfl rfl
theorem Encoding.ledgerPost (src : Src) (w : CmdW) : Encoding.Statement (.ledgerPost src w) := Encoding.of_word rfl rfl
theorem Encoding.ledgerCheck (src : Src) (w : CmdW) : Encoding.Statement (.ledgerCheck src w) := Encoding.of_word rfl rfl
theorem Encoding.ledgerRead (src : Src) (w : CmdW) : Encoding.Statement (.ledgerRead src w) := Encoding.of_word rfl rfl
theorem Encoding.vote (src : Src) (w : CmdW) : Encoding.Statement (.vote src w) := Encoding.of_word rfl rfl
theorem Encoding.unvote (src : Src) (w : CmdW) : Encoding.Statement (.unvote src w) := Encoding.of_word rfl rfl
theorem Encoding.holdRequest (src : Src) (w : CmdW) : Encoding.Statement (.holdRequest src w) := Encoding.of_word rfl rfl
theorem Encoding.holdDone (src : Src) (w : CmdW) : Encoding.Statement (.holdDone src w) := Encoding.of_word rfl rfl
theorem Encoding.seqStart (src : Src) (w : CmdW) : Encoding.Statement (.seqStart src w) := Encoding.of_word rfl rfl
theorem Encoding.seqStop (src : Src) (w : CmdW) : Encoding.Statement (.seqStop src w) := Encoding.of_word rfl rfl
theorem Encoding.readReg (src : Src) (w : CmdW) : Encoding.Statement (.readReg src w) := Encoding.of_word rfl rfl
theorem Encoding.writeReg (src : Src) (w : CmdW) : Encoding.Statement (.writeReg src w) := Encoding.of_word rfl rfl
theorem Encoding.clearStatus (src : Src) (w : CmdW) : Encoding.Statement (.clearStatus src w) := Encoding.of_word rfl rfl
theorem Encoding.resign (src : Src) (w : CmdW) : Encoding.Statement (.resign src w) := Encoding.of_word rfl rfl
theorem Encoding.reassign (src : Src) (w : CmdW) : Encoding.Statement (.reassign src w) := Encoding.of_word rfl rfl
theorem Encoding.remap (src : Src) (w : CmdW) : Encoding.Statement (.remap src w) := Encoding.of_word rfl rfl
theorem Encoding.responseEntryRead (win : Wing) (reader : Nat) (off : BitVec 16) (size : Nat) (single : Bool) : Encoding.Statement (.responseEntryRead win reader off size single) :=
  Encoding.of_none rfl
theorem Encoding.lateCompletion (pos : Nat) : Encoding.Statement (.lateCompletion pos) := Encoding.of_none rfl
theorem Encoding.queuedCommandResume (pos : Nat) (win : Wing) (tag2 : BitVec 2) : Encoding.Statement (.queuedCommandResume pos win tag2) :=
  Encoding.of_none rfl
theorem Encoding.wakeBeat (w : Wing) (branch : BitVec 4) (err : BitVec 56) : Encoding.Statement (.wakeBeat w branch err) :=
  Encoding.of_none rfl
theorem Encoding.rateTick : Encoding.Statement .rateTick := Encoding.of_none rfl
theorem Encoding.pageIn (obj : BitVec 20) (err : Bool) : Encoding.Statement (.pageIn obj err) := Encoding.of_none rfl
theorem Encoding.writeBack (obj : BitVec 20) (err : Bool) : Encoding.Statement (.writeBack obj err) := Encoding.of_none rfl
theorem Encoding.operandFold (file : BitVec 3) : Encoding.Statement (.operandFold file) := Encoding.of_none rfl
theorem Encoding.combineFinish (obj : BitVec 20) : Encoding.Statement (.combineFinish obj) := Encoding.of_none rfl
theorem Encoding.flagFall (obj : BitVec 20) : Encoding.Statement (.flagFall obj) := Encoding.of_none rfl
theorem Encoding.secondStalemateWalk (obj : BitVec 20) (pos : Nat) : Encoding.Statement (.secondStalemateWalk obj pos) :=
  Encoding.of_none rfl
theorem Encoding.rstNotify (pos : Nat) : Encoding.Statement (.rstNotify pos) := Encoding.of_none rfl
theorem Encoding.orphaning (pos : Nat) : Encoding.Statement (.orphaning pos) := Encoding.of_none rfl
theorem Encoding.seqWaitMet (k : BitVec 5) : Encoding.Statement (.seqWaitMet k) := Encoding.of_none rfl
theorem Encoding.seqTimeWait (k : BitVec 5) : Encoding.Statement (.seqTimeWait k) := Encoding.of_none rfl
theorem Encoding.seqActionAnswer (k : BitVec 5) : Encoding.Statement (.seqActionAnswer k) := Encoding.of_none rfl
theorem Encoding.plyPageArrival (w : Wing) (page : Nat) (plies : List (BitVec 128)) (err : Bool) : Encoding.Statement (.plyPageArrival w page plies err) :=
  Encoding.of_none rfl
theorem Encoding.forcedHoldBegin : Encoding.Statement .forcedHoldBegin := Encoding.of_none rfl
theorem Encoding.forcedHoldGrant : Encoding.Statement .forcedHoldGrant := Encoding.of_none rfl
theorem Encoding.holdDurationEnd (who : HoldBy) : Encoding.Statement (.holdDurationEnd who) := Encoding.of_none rfl
theorem Encoding.groupJoin : Encoding.Statement .groupJoin := Encoding.of_none rfl
theorem Encoding.hello (k : BitVec 4) (e : Eof) (f : Frame) : Encoding.Statement (.hello k e f) := Encoding.of_none rfl
theorem Encoding.helloTimeout (chip : BitVec 16) : Encoding.Statement (.helloTimeout chip) := Encoding.of_none rfl
theorem Encoding.alive (k : BitVec 4) (e : Eof) (f : Frame) : Encoding.Statement (.alive k e f) := Encoding.of_none rfl
theorem Encoding.aliveDue (c : Carrier) : Encoding.Statement (.aliveDue c) := Encoding.of_none rfl
theorem Encoding.chipSilent (chip : BitVec 16) : Encoding.Statement (.chipSilent chip) := Encoding.of_none rfl
theorem Encoding.arrival (k : BitVec 4) (e : Eof) (f : Frame) : Encoding.Statement (.arrival k e f) := Encoding.of_none rfl
theorem Encoding.half1 (k : BitVec 4) (e : Eof) (f : Frame) : Encoding.Statement (.half1 k e f) := Encoding.of_none rfl
theorem Encoding.rsWord (k : BitVec 4) (e : Eof) (f : Frame) : Encoding.Statement (.rsWord k e f) := Encoding.of_none rfl
theorem Encoding.release (k : BitVec 4) (e : Eof) (f : Frame) : Encoding.Statement (.release k e f) := Encoding.of_none rfl
theorem Encoding.agWord (k : BitVec 4) (e : Eof) (f : Frame) : Encoding.Statement (.agWord k e f) := Encoding.of_none rfl
theorem Encoding.half1Down (k : BitVec 4) (e : Eof) (f : Frame) : Encoding.Statement (.half1Down k e f) := Encoding.of_none rfl
theorem Encoding.takeover (k : BitVec 4) (e : Eof) (f : Frame) : Encoding.Statement (.takeover k e f) := Encoding.of_none rfl
theorem Encoding.answer (k : BitVec 4) (e : Eof) (f : Frame) : Encoding.Statement (.answer k e f) := Encoding.of_none rfl
theorem Encoding.suspect (k : BitVec 4) (e : Eof) (f : Frame) : Encoding.Statement (.suspect k e f) := Encoding.of_none rfl
theorem Encoding.suspectForget (chip : BitVec 16) (level : BitVec 2) (group : BitVec 8) : Encoding.Statement (.suspectForget chip level group) :=
  Encoding.of_none rfl
theorem Encoding.resignFrame (k : BitVec 4) (e : Eof) (f : Frame) : Encoding.Statement (.resignFrame k e f) :=
  Encoding.of_none rfl
theorem Encoding.fall (k : BitVec 4) (e : Eof) (f : Frame) : Encoding.Statement (.fall k e f) := Encoding.of_none rfl
theorem Encoding.levelDeadline (relay : BitVec 20) (gen : BitVec 32) (level : BitVec 2) : Encoding.Statement (.levelDeadline relay gen level) :=
  Encoding.of_none rfl
theorem Encoding.time (k : BitVec 4) (e : Eof) (f : Frame) : Encoding.Statement (.time k e f) := Encoding.of_none rfl
theorem Encoding.timeExchangeDue : Encoding.Statement .timeExchangeDue := Encoding.of_none rfl
theorem Encoding.probeDue (ctx : Nat) : Encoding.Statement (.probeDue ctx) := Encoding.of_none rfl
theorem Encoding.remote (k : BitVec 4) (e : Eof) (f : Frame) : Encoding.Statement (.remote k e f) := Encoding.of_none rfl
theorem Encoding.glockRequest (k : BitVec 4) (e : Eof) (f : Frame) : Encoding.Statement (.glockRequest k e f) :=
  Encoding.of_none rfl
theorem Encoding.glockRelease (k : BitVec 4) (e : Eof) (f : Frame) : Encoding.Statement (.glockRelease k e f) :=
  Encoding.of_none rfl
theorem Encoding.glockGrant (k : BitVec 4) (e : Eof) (f : Frame) : Encoding.Statement (.glockGrant k e f) := Encoding.of_none rfl
theorem Encoding.glockOrphanReport (k : BitVec 4) (e : Eof) (f : Frame) : Encoding.Statement (.glockOrphanReport k e f) :=
  Encoding.of_none rfl
theorem Encoding.glockWithdrawal (k : BitVec 4) (e : Eof) (f : Frame) : Encoding.Statement (.glockWithdrawal k e f) :=
  Encoding.of_none rfl
theorem Encoding.quietWakeQ (k seat : BitVec 4) : Encoding.Statement (.quietWakeQ k seat) := Encoding.of_none rfl
theorem Encoding.quietWakeK (k seat : BitVec 4) : Encoding.Statement (.quietWakeK k seat) := Encoding.of_none rfl
theorem Encoding.quietArrival (k seat : BitVec 4) : Encoding.Statement (.quietArrival k seat) := Encoding.of_none rfl
theorem Encoding.quietTime (k seat : BitVec 4) : Encoding.Statement (.quietTime k seat) := Encoding.of_none rfl
theorem Encoding.quietAlive (k seat : BitVec 4) : Encoding.Statement (.quietAlive k seat) := Encoding.of_none rfl
theorem Encoding.quietAck (k seat : BitVec 4) : Encoding.Statement (.quietAck k seat) := Encoding.of_none rfl
theorem Encoding.quietCold (k seat : BitVec 4) : Encoding.Statement (.quietCold k seat) := Encoding.of_none rfl
theorem Encoding.quietTimeMarkDue : Encoding.Statement .quietTimeMarkDue := Encoding.of_none rfl
theorem Encoding.quietAckTimeout (k : BitVec 4) : Encoding.Statement (.quietAckTimeout k) := Encoding.of_none rfl
theorem Encoding.coldAckTimeout (k : BitVec 4) : Encoding.Statement (.coldAckTimeout k) := Encoding.of_none rfl
theorem Encoding.trainingPhaseDone (k : BitVec 4) : Encoding.Statement (.trainingPhaseDone k) := Encoding.of_none rfl
theorem Encoding.trainingTimeout (k : BitVec 4) : Encoding.Statement (.trainingTimeout k) := Encoding.of_none rfl
theorem Encoding.retrainDue (k : BitVec 4) : Encoding.Statement (.retrainDue k) := Encoding.of_none rfl
theorem Encoding.resumeLock (k : BitVec 4) : Encoding.Statement (.resumeLock k) := Encoding.of_none rfl
theorem Encoding.quiesceStart (k : BitVec 4) : Encoding.Statement (.quiesceStart k) := Encoding.of_none rfl
theorem Encoding.quiesce (k : BitVec 4) (ack : BitVec 8) : Encoding.Statement (.quiesce k ack) := Encoding.of_none rfl
theorem Encoding.idleBlock (k : BitVec 4) (ack : BitVec 8) (crVl : BitVec 2) (crCnt : BitVec 4) : Encoding.Statement (.idleBlock k ack crVl crCnt) :=
  Encoding.of_none rfl
theorem Encoding.nak (k : BitVec 4) (lseq ack : BitVec 8) : Encoding.Statement (.nak k lseq ack) := Encoding.of_none rfl
theorem Encoding.refuse (k : BitVec 4) (lseq ack : BitVec 8) (crVl : BitVec 2) (crCnt : BitVec 4) : Encoding.Statement (.refuse k lseq ack crVl crCnt) :=
  Encoding.of_none rfl
theorem Encoding.trainBlock (k : BitVec 4) (chip : BitVec 16) (build : BitVec 32) : Encoding.Statement (.trainBlock k chip build) :=
  Encoding.of_none rfl
theorem Encoding.replayTimeout (k : BitVec 4) : Encoding.Statement (.replayTimeout k) := Encoding.of_none rfl
theorem Encoding.refuseResend (k : BitVec 4) : Encoding.Statement (.refuseResend k) := Encoding.of_none rfl
theorem Encoding.tunnelData (p : Packet) : Encoding.Statement (.tunnelData p) := Encoding.of_none rfl
theorem Encoding.tunnelAck (p : Packet) : Encoding.Statement (.tunnelAck p) := Encoding.of_none rfl
theorem Encoding.tunnelOpen (p : Packet) : Encoding.Statement (.tunnelOpen p) := Encoding.of_none rfl
theorem Encoding.openAck (p : Packet) : Encoding.Statement (.openAck p) := Encoding.of_none rfl
theorem Encoding.ackDelay (ctx : Nat) : Encoding.Statement (.ackDelay ctx) := Encoding.of_none rfl
theorem Encoding.retransmitTimeout (ctx : Nat) : Encoding.Statement (.retransmitTimeout ctx) := Encoding.of_none rfl
theorem Encoding.ringPathFail (chip : BitVec 16) : Encoding.Statement (.ringPathFail chip) := Encoding.of_none rfl
theorem Encoding.edgeRetry (ctx : Nat) : Encoding.Statement (.edgeRetry ctx) := Encoding.of_none rfl
theorem Encoding.openBusyRetry (ctx : Nat) : Encoding.Statement (.openBusyRetry ctx) := Encoding.of_none rfl
theorem Encoding.throttleCeiling (w : Wing) (code : BitVec 2) : Encoding.Statement (.throttleCeiling w code) :=
  Encoding.of_none rfl
theorem Encoding.frequencyStep (w : Wing) : Encoding.Statement (.frequencyStep w) := Encoding.of_none rfl
theorem Encoding.powerChoice (w : Wing) : Encoding.Statement (.powerChoice w) := Encoding.of_none rfl
theorem Encoding.abortPointReached (w : Wing) : Encoding.Statement (.abortPointReached w) := Encoding.of_none rfl
theorem Encoding.deepen : Encoding.Statement .deepen := Encoding.of_none rfl
theorem Encoding.coldLeaseEnd : Encoding.Statement .coldLeaseEnd := Encoding.of_none rfl
theorem Encoding.regRdy (w : Wing) : Encoding.Statement (.regRdy w) := Encoding.of_none rfl
theorem Encoding.oscRdy (w : Wing) : Encoding.Statement (.oscRdy w) := Encoding.of_none rfl
theorem Encoding.pllLock (w : Wing) : Encoding.Statement (.pllLock w) := Encoding.of_none rfl
theorem Encoding.memRdy (w : Wing) : Encoding.Statement (.memRdy w) := Encoding.of_none rfl
theorem Encoding.sealedMoveRestored (w : Wing) (bad : List Nat) : Encoding.Statement (.sealedMoveRestored w bad) :=
  Encoding.of_none rfl
theorem Encoding.wakeLate (w : Wing) : Encoding.Statement (.wakeLate w) := Encoding.of_none rfl
theorem Encoding.graceExpiry (blk : Nat) : Encoding.Statement (.graceExpiry blk) := Encoding.of_none rfl
theorem Encoding.autoRecovery (blk : Nat) : Encoding.Statement (.autoRecovery blk) := Encoding.of_none rfl
theorem Encoding.registerReload (blk : Nat) (ok : Bool) : Encoding.Statement (.registerReload blk ok) := Encoding.of_none rfl
theorem Encoding.aliveInEdge (n : BitVec 2) : Encoding.Statement (.aliveInEdge n) := Encoding.of_none rfl
theorem Encoding.aliveInStop (n : BitVec 2) : Encoding.Statement (.aliveInStop n) := Encoding.of_none rfl
theorem Encoding.scrubRow (w : Wing) (found : RowFind) : Encoding.Statement (.scrubRow w found) := Encoding.of_none rfl
theorem Encoding.liveRemap (w : Wing) (badSpares : Nat) : Encoding.Statement (.liveRemap w badSpares) := Encoding.of_none rfl
theorem Encoding.displacementCopy (w : Wing) (row : Nat) (err : Bool) : Encoding.Statement (.displacementCopy w row err) :=
  Encoding.of_none rfl
theorem Encoding.repairRecordAppend (ok compactOk : Bool) : Encoding.Statement (.repairRecordAppend ok compactOk) :=
  Encoding.of_none rfl
theorem Encoding.bootRecordAppend (x : BootWrite) : Encoding.Statement (.bootRecordAppend x) :=
  Encoding.of_none rfl
theorem Encoding.poresetAssert : Encoding.Statement .poresetAssert := Encoding.of_none rfl
theorem Encoding.poresetRelease : Encoding.Statement .poresetRelease := Encoding.of_none rfl
theorem Encoding.aonUp (romOk : Bool) : Encoding.Statement (.aonUp romOk) := Encoding.of_none rfl
theorem Encoding.wingUp : Encoding.Statement .wingUp := Encoding.of_none rfl
theorem Encoding.wingPowerTimeout : Encoding.Statement .wingPowerTimeout := Encoding.of_none rfl
theorem Encoding.discovery (sfdp : Sfdp) (dir0 dir1 : List Byte) : Encoding.Statement (.discovery sfdp dir0 dir1) :=
  Encoding.of_none rfl
theorem Encoding.load (r : SlotRead) : Encoding.Statement (.load r) := Encoding.of_none rfl
theorem Encoding.verify (otp : OtpRead) : Encoding.Statement (.verify otp) := Encoding.of_none rfl
theorem Encoding.bist (corrected : List RowId) (bad : List RowId) : Encoding.Statement (.bist corrected bad) :=
  Encoding.of_none rfl
theorem Encoding.repair (c0 c1 : List (BitVec 256)) (boots : BootArea) (bad : Option RowId) : Encoding.Statement (.repair c0 c1 boots bad) :=
  Encoding.of_none rfl
theorem Encoding.linkTrain : Encoding.Statement .linkTrain := Encoding.of_none rfl
theorem Encoding.ingLoadClrCnt (src : Src) (tag : BitVec 8) (w : Wing) : Encoding.Statement (.ingLoadClrCnt src tag w) :=
  Encoding.of_none rfl
theorem Encoding.ingWinClr (src : Src) (tag : BitVec 8) (w : Wing) : Encoding.Statement (.ingWinClr src tag w) :=
  Encoding.of_none rfl
theorem Encoding.ingRefuseClr (src : Src) (tag : BitVec 8) (w : Wing) : Encoding.Statement (.ingRefuseClr src tag w) :=
  Encoding.of_none rfl
theorem Encoding.filPageClr (src : Src) (tag : BitVec 8) (file : BitVec 3) : Encoding.Statement (.filPageClr src tag file) :=
  Encoding.of_none rfl
theorem Encoding.filLedgerClr (src : Src) (tag : BitVec 8) (file : BitVec 3) : Encoding.Statement (.filLedgerClr src tag file) :=
  Encoding.of_none rfl
theorem Encoding.wakeNoteClr (src : Src) (tag : BitVec 8) (w : Wing) : Encoding.Statement (.wakeNoteClr src tag w) :=
  Encoding.of_none rfl
theorem Encoding.seqPageClr (src : Src) (tag : BitVec 8) (w : Wing) : Encoding.Statement (.seqPageClr src tag w) :=
  Encoding.of_none rfl
theorem Encoding.cmbLvlerrClr (src : Src) (tag : BitVec 8) (w : Wing) : Encoding.Statement (.cmbLvlerrClr src tag w) :=
  Encoding.of_none rfl
theorem Encoding.clrAll (src : Src) (tag : BitVec 8) : Encoding.Statement (.clrAll src tag) := Encoding.of_none rfl
theorem Encoding.clrSel (src : Src) (tag : BitVec 8) : Encoding.Statement (.clrSel src tag) := Encoding.of_none rfl
theorem Encoding.shpCnt0Clr (src : Src) (tag : BitVec 8) (k : BitVec 4) : Encoding.Statement (.shpCnt0Clr src tag k) :=
  Encoding.of_none rfl
theorem Encoding.tunCntClr (src : Src) (tag : BitVec 8) : Encoding.Statement (.tunCntClr src tag) := Encoding.of_none rfl
theorem Encoding.tcuHoldcntClr (src : Src) (tag : BitVec 8) : Encoding.Statement (.tcuHoldcntClr src tag) := Encoding.of_none rfl
theorem Encoding.tcuPwrcntClr (src : Src) (tag : BitVec 8) : Encoding.Statement (.tcuPwrcntClr src tag) := Encoding.of_none rfl
theorem Encoding.repScrubClr (src : Src) (tag : BitVec 8) (w : Wing) : Encoding.Statement (.repScrubClr src tag w) :=
  Encoding.of_none rfl
theorem Encoding.flashRelease (src : Src) (tag : BitVec 8) : Encoding.Statement (.flashRelease src tag) := Encoding.of_none rfl
theorem Encoding.flashReclaim (src : Src) (x : Reclaim) : Encoding.Statement (.flashReclaim src x) :=
  Encoding.of_none rfl
theorem Encoding.traceEnable (by_ : TraceBy) (reg : TraceReg) (value : BitVec 32) : Encoding.Statement (.traceEnable by_ reg value) :=
  Encoding.of_none rfl
theorem Encoding.pcselWrite (src : Src) (tag : BitVec 8) (n : BitVec 2) (code : BitVec 4) : Encoding.Statement (.pcselWrite src tag n code) :=
  Encoding.of_none rfl
theorem Encoding.tapReset : Encoding.Statement .tapReset := Encoding.of_none rfl
theorem Encoding.extest : Encoding.Statement .extest := Encoding.of_none rfl
theorem Encoding.samplePreload (balls : List Bool) : Encoding.Statement (.samplePreload balls) := Encoding.of_none rfl
theorem Encoding.idcode : Encoding.Statement .idcode := Encoding.of_none rfl
theorem Encoding.ijtag (holdBoot : Bool) : Encoding.Statement (.ijtag holdBoot) := Encoding.of_none rfl
theorem Encoding.wrapSel : Encoding.Statement .wrapSel := Encoding.of_none rfl
theorem Encoding.bypass : Encoding.Statement .bypass := Encoding.of_none rfl
theorem Encoding.intest : Encoding.Statement .intest := Encoding.of_none rfl
theorem Encoding.regread (off : BitVec 20) : Encoding.Statement (.regread off) := Encoding.of_none rfl
theorem Encoding.holdBootClear : Encoding.Statement .holdBootClear := Encoding.of_none rfl
theorem Encoding.mbist : Encoding.Statement .mbist := Encoding.of_none rfl
theorem Encoding.mbistDone (rows : List RowId) (spares : List RowId) : Encoding.Statement (.mbistDone rows spares) :=
  Encoding.of_none rfl
theorem Encoding.loopback (k : BitVec 4) (mode : LoopMode) : Encoding.Statement (.loopback k mode) := Encoding.of_none rfl
theorem Encoding.margin (k : BitVec 4) (phase threshold : Int) (dwell abortAt : Nat) : Encoding.Statement (.margin k phase threshold dwell abortAt) :=
  Encoding.of_none rfl
theorem Encoding.marginDwellEnd (k : BitVec 4) (headers crcs replays : Nat) : Encoding.Statement (.marginDwellEnd k headers crcs replays) :=
  Encoding.of_none rfl
theorem Encoding.pathdly (count : Nat) : Encoding.Statement (.pathdly count) := Encoding.of_none rfl
theorem Encoding.reservedOpcode (src : Src) (w : CmdW) (opc : BitVec 6) : Encoding.Statement (.reservedOpcode src w opc) :=
  Encoding.of_none rfl
theorem Encoding.badSubmit (win : Wing) (x : BadWrite) : Encoding.Statement (.badSubmit win x) :=
  Encoding.of_none rfl
theorem Encoding.idleExit (w : Wing) : Encoding.Statement (.idleExit w) := Encoding.of_none rfl
theorem Encoding.quietFrameBad (k : BitVec 4) : Encoding.Statement (.quietFrameBad k) := Encoding.of_none rfl
theorem Encoding.badFrame (k : BitVec 4) : Encoding.Statement (.badFrame k) := Encoding.of_none rfl
theorem Encoding.reservedFtype (k : BitVec 4) (e : Eof) (f : Frame) : Encoding.Statement (.reservedFtype k e f) :=
  Encoding.of_none rfl
theorem Encoding.exchangeTimeout : Encoding.Statement .exchangeTimeout := Encoding.of_none rfl
theorem Encoding.standbyCopy (c : GlockCopy) : Encoding.Statement (.standbyCopy c) := Encoding.of_none rfl
theorem Encoding.standbyCopyTimeout (kind : CopyKind) : Encoding.Statement (.standbyCopyTimeout kind) := Encoding.of_none rfl
theorem Encoding.loopbackStop (k : BitVec 4) (errors sent rejected matched : Nat) : Encoding.Statement (.loopbackStop k errors sent rejected matched) :=
  Encoding.of_none rfl

end Sys2Proof.Laws
end

