-- ==== Sys2Proof/Tests/Slice0.lean ====
section
/-! SUPPORT. Tests of single steps on small states, words written out from the spec's encodings, ill-formed commands, and for each
statement states and operands that meet its hypotheses. -/

-- One theorem after the other: evaluations in the kernel that wait for each other take a thread each.
set_option Elab.async false

namespace Sys2Proof.Tests
open Sys2Proof.Machine

/-! ### A small running block -/

/-- A domain with room for everything. -/
def roomyDom (base size : Nat) : DomainEnt :=
  { enabled := true, refuseLimit := 1000, objQ := 100, objK := 100, accQ := 65536, accK := 65536, wslotQ := 100, wslotK := 100
    opsQ := 100, opsK := 100, seqRun := 4, weight := 1, rateQ := 10, rateK := 10, depthQ := 100, depthK := 100, objBase := base
    objSize := size }

/-- An enabled position. -/
def pos (d : Nat) : PosEnt := { spare := false, enabled := true, schedPos := 5, dom := d }

/-- A running block: both wings ACTIVE, domain 0 and 1, positions 5 and 6 queenside and 400 and 401 kingside. -/
def live : State := { State.reset with
  now := 5000000
  iml := { Iml.reset with stage := .ready, porLow := false, bootSeq := 7, chip := 5 }
  pins := { flResetN := true }
  img := { ImageBody.empty with domains := [roomyDom 0 0, roomyDom 0x100 0x100] }
  posmap := [(5, pos 0), (6, pos 1), (7, pos 1), (400, pos 1), (401, pos 0)]
  trace := { State.reset.trace with wave := { run := true, at_ := 0, high := false } }
  wq := { WingSt.reset with pwr := { Pwr.reset with state := .active, plvl := 0, target := 0 } }
  wk := { WingSt.reset with pwr := { Pwr.reset with state := .active, plvl := 0, target := 0 } } }

/-- An open object of domain 1. -/
def ofBody (b : Body) : Obj := { owner := 1, pinned := false, cold := false, slow := false, body := b }

/-- A block with an object resident. -/
def put (s : State) (n : Nat) (b : Body) : State :=
  { s with recs := tset none s.recs n (some { slot := n / 8, obj := some (ofBody b), touched := false, evicting := false }) }

/-- A block with a waiter of an object, on a bound slot of a position of domain 1. -/
def wait (s : State) (n p i : Nat) (k : WaitKind) (v : BitVec 51) : State :=
  let w := wingOf n
  { s with
    waitq := tset [] s.waitq n (s.waiters n ++ [{ pos := p, slot := i, prio := 0, kind := k }])
    slots := tset none s.slots (8 * p + i) (some (boundSlot n 1 v))
    use := tmod Use.zero s.use (wd w 1) (fun u => { u with slots := u.slots + 1, ops := u.ops + 1 }) }

/-- A word with its object, argument and data. -/
def word (obj : BitVec 20) (arg : BitVec 20) (data : BitVec 64) : CmdW :=
  { slot := 0, prio := 0, tag := 0x21, wait := false, eager := false, staged := false, notify := false, obj := obj, arg := arg, data := data }

/-- The word of a command that waits, on slot 2. -/
def waitWord (obj : BitVec 20) (arg : BitVec 20) (data : BitVec 64) : CmdW :=
  { word obj arg data with slot := 2, wait := true }

/-- The slot path of a position with nothing ahead. -/
def at_ (p : Nat) : Src := { pos := p, path := .slot 0, queue := 0, mates := (0, 0), strikes := Strikes.none }

/-- A command window of a position. -/
def onWin (p : Nat) (v : Wing) : Src := { pos := p, path := .win v, queue := 0, mates := (0, 0), strikes := Strikes.none }

/-! ### Hypotheses as tests -/

/-- The state is one between two steps. -/
def calmB (s : State) : Bool :=
  decide (s.todo = []) && decide (s.seamHeld .q ≤ s.trace.peakQ) && decide (s.seamHeld .k ≤ s.trace.peakK) &&
    decide (s.trace.wave.run = s.aliveRuns) && (decide (s.now < 50000) || s.inReset || s.pins.flResetN)

theorem calm_of {s : State} (h : calmB s = true) : s.calm := by
  simp only [calmB, Bool.and_eq_true, Bool.or_eq_true, decide_eq_true_eq] at h
  refine ⟨h.1.1.1.1, h.1.1.1.2, h.1.1.2, h.1.2, fun h1 h2 => ?_⟩
  rcases h.2 with (h3 | h3) | h3
  · omega
  · rw [h2] at h3
    cases h3
  · exact h3

/-- A command is presented (slot path or window). -/
def presentedB (s : State) (x : Src) (w : CmdW) : Bool :=
  calmB s && s.ready && !s.inReset && decide (x.strikes = Strikes.none) && decide (x.pos < 768) && s.active (srcWing x) && (match x.path with
      | .slot _ => decide (s.held = [])
      | .caught _ _ => false
      | .win v => !s.contained (bING v) && (s.entry (srcEntry x w) == Entry.empty) &&
          s.held.all (fun g => !g.req.ofAgent || (g.place != .aside && g.place != .window .q && g.place != .window .k)))

theorem presented_of {s : State} {x : Src} {w : CmdW} (h : presentedB s x w = true) : s.presented x w := by
  unfold presentedB at h
  simp only [Bool.and_eq_true, decide_eq_true_eq, Bool.not_eq_true'] at h
  obtain ⟨⟨⟨⟨⟨⟨h1, h4⟩, h5⟩, h2⟩, h6⟩, h7⟩, h8⟩ := h
  refine ⟨calm_of h1, ⟨h4, h5⟩, h6, h7, h2, ?_⟩
  obtain ⟨p, path, q, m, e⟩ := x
  cases path with
  | slot a =>
    intro g hg
    rw [of_decide_eq_true h8] at hg
    cases hg
  | caught a b => exact absurd h8 (by simp)
  | win v =>
    simp only [Bool.and_eq_true, beq_iff_eq, Bool.not_eq_true', List.all_eq_true, Bool.or_eq_true, bne_iff_ne, ne_eq] at h8
    obtain ⟨⟨h9, h10⟩, h11⟩ := h8
    refine ⟨h9, ?_, ?_⟩
    · rw [h10]
      exact ⟨rfl, rfl, rfl, rfl⟩
    · intro g hg ha
      rcases h11 g hg with h12 | h12
      · rw [ha] at h12
        cases h12
      · exact ⟨h12.1.1, fun u => by cases u <;> simp [h12]⟩

/-- Checks 1 and 2 pass. -/
def entersB (s : State) (x : Src) (w : CmdW) : Bool :=
  presentedB s x w && (s.posEnt x.pos).enabled && (s.takeToken (srcWing x) (s.domOf x.pos)).isSome

theorem enters_of {s : State} {x : Src} {w : CmdW} (h : entersB s x w = true) : s.enters x w := by
  unfold entersB at h
  simp only [Bool.and_eq_true] at h
  exact ⟨presented_of h.1.1, h.1.2, h.2⟩

/-- Checks 1 to 4 pass. -/
def takesB (s : State) (x : Src) (op : Op) (w : CmdW) : Bool :=
  entersB s x w && (formatReason op w (s.caller x op w).onWindow (s.identity x.pos) == none) && (match x.path with
    | .slot ahead => s.admission (s.caller x op w) ahead false == none
    | .caught _ _ => false
    | .win _ => !w.notify && !s.windowStuck (s.caller x op w))

theorem takes_of {s : State} {x : Src} {op : Op} {w : CmdW} (h : takesB s x op w = true) : s.takes x op w := by
  unfold takesB at h
  simp only [Bool.and_eq_true, beq_iff_eq] at h
  refine ⟨enters_of h.1.1, h.1.2, ?_⟩
  have h3 := h.2
  obtain ⟨p, path, q, m, e⟩ := x
  cases path with
  | slot a => exact eq_of_beq h3
  | caught a b => exact absurd h3 (by simp)
  | win v =>
    simp only [Bool.and_eq_true, Bool.not_eq_true'] at h3
    exact h3

/-- An object's record is at hand. -/
def atHandB (s : State) (n : Nat) : Bool :=
  (s.resident n).any (fun r => !r.evicting && !s.rowBusy n r && decide (s.badRows n r = []))

theorem atHand_of {s : State} {n : Nat} (h : atHandB s n = true) : s.atHand n := by
  simp only [atHandB, Option.any_eq_true, Bool.and_eq_true, Bool.not_eq_true', decide_eq_true_eq] at h
  obtain ⟨r, h1, ⟨h2, h3⟩, h4⟩ := h
  exact ⟨r, h1, h2, h3, h4⟩

/-- The unit is at work and finds the object. -/
def reachesB (s : State) (x : Src) (op : Op) (w : CmdW) : Bool :=
  takesB s x op w && (s.siteOf (s.caller x op w)).wing.all (fun v => s.active v && (v == srcWing x || !s.contained bSEAM)) &&
    s.mayUse (s.domOf x.pos) w.obj.toNat && !s.fileContained w.obj.toNat &&
    atHandB s w.obj.toNat && s.opsOkWith x.mates.1 (wingOf w.obj.toNat) (s.domOf x.pos) && s.opFreeWith x.mates.2 (wingOf w.obj.toNat) &&
    !s.mustFollow (srcHeld x op w) &&
    (!op.waits || s.slotCheck x.pos w.slot.toNat (wingOf w.obj.toNat) (s.domOf x.pos) == none)

theorem reaches_of {s : State} {x : Src} {op : Op} {w : CmdW} (h : reachesB s x op w = true) : s.reaches x op w := by
  unfold reachesB at h
  simp only [Bool.and_eq_true, Bool.not_eq_true'] at h
  obtain ⟨⟨⟨⟨⟨⟨⟨⟨h1, h2⟩, h3⟩, h4⟩, h5⟩, h6⟩, h7⟩, h8⟩, h9⟩ := h
  refine ⟨takes_of h1, h2, h3, h4, atHand_of h5, h6, h7, h8, ?_⟩
  intro hw
  simpa [hw] using h9

/-- A command on no object is heard. -/
def heardB (s : State) (x : Src) (op : Op) (w : CmdW) : Bool :=
  takesB s x op w && (s.siteOf (s.caller x op w)).wing.all (fun v => s.active v && (v == srcWing x || !s.contained bSEAM)) &&
    (!serviceOnly op || s.domOf x.pos == 0) &&
    ((s.slot x.pos w.slot.toNat).bind SlotRec.obj).all (fun o => (s.resident o).all (fun r => decide (s.badRows o r = []))) &&
    (!op.waits || s.slotCheck x.pos w.slot.toNat (posWing x.pos) (s.domOf x.pos) == none)

theorem heard_of {s : State} {x : Src} {op : Op} {w : CmdW} (h : heardB s x op w = true) : s.heard x op w := by
  unfold heardB at h
  simp only [Bool.and_eq_true, Bool.or_eq_true, Bool.not_eq_true', beq_iff_eq] at h
  obtain ⟨⟨⟨⟨h1, h2⟩, h3⟩, h5⟩, h4⟩ := h
  refine ⟨takes_of h1, h2, h3, fun _ o r ho hr => ?_, ?_⟩
  · rw [ho, Option.all_some, hr, Option.all_some] at h5
    exact of_decide_eq_true h5
  intro hw
  simpa [hw] using h4

theorem slots_of {l : List Waiter} (h : decide ((l.map (fun y => 8 * y.pos + y.slot)).Nodup) = true) : distinctSlots l := by
  unfold distinctSlots
  exact of_decide_eq_true h

/-! ### Objects: states and operands that meet the hypotheses -/

/-- A flag at object 0x100, file a, with a waiter on slot 1 of position 400 when it is clear. -/
def flagUp (b : Bool) : State := put live 0x100 (.flag b 3)
def flagWait : State := wait (flagUp false) 0x100 400 1 .flag 0x100

theorem test_flags_do :
    (flagWait.reaches (at_ 6) .flagSet (word 0x100 0 0) ∧ distinctSlots (flagWait.waiters 0x100)) ∧
    (flagUp true).reaches (onWin 400 .k) .flagSet (word 0x100 0 0) ∧
    flagWait.reaches (at_ 6) .flagClear (word 0x100 0 0) ∧
    (∀ b, (flagUp b).reaches (at_ 6) .wait (waitWord 0x100 0 0) ∧
      (flagUp b).waitFormat ((flagUp b).caller (at_ 6) .wait (waitWord 0x100 0 0)) = none) :=
  ⟨⟨reaches_of (by decide), slots_of (by decide)⟩, reaches_of (by decide), reaches_of (by decide),
    fun b => ⟨reaches_of (by cases b <;> decide), by cases b <;> decide⟩⟩

/-- A semaphore at object 0x101, file b, and the same with a taker of 2 waiting. -/
def semUp (n : Nat) : State := put live 0x101 (.sem n)
def semWait (n : Nat) : State := wait (semUp n) 0x101 400 1 (.amount 2) 0x101

theorem test_semaphores_do :
    ((semWait 1).reaches (at_ 6) .semPost (word 0x101 0 1) ∧ distinctSlots ((semWait 1).waiters 0x101)) ∧
    ((semUp 2).reaches (at_ 6) .semTake (waitWord 0x101 0 2) ∧ (semUp 2).waiters 0x101 = []) ∧
    (semUp 1).reaches (onWin 400 .k) .semTake (waitWord 0x101 0 2) ∧
    ((semWait 2).reaches (at_ 6) .semTake (waitWord 0x101 0 2) ∧ (semWait 2).waiters 0x101 ≠ []) ∧
    (semUp 2).reaches (at_ 6) .semTry (word 0x101 0 2) ∧ (semUp 1).reaches (at_ 6) .semTry (word 0x101 0 2) ∧
    (semWait 2).reaches (at_ 6) .semTry (word 0x101 0 2) :=
  ⟨⟨reaches_of (by decide), slots_of (by decide)⟩, ⟨reaches_of (by decide), by decide⟩, reaches_of (by decide),
   ⟨reaches_of (by decide), by decide⟩, reaches_of (by decide), reaches_of (by decide), reaches_of (by decide)⟩

/-- A token at object 0x102, file c, of capacity 5; with givers positions 6 and 7; with a taker waiting. -/
def tok (n : Nat) (givers : List Ent) : Token :=
  { credits := n, capacity := 5, gcount := givers.length, gbase := 0, givers := givers, nextGiver := 0 }
def ent (p : Nat) : Ent := { arr := false, adv := false, res := false, relay := false, who := p }
def tokUp (n : Nat) (givers : List Ent) : State := put live 0x102 (.token (tok n givers))
def tokWait (n : Nat) : State := wait (tokUp n []) 0x102 400 1 (.amount 3) 0x102

theorem test_tokens_do :
    ((tokWait 2).reaches (at_ 6) .tokenGive (word 0x102 0 1) ∧ distinctSlots ((tokWait 2).waiters 0x102) ∧ (tok 2 []).binding = false) ∧
    ((tokUp 4 [ent 6, ent 7]).reaches (at_ 6) .tokenGive (word 0x102 0 1) ∧ (tok 4 [ent 6, ent 7]).binding = false ∧
      nextLive [ent 6, ent 7] 0 = some 0) ∧
    (tokUp 2 []).reaches (at_ 6) .tokenTake (waitWord 0x102 0 2) ∧
    (tokUp 1 []).reaches (at_ 6) .tokenTake (waitWord 0x102 0 5) ∧
    ((tokWait 2).reaches (onWin 6 .q) .tokenTake (waitWord 0x102 0 2) ∧ (tokWait 2).waiters 0x102 ≠ []) ∧
    (tokUp 2 []).reaches (at_ 6) .tokenTry (word 0x102 0 2) ∧ (tokUp 2 []).reaches (at_ 6) .tokenTry (word 0x102 0 5) :=
  ⟨⟨reaches_of (by decide), slots_of (by decide), by decide⟩, ⟨reaches_of (by decide), by decide, by decide⟩, reaches_of (by decide),
   reaches_of (by decide), ⟨reaches_of (by decide), by decide⟩, reaches_of (by decide), reaches_of (by decide)⟩

/-- The token with givers positions 6 and 7, for which a taker waits. -/
def tokShort : State := wait (tokUp 0 [ent 6, ent 7]) 0x102 400 1 (.amount 3) 0x102

/-- A notice reaches its positions, as a test. -/
def tellableB (s : State) (obj p : Nat) : Bool :=
  (s.dests p).all (fun q => s.active (posWing q) && (posWing q == wingOf obj || !s.contained bSEAM) && decide (s.severity (bWAKE (posWing q)) 1 < 3))

theorem tellable_of {s : State} {obj p : Nat} (h : tellableB s obj p = true) : s.tellable obj p := by
  intro q hq
  have h1 := List.all_eq_true.mp h q hq
  simp only [Bool.and_eq_true, Bool.or_eq_true, beq_iff_eq, Bool.not_eq_true', decide_eq_true_eq] at h1
  exact ⟨h1.1.1, h1.1.2, h1.2⟩

/-- A giver's turn passes while a taker waits, and a take that waits: position 7 and position 6 are told. -/
theorem test_tokens_tell :
    (tokShort.reaches (at_ 6) .tokenGive (word 0x102 0 1) ∧ distinctSlots (tokShort.waiters 0x102) ∧
      nextLive [ent 6, ent 7] 0 = some 0 ∧ (serve (tokShort.waiters 0x102) 1).2.1 ≠ [] ∧ (nextLive [ent 6, ent 7] 1).getD 0 = 1 ∧
      ({ tok 0 [ent 6, ent 7] with nextGiver := 1 } : Token).expected = some (ent 7) ∧ tokShort.tellable 0x102 7) ∧
    ((tokUp 0 [ent 6, ent 7]).reaches (at_ 7) .tokenTake (waitWord 0x102 0 2) ∧ (tokUp 0 [ent 6, ent 7]).waiters 0x102 = [] ∧
      (tok 0 [ent 6, ent 7]).expected = some (ent 6) ∧ (tokUp 0 [ent 6, ent 7]).tellable 0x102 6) :=
  ⟨⟨reaches_of (by decide), slots_of (by decide), by decide, by decide, by decide, by decide, tellable_of (by decide)⟩,
   ⟨reaches_of (by decide), by decide, by decide, tellable_of (by decide)⟩⟩

/-- A lock at object 0x103, file d: free, held by position 400, and held with position 400 waiting. -/
def lck (who : Option Nat) (orphaned : Bool) : Lock :=
  { holder := (5 : BitVec 16) ++ BitVec.ofNat 10 (who.getD 0), held := who.isSome, orphaned := orphaned, prio := 0, eff := 0, global := none }
def lockUp (who : Option Nat) (orphaned : Bool) : State := put live 0x103 (.lock (lck who orphaned))
def lockWait : State := wait (lockUp (some 6) false) 0x103 400 1 (.lock false) (BitVec.ofNat 51 (5 * 1024 + 6))
/-- Position 6 holds lock 0x10B, for which the holder of lock 0x103 waits. -/
def lockChain : State := { lockUp (some 400) false with lockDir := [(6, [(0x10B, .held)]), (400, [(0x103, .held), (0x10B, .pending)])] }
/-- The DATA of a lock command of a position: its identity. -/
def idWord (p : Nat) : CmdW := word 0x103 0 (BitVec.ofNat 64 (5 * 1024 + p))
def idWait (p : Nat) : CmdW := waitWord 0x103 0 (BitVec.ofNat 64 (5 * 1024 + p))

theorem test_locks_grant :
    ((lockUp none true).reaches (at_ 6) .lockAcquire (idWait 6) ∧ (lockUp none true).acquiring 0x103 6 = false ∧
      (lockUp none true).mayLock 0x103 6 = true) ∧
    ((lockUp none false).reaches (at_ 6) .lockTry (idWord 6) ∧ (lockUp none false).acquiring 0x103 6 = false) ∧
    ((lockUp (some 400) false).reaches (at_ 6) .lockTry (idWord 6) ∧ (lockUp (some 400) false).acquiring 0x103 6 = false) ∧
    (lockChain.reaches (at_ 6) .lockAcquire (idWait 6) ∧
      lockChain.stalemate 0x103 6 (lck (some 400) false).holder = some 400) ∧
    ((lockUp (some 400) false).reaches (at_ 6) .lockAcquire (idWait 6) ∧
      (lockUp (some 400) false).stalemate 0x103 6 (lck (some 400) false).holder = none ∧
      (lockUp (some 400) false).mayLock 0x103 6 = true) :=
  ⟨⟨reaches_of (by decide), by decide, by decide⟩, ⟨reaches_of (by decide), by decide⟩, ⟨reaches_of (by decide), by decide⟩,
   ⟨reaches_of (by decide), by decide +kernel⟩, ⟨reaches_of (by decide), by decide, by decide⟩⟩

/-- The lock of position 6, for which position 400 waits at priority 0 behind position 7 at priority 2. -/
def lockQueue : State := { lockUp (some 6) false with
  waitq := [(0x103, [{ pos := 7, slot := 1, prio := 2, kind := .lock false }, { pos := 400, slot := 1, prio := 0, kind := .lock false }])]
  slots := [(57, some (boundSlot 0x103 1 0)), (3201, some (boundSlot 0x103 1 0))] }

/-- A waiter of a higher priority, and a handoff that leaves one behind: the holder is told. -/
theorem test_locks_tell :
    ((lockUp (some 400) false).reaches (at_ 6) .lockAcquire { idWait 6 with prio := 2 } ∧
      (lockUp (some 400) false).localPos (lck (some 400) false).holder = some 400 ∧ (lockUp (some 400) false).tellable 0x103 400) ∧
    (lockQueue.reaches (at_ 6) .lockHandoff (idWord 400) ∧ distinctSlots (lockQueue.waiters 0x103) ∧
      ((lockQueue.waiters 0x103).find? (fun z => lockQueue.identity z.pos == (idWord 400).data.extractLsb' 0 26)).map Waiter.pos = some 400 ∧
      topPrio (dequeue (lockQueue.waiters 0x103) 400 1) = 2 ∧ lockQueue.localPos (lockQueue.identity 400) = some 400 ∧
      lockQueue.tellable 0x103 400) :=
  ⟨⟨reaches_of (by decide), by decide, tellable_of (by decide)⟩,
   ⟨reaches_of (by decide), slots_of (by decide), by decide, by decide, by decide, tellable_of (by decide)⟩⟩

theorem test_locks_pass :
    ((lockUp (some 6) false).reaches (at_ 6) .lockRelease (word 0x103 0 0) ∧
      (lck (some 6) false).holder = (lockUp (some 6) false).identity 6) ∧
    (lockWait.reaches (at_ 6) .lockRelease (word 0x103 0 0) ∧ distinctSlots (lockWait.waiters 0x103) ∧ lockWait.waiters 0x103 ≠ []) ∧
    (lockWait.reaches (at_ 6) .lockHandoff (idWord 400) ∧
      ((lockWait.waiters 0x103).find? (fun z => lockWait.identity z.pos == (idWord 400).data.extractLsb' 0 26)).isSome = true) :=
  ⟨⟨reaches_of (by decide), by decide⟩, ⟨reaches_of (by decide), slots_of (by decide), by decide⟩, ⟨reaches_of (by decide), by decide⟩⟩

/-- A barrier at object 0x104, file e, in generation 4. -/
def bar (members : List Ent) (pwords : Nat) : Barrier :=
  { gen := 4, arrived := (members.filter Ent.arr).length, advQ := [], mbase := 0, mcount := members.length, members := members
    pwords := pwords, combine := if pwords = 0 then 0 else 0x12, accBase := 0, fallAfter := 16, deadline := 0, abortOnFall := true
    holdEligible := false, parent := none, fallen := false, combining := false, holding := false, parentWait := false, folded := 0
    note := false, relNote := false }
def arrived (e : Ent) : Ent := { e with arr := true }
def barUp (b : Barrier) : State := put live 0x104 (.barrier b)
/-- The word of an arrival for a generation. -/
def arr (g : BitVec 20) (staged : Bool) : CmdW := { word 0x104 g 0 with staged := staged }
def arrWait (g : BitVec 20) : CmdW := waitWord 0x104 g 0
/-- A barrier with a payload of two words, both of which position 6 has written. -/
def barStaged : State := { barUp (bar [ent 6, ent 400] 2) with
  stages := tset none [] (stageKey 0x104 6) (some { acc := 9, dom := 1, written := 3, data := 5, claimed := false })
  ablocks := [{ wing := .k, base := 9, size := 1, lost := false }] }

theorem test_barrier_arrives :
    ((barUp (bar [ent 6, ent 400] 0)).reaches (at_ 6) .arrive (arr 4 false) ∧
      agentIdx [ent 6, ent 400] 6 = some 0 ∧ genDist (arr 4 false).gen16 4 = 0) ∧
    ((barUp (bar [ent 6, ent 400] 0)).reaches (at_ 6) .arriveWait (arrWait 4)) ∧
    (barStaged.reaches (at_ 6) .arrive (arr 4 true) ∧ barStaged.stagedCheck 0x104 (bar [ent 6, ent 400] 2) 6 = none) ∧
    ((barUp (bar [arrived (ent 6), ent 400] 0)).reaches (at_ 6) .arrive (arr 5 false) ∧ genDist (arr 5 false).gen16 4 = 1) ∧
    (barUp (bar [arrived (ent 6), ent 400] 0)).reaches (at_ 6) .arriveWait (arrWait 5) :=
  ⟨⟨reaches_of (by decide), by decide, by decide⟩, reaches_of (by decide), ⟨reaches_of (by decide), by decide +kernel⟩,
   ⟨reaches_of (by decide), by decide⟩, reaches_of (by decide)⟩

/-- Position 400 has arrived and waits. -/
def barWait : State := wait (barUp (bar [ent 6, arrived (ent 400)] 0)) 0x104 400 1 (.gen 4) 0x104

theorem test_barrier_releases :
    (barWait.reaches (at_ 6) .arrive (arr 4 false) ∧ distinctSlots (barWait.waiters 0x104) ∧ (bar [ent 6, arrived (ent 400)] 0).binding = false) ∧
    barWait.reaches (at_ 6) .arriveWait (arrWait 4) :=
  ⟨⟨reaches_of (by decide), slots_of (by decide), by decide⟩, reaches_of (by decide)⟩

/-- The same with an advance arrival of position 400 held, with a payload, and with a parent relay that is not there. -/
def barAhead : State := barUp { bar [ent 6, { arrived (ent 400) with adv := true }] 0 with advQ := [(1, false)] }
def barLast (pwords : Nat) (parent : Option Nat) : State := barUp { bar [ent 6, arrived (ent 400)] pwords with parent := parent }

theorem test_barrier_last_arrivals :
    (barAhead.reaches (at_ 6) .arrive (arr 4 false) ∧ [ent 6, { arrived (ent 400) with adv := true }][0]? = some (ent 6) ∧ (ent 6).live = true) ∧
    ((barLast 2 none).reaches (at_ 6) .arrive (arr 4 false) ∧ (barLast 2 none).reaches (at_ 6) .arriveWait (arrWait 4)) ∧
    ((barLast 0 (some 0x106)).reaches (at_ 6) .arrive (arr 4 false) ∧ (barLast 0 (some 0x106)).reaches (at_ 6) .arriveWait (arrWait 4) ∧
      (barLast 0 (some 0x106)).takesChild 0x106 = false) :=
  ⟨⟨reaches_of (by decide), by decide, by decide⟩, ⟨reaches_of (by decide), reaches_of (by decide)⟩,
   ⟨reaches_of (by decide), reaches_of (by decide), by decide⟩⟩

theorem test_barrier_answers :
    ((barUp (bar [ent 6, ent 400] 0)).reaches (at_ 6) .wait (arrWait 3) ∧ genDist (arrWait 3).gen16 4 = 0xFFFF) ∧
    (barUp (bar [ent 6, ent 400] 0)).reaches (at_ 6) .wait (arrWait 4) ∧ (barUp (bar [ent 6, ent 400] 0)).reaches (at_ 6) .wait (arrWait 5) ∧
    (barUp (bar [ent 6, ent 400] 2)).reaches (at_ 6) .resultRead (word 0x104 1 3) :=
  ⟨⟨reaches_of (by decide), by decide⟩, reaches_of (by decide), reaches_of (by decide), reaches_of (by decide)⟩

/-- The word of a payload write: word index and value. -/
def payWord (i : BitVec 20) (v : BitVec 64) : CmdW := word 0x104 i v

theorem test_payload_writes :
    ((barStaged.reaches (at_ 6) .payloadWrite (payWord 1 8)) ∧ (barStaged.stage 0x104 6).isSome = true ∧
      (bar [ent 6, ent 400] 2).binding = false) ∧
    ((barUp (bar [ent 6, ent 400] 2)).reaches (at_ 6) .payloadWrite (payWord 0 8) ∧
      (barUp (bar [ent 6, ent 400] 2)).stage 0x104 6 = none ∧ (barUp (bar [ent 6, ent 400] 2)).accOk .k 1 1 = true ∧
      ((barUp (bar [ent 6, ent 400] 2)).allocAccs .k 1).isSome = true) :=
  ⟨⟨reaches_of (by decide), by decide +kernel, by decide⟩, ⟨reaches_of (by decide), by decide, by decide, by rfl⟩⟩

/-- A ledger at object 0x105, file f, with LOW 2, window 4, and consumer position 7. -/
def led (chunks : Table (Option Chunk)) (owed : Bool) : Ledger :=
  { eager := true, faulted := false, lepoch := 0, low := 2, owedFirst := 2, ccount := 1, cbase := 0
    consumers := [{ ent 7 with arr := owed }], window := 4, accBase := 0, chunks := chunks }
def chunk (st : ChunkSt) (crc : BitVec 32) (replays : Nat) : Option Chunk :=
  some { st := st, crc := crc, producer := 6, replays := replays, taint := 0, taintAll := false }
def ledUp (chunks : Table (Option Chunk)) (owed : Bool) : State := put live 0x105 (.ledger (led chunks owed))
/-- The DATA of a ledger command: chunk and CRC. -/
def ledWord (c : BitVec 24) (crc : BitVec 32) : CmdW := word 0x105 0 ((crc ++ c).zeroExtend 64)
/-- Chunk 2 posted, chunk 3 committed, chunk 4 poisoned; position 7 waits on chunk 5 eagerly and position 400 on chunk 2. -/
def ledMixed : State := wait (wait
  (ledUp [(2, chunk .provisional 9 0), (3, chunk .committed 9 0), (4, chunk .poisoned 0 1)] false) 0x105 7 1 (.chunk 5 true) 0x105)
  0x105 400 1 (.chunk 2 false) 0x105

theorem test_ledger_posts :
    (ledMixed.reaches (at_ 6) .ledgerPost (ledWord 5 9) ∧ (led [] false).locate 5 = .inWindow ∧ distinctSlots (ledMixed.waiters 0x105)) ∧
    ledMixed.reaches (onWin 6 .k) .ledgerPost (ledWord 4 9) :=
  ⟨⟨reaches_of (by decide +kernel), by decide, slots_of (by decide +kernel)⟩, reaches_of (by decide +kernel)⟩

theorem test_ledger_checks :
    (ledMixed.reaches (at_ 7) .ledgerCheck (ledWord 2 9) ∧ (led [] false).consumer 7 = some 0 ∧ distinctSlots (ledMixed.waiters 0x105)) ∧
    (ledMixed.reaches (at_ 7) .ledgerCheck (ledWord 2 8) ∧ ledMixed.severity (bFIL 5) 1 < 3) ∧
    ledMixed.reaches (at_ 7) .ledgerCheck (ledWord 3 9) ∧
    (ledMixed.reaches (at_ 7) .ledgerCheck (ledWord 1 9) ∧ (led [] false).locate 1 = .retired) ∧
    ledMixed.reaches (at_ 7) .ledgerCheck (ledWord 4 9) :=
  ⟨⟨reaches_of (by decide +kernel), by decide, slots_of (by decide +kernel)⟩, ⟨reaches_of (by decide +kernel), by decide⟩, reaches_of (by decide +kernel),
   ⟨reaches_of (by decide +kernel), by decide⟩, reaches_of (by decide +kernel)⟩

theorem test_ledger_reads :
    (ledMixed.reaches (at_ 6) .ledgerRead (ledWord 4 0) ∧ (led [] false).consumer 6 = none) ∧
    ledMixed.reaches (at_ 6) .wait { ledWord 3 0 with slot := 2, wait := true } ∧
    ledMixed.reaches (at_ 6) .wait { ledWord 2 0 with slot := 2, wait := true } ∧
    (ledUp [] true).reaches (at_ 7) .ledgerRead (ledWord 4 0) ∧
    ((ledUp [] true).reaches (at_ 7) .wait { ledWord 4 0 with slot := 2, wait := true }) :=
  ⟨⟨reaches_of (by decide +kernel), by decide⟩, reaches_of (by decide +kernel), reaches_of (by decide +kernel), reaches_of (by decide), reaches_of (by decide)⟩

/-- A block with a closed record resident at an object number. -/
def closedAt (n : Nat) : State :=
  { live with recs := [(n, some { slot := 0, obj := none, touched := true, evicting := false })] }
/-- OPEN of a barrier of two members with a payload of two words. -/
def openBar : CmdW := word 0x104 0x10002 0x212
/-- Group 1, in which this chip takes part at its board. -/
def grp1 : GroupEnt :=
  { valid := true, top := 1, arity := 2, owner := 1, seats := 3, clusters := 0, boards := 0, fallL1 := 0, fallL2 := 0, fallL3 := 0
    arbL1 := some 0, arbL2 := none, arbL3 := none }
/-- The same with a barrier at 0x104 and group 1 UP, for a relay at 0x106. -/
def relayReady : State :=
  let s := { put (closedAt 0x106) 0x104 (.barrier (bar [ent 6] 0)) with groups := [(1, { GroupSt.absent with state := .up })] }
  { s with img := { s.img with groups := [{ grp1 with valid := false }, grp1] } }

theorem test_objects_open :
    ((closedAt 0x104).reaches (at_ 6) .open openBar ∧ (closedAt 0x104).obj 0x104 = none ∧
      ((closedAt 0x104).allocate 0x104 1 (openBodyOf openBar)).isOk = true) ∧
    ({ closedAt 0x104 with use := [(wd .k 1, { Use.zero with objs := 100 })] }.reaches (at_ 6) .open openBar) ∧
    (relayReady.reaches (at_ 6) .open (word 0x106 0x70005 0x104) ∧
      relayReady.relayMayOpen 1 { child := 0x104, level := 1, group := 1, pgen := 0, inFlight := false, handing := false } = true) :=
  ⟨⟨reaches_of (by decide), by decide, by rfl⟩, reaches_of (by decide), ⟨reaches_of (by decide +kernel), by decide +kernel⟩⟩

/-- A relay at 0x106 of the barrier at 0x104. -/
def relayUp : State :=
  put (put relayReady 0x104 (.barrier { bar [ent 6] 0 with parent := some 0x106 })) 0x106
    (.relay { child := 0x104, level := 1, group := 1, pgen := 4, inFlight := false, handing := false })

theorem test_objects_close :
    ((flagUp true).reaches (at_ 6) .close (word 0x100 0 0) ∧ (flagUp true).boundTo 0x100 = false ∧ (flagUp true).inFlight 0x100 = false ∧
      (Body.flag true 3).busy = false ∧ (ofBody (.flag true 3)).owner = (flagUp true).domOf 6) ∧
    (relayUp.reaches (at_ 6) .close (word 0x106 0 0) ∧ relayUp.boundTo 0x106 = false ∧ relayUp.inFlight 0x106 = false ∧
      (relayUp.obj 0x106).map (fun o => (o.owner, o.body.busy)) = some (relayUp.domOf 6, false) ∧ (relayUp.resident 0x104).isSome = true ∧
      (relayUp.barrier 0x104).all (fun b => !b.completing) = true) ∧
    (barStaged.reaches (at_ 6) .close (word 0x104 0 0) ∧ barStaged.boundTo 0x104 = false ∧ barStaged.inFlight 0x104 = false ∧
      (bar [ent 6, ent 400] 2).vacant = false ∧ (Body.barrier (bar [ent 6, ent 400] 2)).busy = false) ∧
    (flagWait.reaches (at_ 6) .close (word 0x100 0 0) ∧ flagWait.boundTo 0x100 = true ∧ flagWait.mayRefuse (at_ 6)) :=
  ⟨⟨reaches_of (by decide), by decide, by decide, by decide, by decide⟩,
   ⟨reaches_of (by decide +kernel), by decide, by decide +kernel, by decide +kernel, by decide +kernel, by decide +kernel⟩,
   ⟨reaches_of (by decide), by decide, by decide, by decide, by decide⟩,
   ⟨reaches_of (by decide), by decide, .inr (by decide)⟩⟩

/-- BIND_MEMBERS of position 400. -/
def bindWord (o : BitVec 20) : CmdW := word o 1 400

theorem test_objects_bind_and_pin :
    ((barUp { bar [ent 6] 0 with mcount := 2 }).reaches (at_ 6) .bindMembers (bindWord 0x104) ∧
      (barUp { bar [ent 6] 0 with mcount := 2 }).mayBind ((barUp { bar [ent 6] 0 with mcount := 2 }).caller (at_ 6) .bindMembers (bindWord 0x104))
        [ent 6] 2 true = true) ∧
    (put live 0x102 (.token { tok 0 [ent 6] with gcount := 2 })).reaches (at_ 6) .bindMembers (bindWord 0x102) ∧
    (put live 0x105 (.ledger { led [] false with ccount := 2 })).reaches (at_ 6) .bindMembers (bindWord 0x105) ∧
    ((flagUp true).reaches (at_ 6) .pin (word 0x100 0 0) ∧ (flagUp true).pinned 0 < 7680) ∧
    ({ flagUp true with recs := [(0x100, some { slot := 0, obj := some { ofBody (.flag true 3) with pinned := true }, touched := false
                                                evicting := false })] }.reaches (at_ 6) .unpin (word 0x100 0 0)) :=
  ⟨⟨reaches_of (by decide), by decide⟩, reaches_of (by decide), reaches_of (by decide), ⟨reaches_of (by decide), by decide⟩,
   reaches_of (by decide)⟩

/-- A block in which the owner of the flag has granted it to domain 0. -/
def granted : State := { flagUp true with files := [(0, { FileSt.empty with grants := [(0x100, 0)] })] }

theorem test_objects_grant :
    ((flagUp true).reaches (at_ 6) .grant (grantWord (word 0x100 0 0) false) ∧ (flagUp true).objsOk .q 1 = true) ∧
    (granted.reaches (at_ 6) .grant (grantWord (word 0x100 0 0) true) ∧ granted.involved 0x100 0 (.flag true 3) = false) :=
  ⟨⟨reaches_of (by decide), by decide⟩, ⟨reaches_of (by decide), by decide⟩⟩

/-! ### Commands on no object -/

/-- A remap has locked the row of the flag's record: slot 32 of file a, row 16 of bank 0. -/
def rowLocked : State := { flagUp true with wq := { live.wq with remapQ := [(0, 16)] } }

theorem test_checks_in_order :
    (live.presented (at_ 9) (word 0 0 0) ∧ (live.posEnt 9).enabled = false) ∧
    ({ live with spent := [(wd .q 1, 100)] }.presented (at_ 6) (word 0 0 0) ∧
      ({ live with spent := [(wd .q 1, 100)] }.takeToken .q 1) = none) ∧
    (live.enters (at_ 6) (word 1 0 0) ∧ formatReason .nop (word 1 0 0) false 0 = some 2) ∧
    ((flagUp true).takes (at_ 6) .flagSet (word 0x200 0 0) ∧ (flagUp true).mayUse 1 0x200 = false ∧
      (flagUp true).mustFollow (srcHeld (at_ 6) .flagSet (word 0x200 0 0)) = false) ∧
    ({ flagUp true with blks := [(bFIL 0, { Blk.reset with fstate := .contained })], trace := State.reset.trace }.takes (onWin 6 .q) .flagSet (word 0x100 0 0)) ∧
    ({ flagUp true with wq := { live.wq with opsTotal := 3584 } }.takes (at_ 6) .flagSet (word 0x100 0 0) ∧
      State.opFreeWith { flagUp true with wq := { live.wq with opsTotal := 3584 } } 0 .q = false) ∧
    (rowLocked.takes (at_ 6) .flagSet (word 0x100 0 0) ∧ rowLocked.mayUse 1 0x100 = true ∧
      (rowLocked.resident 0x100).any (rowLocked.rowBusy 0x100) = true) ∧
    (live.takes (at_ 6) .flagSet (word 0x100 0 0) ∧ live.resident 0x100 = none ∧ (live.file 0).pageins = []) ∧
    live.enters (onWin 6 .k) (word 0 0 0) :=
  ⟨⟨presented_of (by decide), by decide⟩, ⟨presented_of (by decide), by decide⟩, ⟨enters_of (by decide), by decide⟩,
   ⟨takes_of (by decide), by decide, by decide⟩, takes_of (by decide), ⟨takes_of (by decide), by decide⟩,
   ⟨takes_of (by decide), by decide, by decide⟩, ⟨takes_of (by decide), by decide, by decide⟩, enters_of (by decide)⟩

theorem test_nop_and_votes :
    live.heard (at_ 6) .nop (word 0 0 0) ∧ (live.heard (onWin 400 .k) .vote (word 0 3 0) ∧ maskWings 3 = [.q, .k] ∧ live.active .k = true) ∧
    { live with votes := [(voteKey .q 6, true)] }.heard (at_ 6) .unvote (word 0 1 0) :=
  ⟨heard_of (by decide), ⟨heard_of (by decide), by decide, by decide⟩, heard_of (by decide)⟩

/-- Slot 1 of position 400 is READY, and position 6 has a notice. -/
def readySlot : State := { flagWait with
  slots := tset none [] (8 * 400 + 1) (some { boundSlot 0x100 1 0x100 with ready := some (.ok, 4) })
  waitq := [], notes := [(6, { words := [.giver 0x102 0 6 3], overflow := 0 })] }
/-- POLL and CANCEL_WAIT of a slot. -/
def slotWord (i : BitVec 3) : CmdW := { word 0 0 0 with slot := i }

theorem test_slots_poll :
    (flagWait.heard (at_ 400) .poll (slotWord 1) ∧ (flagWait.slot 400 1).any (fun r => r.ready.isNone) = true) ∧
    (readySlot.heard (at_ 400) .poll (slotWord 1) ∧ (readySlot.slot 400 1).any (fun r => r.ready == some (.ok, 4)) = true) ∧
    readySlot.heard (at_ 400) .cancelWait (slotWord 1) ∧
    (readySlot.heard (at_ 6) .poll (slotWord 7) ∧ (readySlot.noteQ 6).words ≠ []) ∧
    (flagWait.heard (at_ 6) .cancelWait (slotWord 7) ∧ flagWait.noteQ 6 = NoteQ.empty) :=
  ⟨⟨heard_of (by decide +kernel), by decide +kernel⟩, ⟨heard_of (by decide +kernel), by decide +kernel⟩, heard_of (by decide +kernel),
   ⟨heard_of (by decide +kernel), by decide⟩, ⟨heard_of (by decide +kernel), by decide⟩⟩

/-- A request of position 6 that waits for a hold, and a granted hold of position 5. -/
def holdRec (p d : Nat) (granted : Option Nat) : HoldRec :=
  { who := .pos p, slot := 2, dom := d, us := 5, urgent := false, at_ := 0, granted := granted, forced := granted.isSome, barriers := [] }
def holdsWith (forced : Bool) (l : List HoldRec) : State :=
  { live with holds := { live.holds with recs := l, forced := forced, grantsDone := forced } }
def holdAsked : State := { holdsWith false [holdRec 6 1 none] with
  slots := [(50, some { obj := none, home := .tcu, dom := 1, qwing := .q, value := 0, entry := none, ready := none })] }

theorem test_waits_cancel :
    (flagWait.heard (at_ 400) .cancelWait (slotWord 1) ∧ (flagWait.resident 0x100).isSome = true ∧
      ((flagWait.waiters 0x100).find? (fun z => z.pos == 400 && z.slot == 1)).isSome = true) ∧
    (holdAsked.heard (at_ 6) .cancelWait (slotWord 2) ∧ (holdAsked.slot 6 2).any (fun r => r.obj.isNone && r.ready.isNone) = true) :=
  ⟨⟨heard_of (by decide +kernel), by decide, by decide⟩, ⟨heard_of (by decide +kernel), by decide +kernel⟩⟩

/-- HOLD_REQUEST for 5 µs on slot 2. -/
def holdWord : CmdW := waitWord 0 5 0

theorem test_holds_ask :
    ((holdsWith true [holdRec 400 0 (some 9000000)]).heard (at_ 5) .holdRequest holdWord ∧
      (holdsWith true [holdRec 400 0 (some 9000000)]).holdOf (.pos 5) = none) ∧
    (live.heard (at_ 6) .holdRequest holdWord ∧ live.opsOk .q 1 = true ∧ live.opFree .q = true) ∧
    ((holdsWith false [holdRec 6 1 (some 9000000)]).heard (at_ 6) .holdDone (word 0 0 0) ∧
      (holdsWith false [holdRec 6 1 (some 9000000)]).holding (.pos 6) = true ∧ (holdsWith false []).barriers = []) :=
  ⟨⟨heard_of (by decide), by decide⟩, ⟨heard_of (by decide), by decide, by decide⟩, ⟨heard_of (by decide), by decide, by decide⟩⟩

/-! ### Sequencers -/

/-- A ply that waits for nothing and ends: END alone, bit 88 (Table 7.3). -/
def endPly : BitVec 128 := BitVec.twoPow 128 88
/-- A ply that sets the flag at offset 0 of the sequencer's objects: KIND 2 in A0, bits 62:59, NEXT 1 (Tables 7.3 and 7.5). -/
def flagPly : BitVec 128 := BitVec.twoPow 128 108 ||| BitVec.twoPow 128 60
/-- Sequencer 0 of domain 1, acting as position 6, with objects from 0x100. -/
def seq0 : SeqEnt :=
  { enabled := true, autostart := false, actPos := 6, dom := 1, startPly := 0, objBase := 0x100, w0 := 4, w1 := 4, w2 := 4, w3 := 4 }
/-- A ply that waits for watch 0 and arrives at the barrier of watch 1, with END (Tables 7.3 to 7.5). -/
def watchPly : BitVec 128 := BitVec.twoPow 128 88 ||| BitVec.twoPow 128 85 ||| BitVec.twoPow 128 65 ||| BitVec.twoPow 128 59 ||| BitVec.twoPow 128 42
def seqUp (s : State) (q : Seq) : State :=
  { s with img := { s.img with seqs := [seq0], plies := [endPly, flagPly, watchPly] }, seqs := tset Seq.reset [] 0 q }
def seqAt (st : SeqState) (cur : Option (BitVec 128)) : Seq := { Seq.reset with state := st, cur := cur }

/-- A ply may start, as a test: it is at hand, its row reads clean, and its objects are there. -/
def startsB (s : State) (n : Nat) (p : BitVec 128) : Bool :=
  decide (s.ply n = some p) && !plyReserved p && s.img.plyValid n && plyWcond p != 6 && decide (s.running 1 < (s.domain 1).seqRun) &&
    s.opsOk .q 1 && s.opFree .q && decide (s.held = []) && decide (s.seam = []) && decide (s.onHold = []) && !s.displacedPly n &&
    !s.mustWait (some .q) (s.plyHalf n) && decide (s.lockedRow (plyWing n) = none) &&
    decide (s.rowFind (plyWing n) (28672 + plyRow n) = .clean) &&
    (seq0.plyObjs p).all (fun o => s.mayUse 1 o && atHandB s o && !s.mustWait (some .q) (wingOf o))

theorem test_sequencers_start :
    ((seqUp live Seq.reset).heard (at_ 6) .seqStart (word 0 0 0) ∧ (seqUp live Seq.reset).seqVisible 0 1 = true ∧
      startsB (seqUp live Seq.reset) 0 endPly = true ∧ plyActions endPly = [] ∧ seq0.waitObj endPly = none) ∧
    ((seqUp (barUp (bar [ent 6] 0)) Seq.reset).heard (at_ 6) .seqStart (word 0 0 2) ∧
      startsB (seqUp (barUp (bar [ent 6] 0)) Seq.reset) 2 watchPly = true ∧ seq0.plyObjs watchPly = [0x104, 0x104] ∧
      plyWcond watchPly = 1 ∧ seq0.waitObj watchPly = some 0x104 ∧
      ((seqUp (barUp (bar [ent 6] 0)) Seq.reset).obj 0x104).map (fun y => y.body.typeCode) = some 1) ∧
    (seqUp live (seqAt .waiting (some endPly))).heard (at_ 6) .seqStop (word 0 0 0) ∧
    (seqUp live (seqAt .acting (some flagPly))).heard (at_ 6) .seqStop (word 0 0 0) :=
  ⟨⟨heard_of (by decide), by decide, by decide +kernel, by decide +kernel, by decide +kernel⟩,
   ⟨heard_of (by decide), by decide +kernel, by decide +kernel, by decide +kernel, by decide +kernel, by decide⟩,
   heard_of (by decide), heard_of (by decide)⟩

/-! ### Registers -/

/-- READ_REG of an offset. -/
def regWord (off : BitVec 20) : CmdW := word 0 off 0

theorem test_registers_read_and_write :
    (live.heard (at_ 6) .readReg (regWord 0x00004) ∧ regAt 4 ≠ none ∧ regAt 0x3FFFC = none ∧
      live.heard (at_ 6) .readReg (regWord 0x3FFFC) ∧ live.heard (at_ 5) .writeReg (word 0 0x3FFFC 1)) ∧
    (live.heard (onWin 6 .q) .readReg (regWord 0x10180) ∧ regAt 0x10180 = some .pwrStat) ∧
    (live.heard (at_ 5) .readReg (regWord 0x10000) ∧ regAt 0x10000 = some (.fault bTCU 0) ∧ (live.blk bTCU).parityIn = 0) ∧
    (live.heard (at_ 5) .writeReg (word 0 0x10004 3) ∧ regAt 0x10004 = some (.fault bTCU 1) ∧ (Reg.fault bTCU 1).writable = true) :=
  ⟨⟨heard_of (by decide +kernel), by decide +kernel, by decide +kernel, heard_of (by decide +kernel), heard_of (by decide +kernel)⟩,
   ⟨heard_of (by decide +kernel), by decide +kernel⟩, ⟨heard_of (by decide +kernel), by decide +kernel, by decide⟩,
   ⟨heard_of (by decide +kernel), by decide +kernel, by decide⟩⟩

/-- Every register write with a row of its own is heard from domain 0. -/
theorem test_clears_heard :
    (∀ y ∈ ([(0x70040, 16), (0xB0040, 16), (0x70044, 31), (0xB0044, 31), (0x70058, 31), (0xB0058, 31), (0x78040, 31), (0xB8040, 31),
        (0x58000, 31), (0x98000, 31), (0x60120, 31), (0xA0120, 31), (0x30040, 31), (0x30044, 31), (0x40044, 31), (0x8C044, 31),
        (0x400A0, 31), (0x1010C, 31), (0x1010C, 30), (0xC0048, 31), (0xCF048, 31), (0xE010C, 31), (0x10144, 31), (0x1019C, 31),
        (0x20014, 31), (0x10200, 31)] : List (Nat × Nat)),
      heardB live (at_ 5) .writeReg (writeWord 0x21 y.1 (2 ^ y.2)) = true) ∧
    live.heard (at_ 5) .writeReg (writeWord 0x21 0x20014 0) ∧ live.heard (at_ 5) .writeReg (writeWord 0x21 0x1023C 9) ∧ live.domOf 5 = 0 :=
  ⟨by decide +kernel, heard_of (by decide +kernel), heard_of (by decide +kernel), by decide⟩

/-- A TCU block with SUSPECT and HOLD_OVERRUN set. -/
def tcuSet : State := { live with blks := [(bTCU, (Blk.reset.setBit 0).setBit 2)] }

theorem test_status_clears :
    (tcuSet.heard (at_ 5) .clearStatus (word 0 0x10000 0x000100000005) ∧ faultRegAt 0x10000 = some (bTCU, 0) ∧
      (tcuSet.blk bTCU).fstate = .normal ∧ tcuSet.conds = []) ∧
    tcuSet.heard (at_ 5) .clearStatus (word 0 0x10000 0x000200000005) :=
  ⟨⟨heard_of (by decide +kernel), by decide +kernel, by decide, by decide⟩, heard_of (by decide +kernel)⟩

/-- A block in which domain 0 may use an object of domain 1. -/
def toZero (s : State) (n : Nat) : State := s.modFile (fileOf n) (fun f => { f with grants := [(n, 0)] })

theorem test_members_resign :
    ((toZero (barUp (bar [ent 6, ent 400] 0)) 0x104).reaches (at_ 5) .resign (word 0x104 0 6) ∧
      entIdx [ent 6, ent 400] (entryOf (word 0x104 0 6).ent0).relay (entryOf (word 0x104 0 6).ent0).who = some 0 ∧
      (toZero (barUp (bar [ent 6, ent 400] 0)) 0x104).stage 0x104 6 = none) ∧
    ((toZero (tokUp 4 [ent 6, ent 7]) 0x102).reaches (at_ 5) .resign (word 0x102 0 7) ∧ (entryOf (word 0x102 0 7).ent0).who = 7) ∧
    ((toZero (ledUp [] true) 0x105).reaches (at_ 5) .resign (word 0x105 0 7) ∧ (ledUp [] true).domOf 5 = 0) :=
  ⟨⟨reaches_of (by decide), by decide, by decide⟩, ⟨reaches_of (by decide), by decide⟩, ⟨reaches_of (by decide), by decide⟩⟩

/-- A block with a spare position 8 and a notice for position 7, and one with the spare 402 in the kingside wing, which is IDLE. -/
def spare : State := { live with
  posmap := tset PosEnt.disabled live.posmap 8 { spare := true, enabled := false, schedPos := 0, dom := 0 }
  notes := [(7, { words := [.giver 0x102 0 6 3], overflow := 0 })] }
def farSpare : State := { spare with
  posmap := tset PosEnt.disabled live.posmap 402 { spare := true, enabled := false, schedPos := 0, dom := 0 }
  wk := { live.wk with pwr := { live.wk.pwr with state := .idle } } }

theorem test_positions_move :
    (live.heard (at_ 5) .reassign (word 0 7 0) ∧ live.engaged 7 = false ∧ (live.domain 0).enabled = true ∧ (live.posEnt 7).dom ≠ 0) ∧
    (spare.heard (at_ 5) .remap (word 0 7 8) ∧ spare.engaged 7 = false ∧ (spare.posEnt 8).spare = true ∧ (spare.posEnt 7).schedPos ≠ 7 ∧
      spare.noteQ 8 = NoteQ.empty ∧ (spare.noteQ 7).words = [.giver 0x102 0 6 3] ∧ posWing 7 = posWing 8) ∧
    (farSpare.heard (at_ 5) .remap (word 0 7 402) ∧ farSpare.engaged 7 = false ∧ (farSpare.posEnt 402).spare = true ∧ posWing 402 = .k ∧
      farSpare.seamOpen .k = false ∧ farSpare.noteQ 402 = NoteQ.empty ∧ farSpare.seam = []) :=
  ⟨⟨heard_of (by decide), by decide +kernel, by decide, by decide⟩,
   ⟨heard_of (by decide), by decide +kernel, by decide, by decide, by decide, by decide, by decide⟩,
   ⟨heard_of (by decide), by decide +kernel, by decide, by decide, by decide, by decide, by decide⟩⟩

/-! ### Answers, wakes and ticks -/

/-- Between two steps, as a test. -/
def betweenB (s : State) : Bool :=
  calmB s && s.ready && !s.inReset

theorem between_of {s : State} (h : betweenB s = true) : s.between := by
  unfold betweenB at h
  simp only [Bool.and_eq_true, Bool.not_eq_true'] at h
  exact ⟨calm_of h.1.1, h.1.2, h.2⟩

/-- A NOP of position 6 that waits at the queenside window. -/
def nopHeld : Held := { winHeld .q 6 (0, 0) .nop false (word 0 0 0) with n := 1, came := 3 }
/-- An answer in entry 0 of position 6, one waiting for lane L of position 6 and of position 7, where it was held, and the NOP. -/
def answering : State := { live with
  entries := tset Entry.empty [] (EntryId.key ⟨.q, 6, 0⟩) { Entry.empty with resp := some { status := .ok, tag := 1, value := 2 }, isDone := true }
  lanes := [(6, { Lanes.empty with queue := [Late.plain { status := .refusedState, tag := 3, value := 0 }] }),
            (7, { Lanes.empty with queue := [{ Late.plain { status := .busy, tag := 3, value := 0 } with caught := true }] })]
  held := [nopHeld] }
/-- The slot path of position 6 to an object of file a, which enters its safe state. -/
def caughtAt : Src := { pos := 6, path := .caught 0 (bFIL 0), queue := 0, mates := (0, 0), strikes := Strikes.none }

theorem test_answers_reach :
    (answering.between ∧ (answering.entry ⟨.q, 6, 0⟩).slot = none ∧ (answering.lane 6).queue.map (fun r => r.resp.status) = [.refusedState] ∧
      (answering.lane 7).queue.map (fun r => r.resp.status) = [.busy] ∧
      (∀ h ∈ answering.held, h.isCaught = false) ∧ answering.active (posWing 6) = true ∧
      tget 0 answering.refusals (wd .q 1) + 1 < (answering.domain (answering.domOf 6)).refuseLimit ∧ answering.severity (bING .q) 1 < 3) ∧
    ((flagUp true).takes { caughtAt with path := .slot 0 } .flagSet (word 0x100 0 0) ∧
      (flagUp true).prompt ((flagUp true).siteOf ((flagUp true).caller { caughtAt with path := .slot 0 } .flagSet (word 0x100 0 0))) = true ∧
      (flagUp true).siteOf ((flagUp true).caller { caughtAt with path := .slot 0 } .flagSet (word 0x100 0 0)) ≠ .port) ∧
    ({ answering with held := [], entries := [] }.heard (onWin 6 .q) .nop (word 0 0 0) ∧
      ({ answering with entries := [] } : State).held.erase nopHeld = []) :=
  ⟨⟨between_of (by decide), by decide, by decide, by decide, by decide, by decide, by decide, by decide⟩,
   ⟨takes_of (by decide), by decide, by decide⟩, ⟨heard_of (by decide), by decide⟩⟩

/-- A SET beat of slot 1 for the leaf of position 6 on branch 0. -/
def beating : State := { live with
  wq := { live.wq with beats := [(3, encodeBeat .bind 2 1), (0, encodeBeat .set 1 0x40)] }, spent := [(wd .q 1, 50), (wd .k 0, 3)] }

theorem test_beats_and_buckets :
    (beating.between ∧ (popBeat 0 (beating.wing .q).beats).isSome = true ∧ beating.active .q = true) ∧
    beating.tickRests :=
  ⟨⟨between_of (by decide), by decide, by decide⟩, by decide, by decide, by decide, fun _ => rfl, by decide, by decide⟩

/-- A flag whose record, stored with a number, waits to be paged in, and one whose write-back is under way. -/
def paging (num : Nat) : State := { live with
  files := [(0, { FileSt.empty with pageins := [0x100] })]
  backing := [(0x100, some { epoch := 7, num := num, obj := some (ofBody (.flag true 3)) })] }
def evicting : State := { live with
  recs := [(0x100, some { slot := 0, obj := some (ofBody (.flag true 3)), touched := false, evicting := true })] }

/-- A FLAG_SET of the queenside window of position 6 that waits for the record of object 0x100. -/
def pageHeld : Held := { winHeld .q 6 (0, 0) .flagSet false (word 0x100 0 0) with place := .file 0x100, charged := true }
def pagingFor : State := { paging 0x100 with
  backing := [(0x100, some { epoch := 7, num := 0x100, obj := some (ofBody (.flag false 3)) })], held := [pageHeld]
  use := [(wd .q 1, { Use.zero with ops := 1 })], wq := { live.wq with opsTotal := 1 } }

theorem test_records_page_for :
    pagingFor.between ∧ pagingFor.active (wingOf 0x100) = true ∧ pagingFor.roomy 0 ∧ 0x100 ∈ (pagingFor.file 0).pageins.take 16 ∧
    pagingFor.resident 0x100 = none ∧ (pagingFor.pickSlot 0).isSome = true ∧ pagingFor.onHold = [] ∧ pageHeld.mute = false ∧
    pagingFor.contained bSEAM = false ∧ pagingFor.fileContained 0x100 = false ∧ pagingFor.upsets = [] ∧
    pagingFor.lockedRow (wingOf 0x100) = none ∧ pagingFor.waiters 0x100 = [] ∧ pagingFor.mayUse (pagingFor.domOf 6) 0x100 = true ∧
    pagingFor.opsOkWith 0 .q (pagingFor.domOf 6) = true ∧ pagingFor.opFreeWith 0 .q = true ∧
    pagingFor.entry { win := .q, pos := 6, t := 1 } = Entry.empty ∧ pageHeld.req = .win { win := .q, pos := 6, t := 1 } :=
  ⟨between_of (by decide), by decide, ⟨by decide, by decide⟩, by decide, by decide, by rfl, by decide, by decide, by decide, by decide,
   by decide, by decide, by decide, by decide, by decide, by decide, by decide, by decide⟩

theorem test_records_page :
    (∀ n ∈ [0x100, 0x200], (paging n).between ∧ (paging n).roomy 0 ∧ ((paging n).pickSlot 0).isSome = true ∧ (paging n).wanted 0x100 = false ∧
      (paging n).onHold = [] ∧ (paging n).mild (bFIL 0) 4 ∧ (paging n).iml.bootSeq = 7 ∧ 0x100 ∈ ((paging n).file 0).pageins.take 16) ∧
    (evicting.between ∧ evicting.stranded 0 = [] ∧ 33 ≤ evicting.freeSlots 0 ∧ evicting.active (wingOf 0x100) = true) :=
  ⟨by
    intro n h
    simp only [List.mem_cons, List.not_mem_nil, or_false] at h
    rcases h with rfl | rfl <;>
      exact ⟨between_of (by decide), ⟨by decide, by decide⟩, by rfl, by decide, by decide, by unfold State.mild; decide,
        by decide, by decide⟩,
   ⟨between_of (by decide), by decide, by decide, by decide⟩⟩

/-- A barrier with a payload, one operand of which waits in the combine queue, with promoted ones behind it, and the same with every
operand folded. -/
def folding (promoted : List Operand) : State := { barUp { bar [arrived (ent 6), arrived (ent 400)] 2 with combining := true, folded := 1 } with
  files := [(4, { FileSt.empty with combineQ := [{ obj := 0x104, acc := some 9, dom := 1, data := 5 }], promoted := promoted })]
  accs := [(accKey .k 0, 7), (accKey .k 9, 5)], ablocks := [{ wing := .k, base := 9, size := 1, lost := false }] }
def foldedAll : State := wait { barUp { bar [arrived (ent 6), arrived (ent 400)] 2 with combining := true, folded := 2 } with
  accs := [(accKey .k 0, 7)] } 0x104 400 1 (.gen 4) 0x104

theorem test_operands_fold :
    ∀ l ∈ [[], [{ obj := 0x104, acc := none, dom := 1, data := 6 : Operand }]],
    (folding l).between ∧ (folding l).active (wingOfFile 4) = true ∧ (folding l).contained (bCMB .k) = false ∧
    ((folding l).file 4).combineQ.map (fun y => fileOf y.obj) = [4] ∧ ((folding l).barrier 0x104).isSome = true ∧
    (folding l).atHand 0x104 ∧ (folding l).fileContained 0x104 = false ∧ ((folding l).file 4).combineQ.any (fun y => (folding l).operandLocked .k y) = false := by
  intro l h
  simp only [List.mem_cons, List.not_mem_nil, or_false] at h
  rcases h with rfl | rfl <;> exact ⟨between_of (by decide), by decide, by decide, by decide, by decide, atHand_of (by decide), by decide, by decide⟩

/-- The same with an advance arrival of position 400 held, and with a parent relay that is not there. -/
def foldedWith (b : Barrier) : State := { barUp { b with combining := true, folded := 2 } with accs := [(accKey .k 0, 7)] }
theorem test_combines_promote :
    (let b := { bar [arrived (ent 6), { arrived (ent 400) with adv := true }] 2 with advQ := [(1, false)] }
     betweenB (foldedWith b) = true ∧ atHandB (foldedWith b) 0x104 = true ∧ (foldedWith b).unfolded 0x104 = false ∧ b.binding = false ∧
       b.members[0]? = some (arrived (ent 6)) ∧ (arrived (ent 6)).live = true) ∧
    (let b := { bar [arrived (ent 6), arrived (ent 400)] 2 with parent := some 0x106 }
     betweenB (foldedWith b) = true ∧ atHandB (foldedWith b) 0x104 = true ∧ (foldedWith b).unfolded 0x104 = false ∧
       (foldedWith b).takesChild 0x106 = false) := by decide +kernel

theorem test_combines_finish :
    foldedAll.between ∧ foldedAll.active (wingOf 0x104) = true ∧ foldedAll.unfolded 0x104 = false ∧ foldedAll.contained (bCMB .k) = false ∧
    foldedAll.atHand 0x104 ∧ foldedAll.fileContained 0x104 = false ∧ (foldedAll.obj 0x104).isSome = true ∧ distinctSlots (foldedAll.waiters 0x104) ∧
    ({ bar [arrived (ent 6), arrived (ent 400)] 2 with combining := true, folded := 2 } : Barrier).binding = false :=
  ⟨between_of (by decide), by decide, by decide, by decide, atHand_of (by decide), by decide, by decide, slots_of (by decide), by decide⟩

/-- A barrier whose deadline has passed while position 6 is missing. -/
def late : State := wait (barUp { bar [ent 6, arrived (ent 400)] 0 with deadline := 4000000 }) 0x104 400 1 (.gen 4) 0x104

theorem test_flags_fall :
    late.between ∧ late.fileContained 0x104 = false ∧ late.atHand 0x104 ∧ late.severity (bFIL (fileOf 0x104)) 0 < 3 ∧ late.severity (bWAKE .q) 1 < 3 ∧
    late.severity (bWAKE .k) 1 < 3 ∧ distinctSlots (late.waiters 0x104) ∧ 4000000 ≤ late.now :=
  ⟨between_of (by decide), by decide, atHand_of (by decide), by decide, by decide, by decide, slots_of (by decide), by decide⟩

/-- Position 6 waits for lock 0x103, whose holder waits for a lock of position 6, and the same without the chain. -/
def lockTwice (chain : Bool) : State := { wait (lockUp (some 400) false) 0x103 6 2 (.lock true) 0 with
  lockDir := [(6, [(0x10B, .held), (0x103, .pending)]), (400, (0x103, .held) :: if chain then [(0x10B, .pending)] else [])] }

theorem test_second_walks :
    ((lockTwice true).between ∧ (lockTwice true).stalemate 0x103 6 (lck (some 400) false).holder = some 400 ∧
      distinctSlots ((lockTwice true).waiters 0x103) ∧ (lockTwice true).atHand 0x103) ∧
    ((lockTwice false).between ∧ (lockTwice false).stalemate 0x103 6 (lck (some 400) false).holder = none ∧
      (lockTwice false).fileContained 0x103 = false ∧ (lockTwice false).dirLag = []) :=
  ⟨⟨between_of (by decide), by decide +kernel, slots_of (by decide), atHand_of (by decide)⟩, ⟨between_of (by decide), by decide +kernel, by decide, by decide⟩⟩

/-- A position whose reset notice has had its effect but for lock 0x103, without and with a waiter. -/
def resetFor (waits : Bool) : State := { (if waits then lockWait else lockUp (some 6) false) with
  resets := [{ pos := 6, eff := true, locks := [0x103] }], lockDir := [(6, [(0x103, .held)])] }

theorem test_positions_reset :
    (readySlot.between ∧ readySlot.resets = [] ∧ readySlot.active (posWing 400) = true ∧ readySlot.holds.recs = [] ∧
      readySlot.stages = [] ∧ ∀ i < 7, ∀ r, readySlot.slot 400 i = some r → r.ready.isSome = true) ∧
    ((resetFor false).between ∧ (resetFor false).resetSettled 6 = true ∧ (resetFor false).waiters 0x103 = [] ∧
      (lck (some 6) false).holder = (resetFor false).identity 6 ∧ ((resetFor false).noteQ 5).words = [] ∧ (resetFor false).atHand 0x103) ∧
    ((resetFor true).between ∧ (resetFor true).resetSettled 6 = true ∧ (resetFor true).waiters 0x103 ≠ [] ∧
      distinctSlots ((resetFor true).waiters 0x103) ∧ (resetFor true).active (posWing 5) = true ∧ (resetFor true).atHand 0x103) := by
  refine ⟨⟨between_of (by decide), by decide, by decide, by decide, by decide, ?_⟩,
    ⟨between_of (by decide), by decide, by decide, by decide, by decide, atHand_of (by decide)⟩,
    ⟨between_of (by decide), by decide, by decide, slots_of (by decide), by decide, atHand_of (by decide)⟩⟩
  intro i hi r hr
  have h : ∀ i < 7, (readySlot.slot 400 i).all (fun r => r.ready.isSome) = true := by decide +kernel
  have h2 := h i hi
  rw [hr] at h2
  exact h2

/-- A ply that waits for the flag at offset 0, and one that waits for a TIME of 0, both with END (Tables 7.3 and 7.4). -/
def flagWaitPly : BitVec 128 := BitVec.twoPow 128 88 ||| (4 : BitVec 128) <<< 85
def timePly : BitVec 128 := BitVec.twoPow 128 88 ||| (5 : BitVec 128) <<< 85
def seqWaits (p : BitVec 128) (forced : Bool) : State := { seqUp (flagUp true) (seqAt .waiting (some p)) with
  holds := { live.holds with forced := forced } }

/-- A wait is met, as a test. -/
def metB (r : Except SeqReason Bool) : Bool := match r with
  | .ok b => b
  | .error _ => false
theorem met_of {r : Except SeqReason Bool} (h : metB r = true) : r = .ok true := by
  cases r <;> simp_all [metB]

theorem test_sequencer_waits_flag : ∀ b, betweenB (seqWaits flagWaitPly b) = true ∧ (seqWaits flagWaitPly b).waitServed 0 flagWaitPly = true ∧
    ((seqWaits flagWaitPly b).seqEnt 0).waitObj flagWaitPly = some 0x100 ∧ atHandB (seqWaits flagWaitPly b) 0x100 = true ∧
    (seqWaits flagWaitPly b).stepping .q = false ∧ (seqWaits flagWaitPly b).held = [] := by
  decide +kernel
theorem test_sequencer_wait_met : (seqWaits flagWaitPly false).waitMet 0 flagWaitPly = .ok true := met_of (by decide +kernel)
theorem test_sequencer_wait_met_held : (seqWaits flagWaitPly true).waitMet 0 flagWaitPly = .ok true := met_of (by decide +kernel)
theorem test_sequencer_waits_nothing : ∀ b, betweenB (seqWaits endPly b) = true ∧ (seqWaits endPly b).waitServed 0 endPly = true ∧
    ((seqWaits endPly b).seqEnt 0).waitObj endPly = none := by decide +kernel
theorem test_sequencer_waits_time : ∀ b, betweenB (seqWaits timePly b) = true ∧ plyWcond timePly = 5 ∧
    timeTarget ((seqWaits timePly b).seq 0) timePly ≤ (seqWaits timePly b).now := by decide +kernel
/-- A ply of one action in A0, with END; and a REMOTE flag set to chip 3 in A1 and A2 (Tables 7.3 and 7.5). -/
def actPly (kind arg : Nat) : BitVec 128 := BitVec.twoPow 128 88 ||| BitVec.ofNat 128 (kind * 2 ^ 59 + arg * 2 ^ 42)
def remotePly : BitVec 128 := BitVec.twoPow 128 88 ||| BitVec.twoPow 128 41 ||| 3
/-- Sequencer 0 with such a ply, which waits for nothing, over an object, with watch 0 at generation 4. -/
def seqActs (n : Nat) (b : Body) (p : BitVec 128) : State :=
  seqUp (put live n b) { seqAt .waiting (some p) with watches := [some 4, none, none, none] }

theorem test_sequencer_actions :
    [(seqActs 0x100 (.flag false 3) (actPly 2 0), actPly 2 0, 0x100), (seqActs 0x100 (.flag true 3) (actPly 3 0), actPly 3 0, 0x100),
     (seqActs 0x101 (.sem 2) (actPly 4 1), actPly 4 1, 0x101), (seqActs 0x102 (.token (tok 2 [])) (actPly 5 2), actPly 5 2, 0x102),
     (seqActs 0x104 (.barrier (bar [ent 6, ent 400] 0)) (actPly 1 0), actPly 1 0, 0x104)].all (fun y =>
      let (s, p, n) := y
      betweenB s && s.waitServed 0 p && metB (s.waitMet 0 p) && decide ((s.seqEnt 0).waitObj p = none) && decide (plyActions p = [0]) &&
        atHandB s n && !s.fileContained n && s.mayUse 1 n && s.active (wingOf n) && !s.mustWait (some .q) (wingOf n) &&
        decide (s.waiters n = []) && decide ((s.seq 0).watches = [some 4, none, none, none])) = true ∧
    [(actPly 6 6, [0], 6), (actPly 7 0, [0], 7), (remotePly, [1], 8)].all (fun y =>
      let s := { seqActs 0x100 (.flag false 3) y.1 with ports := [(3, { Port.reset with state := .fast, trained := true })] }
      betweenB s && s.waitServed 0 y.1 && metB (s.waitMet 0 y.1) && decide (plyActions y.1 = y.2.1) &&
        decide (actKind (plyAct y.1 (y.2.1.getD 0 0)) = y.2.2) && decide (plyAct remotePly 2 = 3) && sameBoard 3 s.me && decide (s.me = 5) &&
        decide (0 < (s.port 3).credits.getD 3 0)) = true := by decide +kernel
theorem test_plies_act_not : [flagWaitPly, endPly, timePly].all (fun p => (plyActions p).isEmpty && plyEnd p) = true := by decide +kernel

/-- Sequencer 0 acts, and an answer has come; or a page that it has asked for. -/
def seqAnswered (st : Status) (acts : Nat) : State :=
  { seqUp live { seqAt .acting (some flagPly) with answers := [(0, 0x100, st)], waitingActs := acts } with
    seam := [{ into := .k, n := 1, stalled := false, item := .act 0 1 }], trace := { live.trace with peakK := 1 } }
/-- A page of zero plies, and its CRC-32C. -/
def zeroPage : List (BitVec 128) := List.replicate 64 0
def zeroCrc : Word := crc32c (zeroPage.foldl (fun l p => l ++ leBytes 16 p.toNat) [])
def pageRead (check : Word) : State := { live with
  img := { live.img with paged := 1, pageCheck := [check] }
  wq := { live.wq with pageReads := [{ page := 0, second := false, repeated := false, ahead := none }] } }

theorem test_sequencer_answers :
    (∀ st ∈ [Status.ok, .refusedState], ∀ n ∈ [2, 3], (seqAnswered st n).between ∧ ((seqAnswered st n).seq 0).running = true ∧
      (seqAnswered st n).holds.recs = [] ∧ (seqAnswered st n).severity (bSEQ .q) 1 < 3) ∧
    (acceptedAnswer .ok = true ∧ acceptedAnswer .refusedState = false ∧
      (seqAnswered .ok 2).seam.all (fun u => u.unissued 0) = true) ∧
    ((pageRead 1).between ∧ (((pageRead 1).wing .q).pageReads.take 8).find? (fun y => y.page == 0) = some { page := 0, second := false, repeated := false, ahead := none }) ∧
    ((pageRead zeroCrc).img.pageCheck[0]? = some zeroCrc ∧
      (pageRead zeroCrc).freeFrames.isEmpty = false ∧ (pageRead zeroCrc).seqs = [] ∧ (pageRead zeroCrc).upsets = []) :=
  ⟨by
    intro st h n m
    simp only [List.mem_cons, List.not_mem_nil, or_false] at h m
    rcases h with rfl | rfl <;> rcases m with rfl | rfl <;> exact ⟨between_of (by decide), by decide, by decide, by decide⟩,
   ⟨by decide, by decide, by decide⟩, ⟨between_of (by decide), by decide⟩, ⟨rfl, by decide +kernel, by decide, by decide⟩⟩

/-- A domain-0 request that has waited for the limit, with and without a forced hold. -/
def forcing (forced : Bool) : State := { holdsWith false [{ holdRec 5 0 none with urgent := true }] with
  holds := { live.holds with recs := [{ holdRec 5 0 none with urgent := true }], forced := forced }
  slots := [(42, some { obj := none, home := .tcu, dom := 0, qwing := .q, value := 0, entry := none, ready := none })] }

theorem test_holds_forced :
    ((forcing false).between ∧ (forcing false).barriers = [] ∧ ({ holdRec 5 0 none with urgent := true } : HoldRec).forces 0 0 = true ∧
      (forcing false).severity bTCU 1 < 3) ∧
    ((forcing true).between ∧ (forcing true).barriers = [] ∧ (∀ k < 32, (forcing true).delaysGrants k = false) ∧
      (forcing true).slot 5 2 ≠ none) ∧
    ((holdsWith false [holdRec 6 1 (some 4000000)]).between ∧ (holdsWith false [holdRec 6 1 (some 4000000)]).now = 5000000 ∧
      (holdsWith false [holdRec 6 1 (some 4000000)]).severity bTCU 2 < 3) :=
  ⟨⟨between_of (by decide), by decide, by decide, by decide⟩, ⟨between_of (by decide), by decide, by decide +kernel, by decide +kernel⟩,
   ⟨between_of (by decide), by decide, by decide⟩⟩

/-! ### Groups -/

/-- A group of seats 3, 5 and 6 with one level. -/
def grpEnt (arb : Option Nat) : GroupEnt := { GroupEnt.none with valid := true, top := 1, arity := 2, seats := 0x68, arbL1 := arb }

/-- A FAST port at rest, and an end of a frame that acknowledges nothing new. -/
def fast : Port := { Port.reset with state := .fast, trained := true }
def eof : Eof := { lseq := 0, ack := 255, vl := 0, crVl := 0, crCnt := 0 }

/-- A frame from a chip to this one. -/
def frm (src : BitVec 16) (level : BitVec 2) (obj : BitVec 20) (gen : BitVec 32) (body : List Byte) : Frame :=
  { ftype := 0, term := 0, src := src, dst := 5, dom := 0, level := level, frag := 0, obj := obj, group := 0, fcount := 0
    fwd := false, gen := gen, body := body }

/-- A block whose ports are enabled, with a group's entry and state, and port 3 FAST. -/
def inGroup (e : GroupEnt) (x : GroupSt) : State := { live with
  img := { live.img with links := List.replicate 16 { enabled := true, txPreset := 0, retryLimit := 3, quietAfter := 10, coldLease := 0 }
                         groups := [e] }
  groups := [(0, x)], ports := [(3, fast)] }

/-- A group that is UP, with an arbiter. -/
def up (a : BitVec 16) : GroupSt := { GroupSt.absent with state := .up, everUp := true, arbs := [some a, none, none] }

/-- A port at rest, as a test. -/
def stillB (p : Port) : Bool :=
  decide (p.state = .fast) && decide (p.loop = none) && decide (p.via = none) && decide (p.waitQ = []) && decide (p.unacked = []) &&
    decide (p.refusedQ = []) && !p.quiescing

theorem still_of {p : Port} (h : stillB p = true) : p.still := by
  unfold stillB at h
  simp only [Bool.and_eq_true, decide_eq_true_eq, Bool.not_eq_true'] at h
  exact ⟨h.1.1.1.1.1.1, h.1.1.1.1.1.2, h.1.1.1.1.2, h.1.1.1.2, h.1.1.2, h.1.2, h.2⟩

/-- A frame arrives in sequence, as a test. -/
def receivesB (s : State) (k : Nat) (e : Eof) (f : Frame) : Bool :=
  betweenB s && s.active (shpWing k) && stillB (s.port k) && decide (e.lseq = (s.port k).expect) && decide (f.dst = s.me) &&
    decide (s.boardChip k ≠ s.me) && !(s.chip (s.boardChip k)).silent && (!f.fwd || !(s.chip f.src).silent)

theorem receives_of {s : State} {k : Nat} {e : Eof} {f : Frame} (h : receivesB s k e f = true) : s.receives k e f := by
  unfold receivesB at h
  simp only [Bool.and_eq_true, decide_eq_true_eq, Bool.or_eq_true, Bool.not_eq_true'] at h
  obtain ⟨⟨⟨⟨⟨⟨⟨h1, h2⟩, h3⟩, h4⟩, h5⟩, h6⟩, h7⟩, h8⟩ := h
  refine ⟨between_of h1, h2, still_of h3, h4, h5, h6, .inl h7, fun hf => .inl ?_⟩
  rcases h8 with h8 | h8
  · rw [hf] at h8
    cases h8
  · exact h8

/-- A chip that has been heard at a time. -/
def heardAt (t : Nat) : ChipSt := { ChipSt.unknown with heard := true, last := t }

/-- A tunnel peer context that is open. -/
def openCtx : TunCtx := { TunCtx.closed with state := .open, peer := 0x21, bootSeq := some 3, sndNxt := 4, rcvNxt := 6 }
def tunnelled (x : TunCtx) : State := { live with tun := { live.tun with ctxs := [(2, x)] } }

def joins : State := { inGroup (grpEnt (some 6)) GroupSt.absent with
  ports := [(3, { Port.reset with state := .training }), (6, { Port.reset with state := .training })] }
def joining : State := inGroup (grpEnt (some 6)) { up 6 with state := .joining, joinAt := 0 }

theorem test_groups_join :
    (betweenB joins = true ∧ (grpEnt (some 6)).has 5 = true ∧ joins.group 0 = GroupSt.absent ∧ joins.board = 0 ∧
      joins.img.peers = [] ∧ joins.chips = [] ∧ (joins.active .q && joins.active .k) = true ∧
      (boardChips 0).filter (grpEnt (some 6)).has = [3, 5, 6]) ∧
    ((inGroup (grpEnt none) (up 3)).receives 3 eof (frm 3 0 0 0 [1]) ∧ ((inGroup (grpEnt none) (up 3)).group 0).answered = [] ∧
      (inGroup (grpEnt none) (up 3)).mayReply 3 eof 0 ∧ (inGroup (grpEnt none) (up 3)).boardChip 3 = 3) ∧
    ((inGroup (grpEnt none) { up 3 with answered := [(3, 9)] }).receives 3 eof (frm 3 0 0 0 [0, 0, 0, 0, 0, 0, 0, 0, 9]) ∧
      BitVec.ofNat 32 ((frm 3 0 0 0 [0, 0, 0, 0, 0, 0, 0, 0, 9]).num 8 4) = 9) ∧
    (betweenB joining = true ∧ joining.arb 0 1 = some 6 ∧ (3 : BitVec 16) ∈ joining.boardMem 0 joining.board ∧
      (joining.group 0).passed = [] ∧ (joining.group 0).resigned = []) ∧
    (∀ j, ((inGroup (grpEnt none) (up 3)).port j).state ≠ .down) ∧
    (let s := { inGroup (grpEnt none) (up 3) with ports := [(3, { fast with state := .quiet })] }
     betweenB s = true ∧ s.portOn 3 = true ∧ (s.port 3).state = .quiet ∧ (s.port 3).lastTx + 10000 ≤ s.now) ∧
    ((inGroup (grpEnt none) (up 3)).portOn 3 = true ∧ ((inGroup (grpEnt none) (up 3)).port 3).still ∧
      (inGroup (grpEnt none) (up 3)).contained (bCMB (shpWing 3)) = false) ∧
    ((tunnelled openCtx).between ∧ (tunnelled openCtx).tunRuns = true ∧ twf TunCtx.closed (tunnelled openCtx).tun.ctxs = true ∧
      (tunnelled openCtx).poolUsed < 1024) := by
  refine ⟨by decide +kernel, ⟨receives_of (by decide +kernel), by decide, by unfold State.mayReply; decide, by decide⟩, ⟨receives_of (by decide +kernel), by decide⟩,
    by decide +kernel, ?_, by decide +kernel, ⟨by decide, still_of (by decide), by decide⟩, ⟨between_of (by decide), by decide, by decide, by decide⟩⟩
  intro j
  simp only [inGroup, State.port, tget]
  split <;> simp [fast, Port.reset]

/-! ### Suspects and levels -/

/-- A chip that has been silent for 30 µs and not yet marked so, in a group of which this chip is the arbiter, or in none. -/
def quietChip (e : GroupEnt) : State := { inGroup e (up 5) with chips := [(6, heardAt 100)] }

/-- A suspect entry, and a suspect table with what an arbiter has raised for chip 6. -/
def suspect (c : BitVec 16) : Suspect := { chip := c, level := 1, group := 0, cause := 2, witness := 1, madeAt := 4000000, raisedWith := 1 }
def suspects (l : Table (Option Suspect)) : State := { inGroup (grpEnt none) (up 5) with
  susp := { reported := [((6, 1, 0), 0)], table := l, overflow := 0, sel := 0, raisedAt := [(6, 4995000)] } }
/-- The table in which every entry is in use. -/
def fullTable : Table (Option Suspect) := (List.range 64).map (fun i => (i, some (suspect 9)))

theorem test_suspects_reported :
    (betweenB (quietChip GroupEnt.none) = true ∧ (quietChip GroupEnt.none).quietTooLong 6 = true ∧ (quietChip GroupEnt.none).joined = []) ∧
    (betweenB (quietChip (grpEnt none)) = true ∧ (quietChip (grpEnt none)).quietTooLong 6 = true ∧ (quietChip (grpEnt none)).joined = [0] ∧
      (quietChip (grpEnt none)).mem 0 6 = true ∧ (quietChip (grpEnt none)).lctxs = [] ∧ (quietChip (grpEnt none)).barriers = [] ∧
      (quietChip (grpEnt none)).glocks = [] ∧ (quietChip (grpEnt none)).wq.parked = [] ∧ (quietChip (grpEnt none)).wk.parked = [] ∧
      ((quietChip (grpEnt none)).group 0).resigned = [] ∧ (quietChip (grpEnt none)).severity bTCU 0 < 3) ∧
    (receivesB (suspects [(4, some (suspect 6))]) 3 eof (frm 3 1 0 0 [6, 0, 2]) = true ∧ (suspect 6).is 6 1 0 = true ∧
      twf none (suspects [(4, some (suspect 6))]).susp.table = true) ∧
    (receivesB (suspects []) 3 eof (frm 3 1 0 0 [6, 0, 2]) = true ∧
      ((suspects []).susp.raisedAt.find? (fun x => x.1 == 6)).any (fun x => decide ((suspects []).now < x.2 + 10000)) = true) ∧
    (receivesB (suspects fullTable) 3 eof (frm 3 1 0 0 [6, 0, 2]) = true ∧ twf none (suspects fullTable).susp.table = true ∧
      (∀ j < 64, (tget none (suspects fullTable).susp.table j).isSome = true) ∧ (suspect 9).is 6 1 0 = false) ∧
    (((suspects []).chip 6).silent = false ∧ ((suspects []).chip 6).liveFrom + 1000000 ≤ (suspects []).now) := by decide +kernel

/-- A relay of group 0 with a barrier as its CHILD, and a level context of a generation. -/
def child (waits : Bool) : Barrier := { bar [arrived (ent 6)] 2 with parent := some 0x106, parentWait := waits, mcount := 1 }
def leveled (e : GroupEnt) (a : List (Option (BitVec 16))) (x : LvlCtx) (waits : Bool) : State :=
  { put (put (inGroup e { up 3 with arbs := a }) 0x104 (.barrier (child waits))) 0x106
      (.relay { child := 0x104, level := e.top, group := 0, pgen := 9, inFlight := true, handing := false }) with
    lctxs := [(lvlKey 0x106 x.gen, some x)], chips := [(3, heardAt 4999000)] }
def grp3 : GroupEnt := { grpEnt none with top := 3, boards := 1, clusters := 3 }
def ctxOf (gen : BitVec 32) : LvlCtx := LvlCtx.empty 0x106 gen
/-- The level that the context stands for. -/
def lvlOf (top : Nat) (gen : BitVec 32) : Lvl :=
  { key := lvlKey 0x106 gen, relay := 0x106, child := 0x104, gen := gen, pgen := 9, g := 0, top := top, code := 0x12, pw := 2 }

/-- A level message reaches its context, as a test. -/
def levelTakenB (s : State) (ty : BitVec 8) (f : Frame) (l : Lvl) (x : LvlCtx) : Bool :=
  match s.relay f.obj.toNat with
  | none => false
  | some r => atHandB s f.obj.toNat && atHandB s r.child && !s.fileContained r.child && s.active (wingOf f.obj.toNat) && s.active (wingOf r.child) &&
      !s.contained bSEAM && !s.contained (bCMB (wingOf f.obj.toNat)) && !s.fileContained f.obj.toNat && s.mem r.group s.me &&
      r.group == f.group.toNat && !s.stale r.group f.level.toNat f.term &&
      !newer f.term ((s.group r.group).terms.getD (f.level.toNat - 1) 0) && decide ((f.gen - r.pgen).toNat ≤ 1) && decide (s.lvl f.obj.toNat f.gen = some l) &&
      decide (s.lctx l.key = some x) && f.frag == 0 && f.fcount == 0 && s.gather.all (fun y => !y.takes { f with ftype := ty })

theorem levelTaken_of {s : State} {ty : BitVec 8} {f : Frame} {l : Lvl} {x : LvlCtx} (h : levelTakenB s ty f l x = true) :
    s.levelTaken ty f l x := by
  unfold levelTakenB at h
  split at h
  · simp at h
  · rename_i r hr
    simp only [Bool.and_eq_true, decide_eq_true_eq, Bool.not_eq_true', beq_iff_eq, List.all_eq_true] at h
    obtain ⟨⟨⟨⟨⟨⟨⟨⟨⟨⟨⟨⟨⟨⟨⟨⟨⟨a1, a2⟩, a3⟩, h2⟩, h3⟩, h0⟩, h4⟩, h5⟩, hm⟩, h6⟩, h7⟩, hn⟩, h8⟩, h9⟩, h10⟩, h11⟩, h12⟩, h13⟩ := h
    exact ⟨r, hr, atHand_of a1, atHand_of a2, h2, h3, h0, h4, h5, a3, hm, h6, ⟨h7, hn⟩, h8, h9, h10, h11, h12, h13⟩

/-- The parts of a level message that a context of generation 10 takes at a chip that is not a node. -/
def atLeafChip : State := leveled grp3 [some 3, none, none] (ctxOf 10) false
/-- The frame that carries a message of a level. -/
def lvlFrm (src : BitVec 16) (level : BitVec 2) (gen : BitVec 32) : Frame := frm src level 0x106 gen [7, 0, 1]

theorem test_levels_not_contributed : (ctxOf 10).waiting 5 := ⟨rfl, rfl, rfl, rfl, rfl, rfl, by decide, by decide⟩

theorem test_levels_gather :
    (∀ n < 3, (levelTakenB atLeafChip 0x10 (lvlFrm 3 (BitVec.ofNat 2 (n + 1)) 10) (lvlOf 3 10) (ctxOf 10) &&
      receivesB atLeafChip 3 eof (lvlFrm 3 (BitVec.ofNat 2 (n + 1)) 10)) = true) ∧
    (levelTakenB atLeafChip 0x10 (lvlFrm 0x1003 3 10) (lvlOf 3 10) (ctxOf 10) &&
      receivesB atLeafChip 3 eof (lvlFrm 0x1003 3 10)) = true ∧ sameCluster 0x1003 atLeafChip.me = false ∧
    (∀ ty ∈ [(0x11 : Nat), 0x12, 0x18, 0x19, 0x1A], levelTakenB atLeafChip (BitVec.ofNat 8 ty) (lvlFrm 3 1 10) (lvlOf 3 10) (ctxOf 10) = true) ∧
    (atLeafChip.mem 0 atLeafChip.me = true ∧ atLeafChip.leavingChip 0 3 = false ∧ atLeafChip.isNode 0 = false ∧
      (ctxOf 10).has .rs 5 = false ∧ (ctxOf 10).has .l3 5 = false ∧ (ctxOf 10).own = none) := by decide +kernel

/-- A context of PGEN to which this chip has contributed. -/
def contributed : LvlCtx := { ctxOf 9 with own := some 5, l1 := some 6 }
/-- A chip of a group with one level whose CHILD stands in PARENT_WAIT. -/
def parentWaits : State := wait (leveled (grpEnt none) [some 3, none, none] contributed true) 0x104 400 1 (.gen 4) 0x104

theorem test_levels_release :
    (levelTakenB parentWaits 0x18 (lvlFrm 3 1 9) (lvlOf 1 9) contributed && receivesB parentWaits 3 eof (lvlFrm 3 1 9)) = true ∧
    (levelTakenB parentWaits 0x08 (lvlFrm 3 1 9) (lvlOf 1 9) contributed && (child true).abortOnFall) = true ∧
    (lvlOf 1 9).allToAll = true ∧ parentWaits.listedIn 0x106 = none ∧ (parentWaits.group 0).flying = [] ∧ (parentWaits.group 0).told = [] ∧
    (parentWaits.group 0).unready = [] ∧ (parentWaits.group 0).state = .up ∧
    parentWaits.isNode 0 = false ∧ twf none parentWaits.lctxs = true ∧ parentWaits.barriers = [(0x104, child true)] := by decide +kernel

theorem test_levels_waiters : distinctSlots (parentWaits.waiters 0x104) := slots_of (by decide)

/-- A context whose deadline at L1 has passed, complete or with chip 6 missing, whose silence has been reported. -/
def overdue (l1 : Option (BitVec 2048)) : State := { leveled (grpEnt none) [some 3, none, none]
    { ctxOf 9 with own := some 5, l1 := l1, parts := [{ kind := .l1, chip := 3, data := 1 }], deadlines := [(1, 4000000)] } false with
  susp := { live.susp with reported := [((6, 1, 0), 4000000)] } }

theorem test_level_deadlines : ∀ l1 ∈ [none, some (3 : BitVec 2048)],
    betweenB (overdue l1) = true ∧ (overdue l1).lvl 0x106 9 = some (lvlOf 1 9) ∧ (overdue l1).isArb 0 1 = false ∧
    ((overdue l1).lctx (lvlKey 0x106 9)).map (fun x => (overdue l1).missingAt (lvlOf 1 9) x 1) = some (if l1.isSome then [] else [6]) ∧
    atHandB (overdue l1) 0x106 = true ∧ (overdue l1).fileContained 0x106 = false ∧ (overdue l1).severity (bCMB .k) 2 < 3 := by
  intro l1 h
  simp only [List.mem_cons, List.not_mem_nil, or_false] at h
  rcases h with rfl | rfl <;> decide +kernel

/-- Group 0 UP under chip 3, at term 5 of level 1, with a change. -/
def termed (f : GroupSt → GroupSt) : State := inGroup (grpEnt none) (f { up 3 with terms := [5, 0, 0] })
/-- A frame of a level with its term and fragment. -/
def roleFrm (term : BitVec 8) (frag : BitVec 3) (body : List Byte) : Frame := { frm 3 1 0 0 body with term := term, frag := frag }
/-- Nothing waits for news of the levels, as a test. -/
def restB (s : State) : Bool :=
  decide (s.lctxs = []) && s.barriers.all (fun y => !y.2.parentWait) && decide (s.wq.parked = []) && decide (s.wk.parked = [])

/-- A group with two levels. -/
def grp2 (arb2 sby2 : Option (BitVec 16)) : State :=
  inGroup { grpEnt none with top := 2, boards := 1 } { up 3 with arbs := [some 3, arb2, none], sbys := [none, sby2, none] }
/-- A chip whose time master has not answered for 1 ms. -/
def unsynced (n : Nat) : State := { inGroup (grpEnt none) (up 3) with tsync := { live.tsync with master := some 3, doneAt := n } }

theorem test_roles_pass :
    (receivesB (termed id) 3 eof (roleFrm 4 0 [6]) && restB (termed id)) = true ∧ newer 4 5 = false ∧ sameBoard 6 (termed id).me = true ∧
    (receivesB (termed id) 3 eof (roleFrm 6 0 [3, 0, 6, 0, 1]) = true ∧ newer 6 5 = true ∧ (termed id).boardChip 3 = 3 ∧
      (0 : Nat) ∈ (termed id).joined ∧ (termed id).relaysOf 0 = [] ∧ (termed id).contained (bCMB (shpWing 3)) = false) ∧
    (let s := inGroup (grpEnt none) { up 5 with terms := [5, 0, 0], state := .failover, awaits := [(1, 3)] }
     receivesB s 3 eof (roleFrm 5 0 [5, 0]) = true ∧ BitVec.ofNat 16 ((roleFrm 5 0 [5, 0]).num 0 2) = s.me ∧
       (s.group 0).arbs.getD 0 none = some s.me ∧ s.live 0 3 = true) ∧
    (∀ n < 3, receivesB (termed id) 3 eof { roleFrm 5 0 [6] with level := BitVec.ofNat 2 n } = true) ∧ (6 : BitVec 16) ≠ (termed id).me ∧
    ((termed id).group 0).leaving = [] ∧ ((termed id).group 0).arbs = [some 3, none, none] ∧ (termed id).live 0 3 = true ∧
    (let s := termed (fun x => { x with leaving := [(6, [3], [])] })
     receivesB s 3 eof { roleFrm 5 0 [6] with level := 0 } = true ∧ (s.group 0).leaving = [(6, [3], [])]) ∧
    ((grp2 (some 3) (some 5)).sby 0 2 = some (grp2 (some 3) (some 5)).me ∧ (grp2 (some 3) (some 6)).sby 0 2 = some 6 ∧
      betweenB (grp2 (some 3) (some 5)) = true ∧ betweenB (grp2 (some 3) (some 6)) = true) ∧
    ((grp2 (some 3) (some 5)).hasRole = true ∧ (grp2 (some 3) (some 5)).severity (bCMB .k) 3 < 3) ∧
    (betweenB (grp2 (some 5) none) = true ∧ (grp2 (some 5) none).servesGlocks = true ∧ (grp2 (some 5) none).severity (bCMB .k) 4 < 3) ∧
    (betweenB (unsynced 100) = true ∧ (unsynced 100).timebaseOff = true ∧ (unsynced 100).condTrue bTCU 5 = false ∧
      (unsynced 100).severity bTCU 5 < 3) ∧
    (betweenB (unsynced 4500000) = true ∧ (unsynced 4500000).timebaseOff = false) := by decide +kernel

/-- A relay of group 0 with no level context, of which an answer speaks. -/
def told : State := { leveled (grpEnt none) [some 3, none, none] (ctxOf 10) false with lctxs := [] }
theorem test_roles_told : (receivesB told 3 eof (frm 3 1 0x106 10 [1]) && restB told) = true ∧
    (told.relayAt 0x106).map Relay.pgen = some 9 ∧ told.contained (bCMB (shpWing 3)) = false ∧ told.stale 0 1 0 = false ∧
    newer 0 ((told.group 0).terms.getD 0 0) = false := by decide +kernel

theorem test_roles_reply : (termed id).mayReply 3 eof 0 := by unfold State.mayReply; decide

/-! ### Time, remote actions and global locks -/

/-- The body of a TIME frame. -/
def timeBody (a b c : Nat) : List Byte := leBytes 8 a ++ leBytes 8 b ++ leBytes 8 c
/-- A follower of chip 3 that has asked for the time at 4,999,000 ns. -/
def follows (stepped : Bool) : State := { inGroup (grpEnt none) (up 3) with
  tsync := { live.tsync with master := some 3, t1 := some 4999000, stepped := stepped } }
/-- Port 3 in another state. -/
def portIn (s : State) (st : PortState) : State := { s with ports := [(3, { fast with state := st })] }
/-- A node chip of a group with two levels, and a context to another board's node. -/
def probes : State := { inGroup { grpEnt none with top := 2, boards := 5 } { up 5 with heads := [(2, some 0x26)] } with
  tun := { live.tun with ctxs := [(2, { openCtx with peer := 0x26 })] } }
/-- The arbiter of a board whose own master is the chip of another board, with kingside ADJOURNED. -/
def farMaster : State :=
  let s := inGroup { grpEnt none with top := 2, boards := 5 } { up 5 with arbs := [some 5, some 0x26, none] }
  { s with tsync := { s.tsync with master := some 0x26 }, wk := { s.wk with pwr := { s.wk.pwr with state := .adjourned } } }
theorem test_times_far : farMaster.timeMaster = some (0x26, 256000) ∧ farMaster.tsync.last + 256000 ≤ farMaster.now ∧
    sameBoard 0x26 farMaster.me = false ∧ betweenB farMaster = true := by decide +kernel
/-- The master of a board at a multiple of 16 µs. -/
def marks : State := { portIn (inGroup (grpEnt none) (up 5)) .quiet with now := 5008000 }

theorem test_times_follow :
    (receivesB (termed id) 3 eof (frm 3 0 0 0 (timeBody 100 0 0)) = true ∧ (frm 3 0 0 0 (timeBody 100 0 0)).num 8 8 = 0) ∧
    (∀ b, receivesB (follows b) 3 eof (frm 3 0 0 0 (timeBody 4999000 4999700 4999800)) = true) ∧
    ((follows true).tsync.first = none ∧ (0 : Nat) ∈ (follows true).joined ∧ ((follows true).group 0).arbs.getD 0 none = some 3 ∧
      (follows true).contained bTCU = false ∧ (((4999700 : Int) - 4999000) + (4999800 - (follows true).now)) / 2 = 250) ∧
    (let s := tunnelled { openCtx with probeT1 := some 100 }
     receivesB { s with ports := [(3, fast)] } 3 eof (frm 0x21 0 0 0 (timeBody 100 200 300)) = true ∧ s.ctxOf 0x21 = some 2) ∧
    ((follows true).timeMaster = some (3, 16000) ∧ (portIn (follows true) .quiet).markLink 3 = true ∧ sameBoard 3 (follows true).me = true) ∧
    ((probes.ctx 2).probeAt + 1024000 ≤ probes.now ∧ (0 : Nat) ∈ probes.joined ∧ probes.isNode 0 = true ∧
      (probes.farNeighbours 0).contains (probes.ctx 2).peer = true ∧ betweenB probes = true) ∧
    (let s := { portIn (follows true) .quiet with now := 5008500 }
     betweenB s = true ∧ (((s.now + 8000) / 16000 * 16000 : Nat) : Int) + s.tsync.delay - s.now = -500) ∧
    (betweenB marks = true ∧ marks.isArb 0 1 = true ∧ marks.mem 0 (marks.boardChip 3) = true ∧ marks.portOn 3 = true) := by
  decide +kernel

/-- A REMOTE frame of domain 1 from chip 3 with its action and number, and a block that has executed number 8 of that start-up. -/
def remFrm (act seq : Nat) (obj : BitVec 20) : Frame :=
  { frm 3 0 obj 0 (bodyOf ((0, BitVec.ofNat 8 act) :: bytesAt 0x28 4 2 ++ bytesAt 0x2E 2 seq)) with ftype := 0x20, dom := 1 }
def remoteAt (s : State) : State := { s with
  ports := [(3, fast)], chips := [(3, { heardAt 4999000 with exec3 := some (2, 8) })] }

theorem test_remotes_act :
    (∀ seq ∈ [8, 9, 10], receivesB (remoteAt (flagUp true)) 3 eof (remFrm 0 seq 0x100) = true) ∧
    ((remoteAt (flagUp true)).judge3 (remFrm 0 9 0x100) = .execute ∧ (remoteAt (flagUp true)).judge3 (remFrm 0 8 0x100) = .discard ∧
      (remoteAt (flagUp true)).judge3 (remFrm 0 10 0x100) = .refuse) ∧
    ((remoteAt (flagUp true)).mustFollow (remoteHeld .q (remFrm 0 9 0x100)) = false ∧ (remoteAt (flagUp true)).mayUse 1 0x100 = true ∧
      ((remoteAt (flagUp true)).obj 0x100).isSome = true ∧ atHandB (remoteAt (flagUp true)) 0x100 = true ∧
      (remoteAt (flagUp true)).mustWait (some .q) (wingOf 0x100) = false ∧ (remoteAt (flagUp true)).contained (bCMB .k) = false) ∧
    (receivesB (remoteAt (semUp 4)) 3 eof (remFrm 2 9 0x101) = true ∧ ((remoteAt (semUp 4)).obj 0x101).isSome = true) ∧
    (receivesB (remoteAt (tokUp 1 [])) 3 eof (remFrm 3 9 0x102) = true ∧ ((remoteAt (tokUp 1 [])).obj 0x102).isSome = true) ∧
    (ftypeKnown 0x22 = false ∧ (remoteAt live).severity (bCMB (shpWing 3)) 0 < 3) := by decide +kernel

/-- Identities of chip 3, and a GLOCK frame of lock 7 from it. -/
def idOf (c p : Nat) : BitVec 26 := BitVec.ofNat 26 (1024 * c + p)
def glkFrm (i : BitVec 26) (prio st : Nat) : Frame :=
  frm 3 0 7 0 (bodyOf ((8, BitVec.ofNat 8 prio) :: (9, BitVec.ofNat 8 st) :: bytesAt 4 4 i.toNat))
/-- The arbiter of group 0's L2, with global locks. -/
def arbiter (l : Table Glock) : State := { grp2 (some 5) none with glocks := l, chips := [(3, heardAt 4999000)] }
/-- Lock 7 held by an identity with waiters. -/
def gheld (i : BitVec 26) (l : List (BitVec 26 × Nat)) : Glock := { holder := some i, orphaned := false, waiters := l, prio := 2, eff := 3 }

/-- What the statements about GLOCK frames ask of the block and the frame, as a test. -/
def glockB (s : State) (f : Frame) : Bool :=
  receivesB s 3 eof f && !s.contained (bCMB .k) && !f.fwd && !(s.chip (s.boardChip 3)).silent && f.src == s.boardChip 3 &&
    decide (s.judge3 { f with ftype := 0x21 } = .execute)

/-- Position 6 waits for its lock, bound to global lock 7, whose arbiter has been asked. -/
def asked : State := { wait (put (inGroup (grpEnt none) (up 3)) 0x103 (.lock { lck none false with global := some 7 })) 0x103 6 2 (.lock false) 0 with
  glockReqs := [{ mute := false, tag := 3, lock := 7, obj := 0x103, pos := 6, prio := 2, try_ := none }] }

theorem test_global_locks_pass :
    (glockB (arbiter []) (glkFrm (idOf 3 6) 2 0) = true ∧ (glkFrm (idOf 3 6) 2 0).obj = 7 ∧
      BitVec.ofNat 26 ((glkFrm (idOf 3 6) 2 0).num 4 4) = idOf 3 6 ∧ chipOf (idOf 3 6) = 3 ∧
      ((arbiter []).grp 0).has (arbiter []).me = true ∧ (arbiter []).glockFull 7 (idOf 3 6) = false) ∧
    (glockB (arbiter [(7, gheld (idOf 3 7) [])]) (glkFrm (idOf 3 6) 130 0) = true ∧
      decide (128 ≤ (glkFrm (idOf 3 6) 130 0).num 8 1) = true) ∧
    (glockB (arbiter [(7, gheld (idOf 3 7) []), (9, gheld (idOf 3 7) [(idOf 3 6, 1)])]) (glkFrm (idOf 3 6) 2 0) = true ∧
      (arbiter [(7, gheld (idOf 3 7) []), (9, gheld (idOf 3 7) [(idOf 3 6, 1)])]).glockFull 7 (idOf 3 6) = true) ∧
    (glockB (arbiter [(7, gheld (idOf 3 6) [])]) (glkFrm (idOf 3 6) 0 0) = true ∧ (arbiter []).servesGlocks = true ∧
      (arbiter []).contained (bCMB (shpWing 3)) = false) ∧
    (glockB (arbiter [(7, gheld (idOf 3 6) [(idOf 3 7, 1)])]) (glkFrm (idOf 3 6) 0 0) = true) ∧
    (glockB (arbiter [(7, gheld (idOf 3 7) [(idOf 3 6, 1)])]) (glkFrm (idOf 3 6) 0 0) = true) ∧
    (glockB asked (glkFrm (idOf 5 6) 2 3) = true ∧ glockStatus 3 = .granted ∧
      (asked.glockReqOf 7 (idOf 5 6) .granted).map (fun r => (r.obj, r.try_)) = some (0x103, none) ∧
      ((asked.waiters 0x103).find? (fun z => z.pos == 6 && z.kind.isLock)).isSome = true ∧ atHandB asked 0x103 = true ∧
      asked.mustWait (some (shpWing 3)) (wingOf 0x103) = false) := by decide +kernel

theorem test_global_lock_requests :
    (glockB (arbiter [(7, gheld (idOf 3 7) [])]) (glkFrm (idOf 3 6) 2 0) = true ∧ (arbiter [(7, gheld (idOf 3 7) [])]).glockFull 7 (idOf 3 6) = false) ∧
    (glockB (arbiter [(7, gheld (idOf 3 7) [])]) (glkFrm (idOf 3 6) 5 0) = true ∧ (gheld (idOf 3 7) []).eff < (glkFrm (idOf 3 6) 5 0).num 8 1 % 8) ∧
    (glockB (arbiter [(7, gheld (idOf 3 7) [(idOf 3 6, 1)])]) (glkFrm (idOf 3 6) 2 0) = true ∧
      ((arbiter []).group 0).arbs.getD 1 none = some (arbiter []).me) := by decide +kernel

theorem test_global_lock_waiters : distinctSlots (asked.waiters 0x103) := slots_of (by decide)

/-! ### Links -/

/-- Port 3 as it is, in a block whose ports take waking frames of seats 0 to 7; queenside in a power state. -/
def linkedAt (p : Port) (st : PState) : State := { live with
  img := { live.img with
    links := List.replicate 16 { enabled := true, txPreset := 0, retryLimit := 3, quietAfter := 10, coldLease := 2 }
    power := { live.img.power with qmask := List.replicate 16 (0xFF, 7) } }
  ports := [(3, p)]
  wq := { live.wq with pwr := { live.wq.pwr with state := st } } }
/-- Port 3 in a state, with a quiet frame that awaits its acknowledgement. -/
def quietAt (st : PortState) (a : Option Await) : State := linkedAt { fast with state := st, await := a } .active
def awaiting (cls : Nat) : Await := { cls := cls, resent := false, cold := false, at_ := 0 }

/-- A link whose loss concerns nobody, as a test. -/
def lonelyB (s : State) (k : Nat) : Bool :=
  s.active (shpWing k) && decide (s.severity (bSHP k) 0 < 3) && decide (s.intermediate k = none) &&
    ((s.port k).unacked.map (fun x => x.f) ++ (s.port k).refusedQ.map Prod.snd ++ (s.port k).waitQ).all
      (fun f => !f.fwd && decide (seatOf f.dst = k)) && s.joined.all (fun g => !s.mem g (s.boardChip k))

theorem lonely_of {s : State} {k : Nat} (h : lonelyB s k = true) : s.lonely k := by
  unfold lonelyB at h
  simp only [Bool.and_eq_true, decide_eq_true_eq, List.all_eq_true, Bool.not_eq_true'] at h
  exact ⟨h.1.1.1.1, h.1.1.1.2, h.1.1.2, h.1.2, h.2⟩

theorem test_quiet_frames :
    (∀ st ∈ [PortState.quiet, .cold, .resuming, .training, .down, .fast], betweenB (quietAt st none) && decide ((quietAt st none).port 3 = { fast with state := st }) &&
      (quietAt st none).quietMatch 3 3 1 && (quietAt st none).quietMatch 3 3 2 && (quietAt st none).quietMatch 3 3 3 &&
      !(quietAt st none).quietMatch 3 9 3 && (quietAt st none).active .q) ∧
    (∀ st ∈ [PState.adjourned, .deep], betweenB (linkedAt { fast with state := .quiet } st) &&
      decide (((linkedAt { fast with state := .quiet } st).pwr .q).state = st)) ∧
    ((quietAt .training none).boardChip 3 ≠ (quietAt .training none).me ∧ lonelyB (quietAt .training none) 3 = true) ∧
    (∀ c ∈ [1, 7], betweenB (quietAt .quiet (some (awaiting c))) && lonelyB (quietAt .quiet (some (awaiting c))) 3 &&
      decide ((awaiting c).at_ + 10000 ≤ (quietAt .quiet (some (awaiting c))).now)) ∧
    (let a : Await := { awaiting 1 with at_ := 4998500 }
     a.at_ + 1000 ≤ (quietAt .quiet (some a)).now ∧ (quietAt .quiet (some a)).now < a.at_ + 2000) := by decide +kernel

/-- Port 3 in training. -/
def trainAt (phase n attempt : Nat) : State :=
  linkedAt { Port.reset with state := .training, phase := phase, aliveIn := n, trainIn := n, attempt := attempt } .active
/-- Port 3 after its link went DOWN. -/
def downAt (why : Nat) : State := { linkedAt { Port.reset with state := .down, why := why } .active with now := 20000000 }

theorem test_links_train :
    (∀ ph < 5, ∀ n ∈ [1, 8], betweenB (trainAt ph n 0) && decide (((trainAt ph n 0).port 3).state = .training) && lonelyB (trainAt ph n 0) 3) ∧
    (∀ a < 3, ((trainAt 0 0 a).port 3).phaseAt + phaseLimit 0 ≤ (trainAt 0 0 a).now ∧ ((trainAt 0 0 a).port 3).attempt = a) ∧
    (sameBoard 3 (trainAt 4 0 0).me = true ∧ seatOf 3 = 3 ∧ sameBoard 0x13 (trainAt 4 0 0).me = false) ∧
    (∀ w ∈ [1, 3], betweenB (downAt w) && decide (((downAt w).port 3).why = w) &&
      decide (((downAt w).port 3).downAt + 10000000 ≤ (downAt w).now)) ∧
    (let s := linkedAt { Port.reset with state := .resuming, waitQ := [frm 6 0 0 0 []] } .active
     betweenB s = true ∧ s.contained (bCMB (shpWing 3)) = false ∧ (frm 6 0 0 0 []).vl < 4) ∧
    (betweenB (quietAt .resuming none) = true ∧ (quietAt .resuming none).active (shpWing 3) = true) := by decide +kernel

theorem test_links_clear : (fast : Port).clear ∧ ((trainAt 4 8 0).port 3).clear := ⟨⟨rfl, rfl, rfl⟩, by decide, by decide, by decide⟩

/-- A frame of this chip for seat 3. -/
def outFrm (b : Byte) : Frame := { frm 5 0 0 0 [b] with dst := 3 }
/-- Two frames that are not acknowledged. -/
def sent (n : Nat) : Port := { fast with
  unacked := [{ lseq := 4, f := outFrm 1 }, { lseq := 5, f := outFrm 2 }], replays := n, lseq := 6 }
def refusedPort (n : Nat) : Port := { fast with refusedQ := [(n, outFrm 1)] }
/-- Ports 3 and 6 FAST, for a frame between them. -/
def passing : State := { linkedAt fast .active with ports := [(3, fast), (6, fast)] }
def fwdFrm (fwd : Bool) (dst : BitVec 16) : Frame := { frm 3 0 0 0 [1] with fwd := fwd, dst := dst }

theorem test_fast_blocks :
    (∀ p ∈ [fast, sent 0, sent 3, refusedPort 0, refusedPort 6000000, { fast with quiescing := true, quiesced := true },
        { fast with quiescing := true, quiesced := true, waitQ := [outFrm 1] }, { fast with waitQ := [outFrm 1] }], betweenB (linkedAt p .active) &&
      decide ((linkedAt p .active).port 3 = p) && (linkedAt p .active).active (shpWing 3) && lonelyB (linkedAt p .active) 3 &&
      decide ((linkedAt p .active).severity (bSHP 3) 1 < 3) && !(linkedAt p .active).contained (bCMB (shpWing 3))) ∧
    ((idxsFrom (fun (y : TxFrame) => y.lseq == 5) 0 ((sent 0).acked 4 5000000).unacked).head? = some 0 ∧
      ((sent 0).acked 4 5000000).replays < ((linkedAt (sent 0) .active).link 3).retryLimit ∧
      ((linkedAt (sent 3) .active).link 3).retryLimit ≤ (sent 3).replays ∧ (sent 0).ackAt + 500 ≤ (linkedAt (sent 0) .active).now ∧
      ((sent 0).unacked.find? (fun z => z.lseq == 5)).isSome = true) ∧
    (((linkedAt fast .active).link 3).quietAfter ≠ 0 ∧
      fast.lastUse + 1000 * ((linkedAt fast .active).link 3).quietAfter ≤ (linkedAt fast .active).now ∧ fast.nakSent = false) ∧
    (betweenB passing = true ∧ sameBoard 6 passing.me = true ∧ seatOf 6 ≠ 3 ∧ passing.active (shpWing 6) = true ∧
      stillB (passing.port 3) = true ∧ stillB (passing.port 6) = true ∧ passing.boardChip 3 ≠ passing.me ∧
      passing.contained (bCMB (shpWing 6)) = false) := by
  refine ⟨?_, by decide +kernel, by decide +kernel, by decide +kernel⟩
  intro p h
  simp only [List.mem_cons, List.not_mem_nil, or_false] at h
  rcases h with rfl | rfl | rfl | rfl | rfl | rfl | rfl | rfl <;> decide +kernel

/-! ### Tunnel -/

/-- A packet from chip 0x21 with an ALIVE frame. -/
def pkt (seq ack : BitVec 16) : Packet :=
  { edge := false, src := 0x21, dst := 5, seq := seq, ack := ack, sack := 0, map := 0, bootSeq := 3, buildId := 0, busy := false
    crcOk := true, frame := { frm 0x21 0 0 0 [] with ftype := 0x02 } }
/-- A context with two frames that are not acknowledged, 3 and 4, after a number of timeouts. -/
def sending (n : Nat) : TunCtx := { openCtx with
  unacked := [{ seq := 2, at_ := 0, f := frm 0x21 0 0 0 [1] }, { seq := 3, at_ := 0, f := frm 0x21 0 0 0 [2] }], backoff := n, sacked := [3] }
def opening (n : Nat) : TunCtx := { openCtx with state := .opening, backoff := n, bootSeq := none }

theorem test_tunnel_packets :
    ([openCtx, { openCtx with ackOwed := some 100 }, sending 0, sending 8, { sending 8 with edge := true }, { sending 1 with trial := some 2 },
        opening 0, { opening 0 with busyAt := some 100 }, { openCtx with edge := true }].all (fun c =>
      betweenB (tunnelled c) && (tunnelled c).tunRuns && twf TunCtx.closed (tunnelled c).tun.ctxs && decide ((tunnelled c).ctx 2 = c) &&
        decide ((tunnelled c).ctxOf 0x21 = some 2) && decide (c.sentAt + 1000 * c.cur ≤ (tunnelled c).now) && decide (c.waitQ = []) &&
        decide (c.edgeAt + 10000000 ≤ (tunnelled c).now + 5000000))) = true ∧
    (∀ n < 3, ((pkt (BitVec.ofNat 16 (n + 5)) 4).crcOk = true ∧ (pkt (BitVec.ofNat 16 (n + 5)) 4).dst = live.me)) ∧
    (seqBefore 5 openCtx.rcvNxt = true ∧ (pkt 6 4).seq = openCtx.rcvNxt ∧ seqBefore 7 openCtx.rcvNxt = false) ∧
    ((sending 0).unacked.filter (fun x => !seqBefore x.seq 3)).length < (sending 0).unacked.length ∧
    (live.iml.buildId = (pkt 0 0).buildId ∧ live.me.toNat ≤ (pkt 0 0).src.toNat ∧ (tunnelled openCtx).tun.lost ≤ 0x7FF) ∧
    ((tunnelled openCtx).severity bTUN 1 < 3 ∧ (tunnelled openCtx).severity bTUN 2 < 3) := by decide +kernel

theorem test_tunnel_calm : (tunnelled openCtx).tunCalm := by
  refine ⟨by decide, by decide, ?_⟩
  intro j
  simp only [tunnelled, State.ctx, tget]
  split <;> simp [openCtx, TunCtx.closed]

/-! ### Power -/

/-- A running block whose queenside has a power state of its own; no link, context, sequencer or block has anything to do. -/
def powered (p : Pwr) : State := { live with wq := { live.wq with pwr := p } }
def pwrIn (st : PState) (h : Hand) : Pwr := { live.wq.pwr with state := st, hand := h }

theorem nothing_waits (p : Pwr) : (powered p).nothingWaits .q := by
  have none : ∀ y ∈ (powered p).barriers, False := by
    intro y hy
    rw [show (powered p).barriers = [] from rfl] at hy
    cases hy
  refine ⟨rfl, ?_, rfl, rfl, ?_, rfl, fun y hy => (none y hy).elim, ?_, fun k _ => ⟨rfl, rfl⟩, ?_, fun k _ => rfl,
    rfl, fun y hy => (none y hy).elim, rfl, rfl⟩
  · intro b _
    simp [show (powered p).blk b = Blk.reset from rfl, Blk.reset]
  · intro u hu
    cases hu
  · intro h hh
    cases hh
  · intro h
    cases h

/-- An image that lets both wings go deep, with every link but port 3 DOWN; both wings in a power state. -/
def deepish (st : PState) (p3 : Port) : State :=
  let s := linkedAt p3 st
  { s with
    img := { s.img with power := { s.img.power with deepestQ := 2, deepestK := 2 } }
    ports := (List.range 16).map (fun k => (k, if k = 3 then p3 else { fast with state := .down }))
    wk := { s.wk with pwr := { s.wk.pwr with state := st } } }

theorem test_power_states :
    State.reset.inReset = true ∧
    ((∀ st ∈ [PState.adjourned, .deep, .off], betweenB (powered (pwrIn st .none)) = true) ∧ betweenB (powered (pwrIn .active .none)) = true ∧
      (∀ l < 3, let s := powered { pwrIn .active .none with plvl := l }
        s.active .q = true ∧ (s.pwr .q).plvl = l ∧ hi (s.pnom .q) 1 = 1)) ∧
    ((∀ h ∈ [Hand.step, .drain], let s := powered (pwrIn .active h)
        s.anyActing .q = false ∧ s.active .q = true ∧ s.effective .q = (s.pwr .q).target) ∧
      (seqUp live (seqAt .acting (some flagPly))).anyActing .q = true) ∧
    (let s := { powered (pwrIn .active .none) with trace := live.trace.setCalm .q 1000000 }
     betweenB s = true ∧ s.voteCount .q = 0 ∧ s.quiescent .q = true ∧ s.contained bTCU = false ∧ s.deepest .q = 0 ∧
        s.cyclesIn .q (s.trace.calm .q) 64 = true ∧ live.cyclesIn .q (live.trace.calm .q) 64 = false ∧
      (deepish .active fast).deepest .q = 2 ∧ (deepish .active fast).quiescent .q = true ∧
      (deepish .active fast).fitsH .q (exitAdjourned ((deepish .active fast).effective .q) + (deepish .active fast).img.power.beAdj) = true) ∧
    (∀ ap < 4, ∀ h ∈ [Hand.none, .mem], ∀ y ∈ [none, some (5, 6, 7)], let s := powered { pwrIn .entering h with ap := ap, wakePend := y }
      betweenB s = true ∧ (s.pwr .q).state = .entering ∧ s.effective .q = (s.pwr .q).plvl ∧
        (h = .none → s.quiescent .q = true ∧ s.edgeQuiet .q = true)) ∧
    (let s := linkedAt fast .entering
     betweenB s = true ∧ s.edgeQuiet .q = false) ∧
    ((deepish .adjourned { fast with state := .cold }).mayDeepen = true ∧ (deepish .adjourned { fast with state := .cold }).portsCold = true) ∧
    ((deepish .adjourned { fast with state := .quiet }).mayDeepen = true ∧ (deepish .adjourned { fast with state := .quiet }).portsCold = false) ∧
    (∀ st ∈ [PState.deep, .adjourned], let s := deepish st { fast with state := .cold, coldMine := true, leaseEnd := 20001 }
      betweenB s = true ∧ s.leaseEnds ≠ [] ∧ (∀ x ∈ s.leaseEnds, x ≤ s.now)) := by decide +kernel

/-- A wing that is on its way back, with what its exit waits for; `late` when the signal is overdue. -/
def exitIn (from_ : PState) (h : Hand) (late : Bool) : State :=
  powered { pwrIn .exiting h with exitFrom := from_, reqAt := if late then 0 else 4999990 }

/-- A wing that comes back from IDLE. -/
theorem test_idle_exit :
    betweenB (exitIn .idle .none false) = true ∧ (exitIn .idle .none false).overdue .k = false ∧
    ((exitIn .idle .none false).pwr .q).exitFrom = .idle ∧ (exitIn .idle .none false).effective .q = ((exitIn .idle .none false).pwr .q).plvl := by
  decide +kernel

theorem test_power_handshakes :
    (∀ h ∈ [Hand.reg, .osc, .pll, .mem, .restore, .none], ∀ f ∈ [PState.adjourned, .entering, .idle], ∀ late : Bool,
      let s := exitIn f h late
      betweenB s = true ∧ s.overdue .k = false ∧ s.overdue .q = (late && (h == .reg || h == .osc || h == .mem)) ∧
        s.effective .q = (s.pwr .q).plvl ∧ s.effective .q = (s.pwr .q).target) ∧
    (∀ l < 2, let s := powered { pwrIn .active .stepReg with target := l, reqAt := 4999990 }
      betweenB s = true ∧ s.overdue .q = false ∧ (s.pwr .q).target = l ∧ s.effective .q = (s.pwr .q).plvl) ∧
    ((exitIn .adjourned .restore false).severity bTCU 4 < 3 ∧ (exitIn .adjourned .restore false).contained (bING .q) = false ∧
      (exitIn .adjourned .reg true).condTrue bTCU 3 = false ∧ (exitIn .adjourned .reg true).severity bTCU 3 < 3) := by decide +kernel

/-! ### Faults and repair -/

/-- The wave of ALIVE_OUT follows what the block does (R347). -/
def waved (s : State) : State := { s with trace := { s.trace with wave := { s.trace.wave with run := s.aliveRuns } } }
/-- A running block with the fault registers of one block. -/
def faulty (b : Nat) (x : Blk) : State := waved { linkedAt fast .active with blks := [(b, x)] }
def inGrace : Blk := { Blk.reset with fstate := .grace, graceEnd := 4000000, graceBy := 5, rlimit := 3, exitImg := true }
def quietened (n : Nat) : Blk := { Blk.reset with fstate := .contained, exitImg := true, cause := 4, quiet := 100, rlimit := 3, rcount := n }
def reloads (ecc : Bool) : Blk :=
  { Blk.reset with fstate := .reload, reloading := true, rlimit := 3, stat := if ecc then BitVec.twoPow 32 31 else 0 }

theorem test_faults_react :
    (∀ b ∈ [bSEAM, bIML, bREP, bING .q, bCMB .k, bTUN, bTCU, bFIL 4, bWAKE .q, bSHP 3], (faulty b inGrace).joined = [] ∧ betweenB (faulty b inGrace) = true ∧ ((faulty b inGrace).blk b).fstate = .grace ∧
      (faulty b inGrace).clocked b = true ∧ (inGrace.graceEnd + 999) / 1000 ≤ (faulty b inGrace).now / 1000) ∧
    (∀ b ∈ [bTCU, bSEQ .q, bSHP 3], ∀ n < 4, betweenB (faulty b (quietened n)) = true ∧ (faulty b (quietened n)).clocked b = true ∧
      (quietened n).stat.getLsbD 31 = false ∧ (quietened n).lastSet + (quietened n).quietNs ≤ (faulty b (quietened n)).now) ∧
    ((faulty (bSHP 3) (quietened 0)).portOn (bSHP 3 - 20) = true ∧ bSHP 3 = 23) ∧
    (∀ e : Bool, betweenB (faulty bTCU (reloads e)) = true ∧ (reloads e).stat.getLsbD 31 = e ∧ (faulty bTCU (reloads e)).iml.released = false) ∧
    (let s := { live with alive := [(2, { seen := true, still := false, at_ := 4998000 })] }
     betweenB s = true ∧ (tget AliveIn.none s.alive 2).at_ + 2000 ≤ s.now ∧ s.condTrue bTCU 10 = false ∧ s.severity bTCU 10 < 3) ∧
    (let s := { live with alive := [(2, { seen := true, still := false, at_ := 4998000 })], blks := [(bTCU, { Blk.reset with sevs := [(10, 3)] })] }
     betweenB s = true ∧ s.severity bTCU 10 = 3 ∧ s.contained bTCU = false ∧ s.joined = [] ∧ s.active .q = true ∧ s.active .k = true) := by
  decide +kernel

/-- An object on its way out, in a file whose ECC_UE is of severity CONTAIN; a waiter of another object of the file. -/
def failing : State := { wait (flagUp true) 0x108 6 1 .flag 0x108 with
  recs := [(0x100, some { slot := 0, obj := some (ofBody (.flag true 3)), touched := false, evicting := true })]
  blks := [(bFIL 0, { Blk.reset with sevs := [(5, 3)] })] }
theorem file_rests (s : State) (h : decide (twf none s.slots = true) && decide (s.glockReqs = []) && decide (s.held = []) = true) (f : Nat) :
    s.fileRests f := by
  simp only [Bool.and_eq_true, decide_eq_true_eq] at h
  refine ⟨h.1.1, ?_, ?_⟩
  · rw [h.1.2]
    exact fun _ k => (List.not_mem_nil k).elim
  · rw [h.2]
    exact fun _ k => (List.not_mem_nil k).elim
theorem test_write_back_contains : failing.between ∧ failing.severity (bFIL (fileOf 0x100)) 5 = 3 ∧ failing.contained (bFIL 0) = false ∧
    (failing.resident 0x100).map Resident.evicting = some true ∧ failing.fileRests 0 ∧ failing.active (wingOf 0x100) = true ∧
    (faulty (bFIL 4) inGrace).fileRests 4 :=
  ⟨between_of (by decide), by decide, by decide, by decide, file_rests _ (by decide +kernel) 0, by decide, file_rests _ (by decide +kernel) 4⟩

/-- A running block whose queenside has its own repair state. -/
def repairing (f : WingSt → WingSt) : State := { live with wq := f live.wq }
/-- A bank none of whose spares is usable. -/
def spent : Bank := { Bank.sound with bad := 0xFF }
/-- A repair record that waits to be written, with the positions of the copy in use. -/
def rec0 : RepRec :=
  { type := 1, wing := .q, bank := 5, row := 6, spare := 0, rseq := 0, boot := 7, time := 9, obj0 := none, obj1 := none }
def recording (positions : Nat) : State := { live with
  iml := { live.iml with queue := [rec0] }, rep := { live.rep with positions := positions } }
def bootRecording (n : Nat) : State := { live with iml := { live.iml with bootNext := n } }

theorem test_repairs_apply :
    (∀ n ∈ [5, 33000], let s := repairing (fun x => { x with scrubAt := n })
      betweenB s = true ∧ (s.wing .q).scrubAt = n ∧ s.contained bREP = false ∧ s.severity bREP 0 < 3 ∧ s.severity (bFIL 0) 5 < 3 ∧
        (s.bank .q 0).degraded = false ∧ (s.bank .q 0).retired = [] ∧ (s.bank .q 0).spareOf 5 = none ∧ tget 0 (s.bank .q 0).remaps 5 < 3 ∧
        (s.wing .q).remapQ = [] ∧ (s.wing .q).watch = [] ∧ s.rowFind .q n = .clean ∧ s.active .q = true) ∧
    (let s := repairing (fun x => { x with scrubAt := 5, watch := [{ bank := 0, row := 5, count := 1, quiet := 2, since := false }] })
     betweenB s = true ∧ ((s.wing .q).watch.find? (fun y => y.bank == 0 && y.row == 5)).map Watch.count = some 1) ∧
    (let s := repairing (fun x => { x with remapQ := [(5, 6)] })
     betweenB s = true ∧ (s.bank .q 5).usable[2]? = some 2 ∧ s.severity bREP 1 < 3 ∧ s.holdsRecords = false ∧ s.onHold = []) ∧
    (let s := { repairing (fun x => { x with remapQ := [(50, 6)] }) with rep := { live.rep with banks := [(50, spent)] } }
     betweenB s = true ∧ (s.bank .q 50) = spent ∧ (s.bank .q 50).usable[0]? = none ∧ s.degradedIn .q = 0 ∧ s.severity bREP 3 < 3) ∧
    (let s := repairing (fun x => { x with dispQ := [7] })
     betweenB s = true ∧ (s.wing .q).dispQ.contains 7 = true ∧ s.severity (bSEQ .q) 2 < 3) ∧
    (∀ n ∈ [0, 5, 2048], betweenB (recording n) = true ∧ (recording n).holdsRecords = false ∧ (recording n).severity bIML 0 < 3 ∧
      (recording n).severity bIML 1 < 3) ∧
    (∀ n ∈ [5, 128], betweenB (bootRecording n) = true ∧ (bootRecording n).bootRecordDue = true ∧ (bootRecording n).iml.release = false) := by
  decide +kernel

/-! ### Start-up and test access -/

/-- A block at a stage of start-up. -/
def startAt (st : Stage) : State := { State.reset with iml := { Iml.reset with porLow := false, stage := st } }
/-- A wing whose start-up has brought it this far. -/
def risenPwr : Pwr := { Pwr.reset with regEn := true, oscEn := true, memLvl := 0 }
def rising (p : Pwr) : State := { startAt .wingUp with
  now := 20000000, pins := { flResetN := true }, wq := { WingSt.reset with pwr := p }, wk := { WingSt.reset with pwr := p } }

/-- A flash with both modes, and a directory copy: slots at 0x10000 and 0x40000, boot records at 0x70000, chip 5. -/
def sfdp (present : Bool) : Sfdp :=
  { present := present, octalTable := true, octalSeq := true, quad := true, qeNeeded := false, qeSet := false, density := 0x1000000
    dummies := 20, fourByte := false }
def dirBody : List Byte := leBytes 4 0x52445354 ++ leBytes 4 1 ++ leBytes 4 0x10000 ++ leBytes 4 0x40000 ++ [0, 0, 5, 0] ++ leBytes 4 0x70000 ++
  List.replicate 36 0
def dirBytes : List Byte := dirBody ++ leBytes 4 (crc32c dirBody).toNat
def dirOf : Directory := { slotA := 0x10000, slotB := 0x40000, preferB := false, chipId := 5, bootRec := 0x70000, density := 0x1000000 }

/-- The section entries of a small image: type, offset, length and COUNT. -/
def smallSecs : List (Nat × Nat × Nat × Nat) :=
  [(1, 0x200, 65536, 1024), (2, 0x10200, 3072, 768), (3, 0x10E00, 64, 0), (4, 0x10E40, 576, 0), (5, 0x11080, 8512, 1), (6, 0x131C0, 0, 0),
    (7, 0x131C0, 256, 1), (8, 0x132C0, 32, 1)]
/-- Its fields that are not zero, as offset and value (Tables 2.3, 2.4, 4.1, 2.6, 10.1, 8.2, 11.12 and 13.3): domain 0 with position 0,
group 0 of seat 5 alone, and nothing else. -/
def smallFields : List (Nat × Nat) :=
  [(0, 0x4C534154), (4, 2), (6, 0x200), (8, 0x14000), (0xC, 1), (0xE, 0x0B), (0x18, 3)] ++
  ((List.range 8).zip smallSecs).flatMap (fun x => let o := 0x20 + 16 * x.1
    [(o, x.2.1), (o + 4, x.2.2.1), (o + 8, x.2.2.2.1), (o + 12, x.2.2.2.2)]) ++
  [(0x200, 1), (0x204, 1000), (0x208, 100), (0x20C, 100), (0x210, 65536), (0x214, 65536), (0x218, 100), (0x21A, 100), (0x21C, 100),
    (0x21E, 100), (0x220, 4), (0x222, 1), (0x224, 10), (0x226, 10), (0x228, 100), (0x22A, 100), (0x10200, 2 ^ 20)] ++
  (List.range 16).map (fun k => (0x11080 + 16 * k + 2, 3)) ++
  [(0x13180, 3), (0x13184, 0x20), (0x131C4, 100), (0x131CC, 100), (0x132C0, 0x80000), (0x132C4, 0x80000), (0x132C8, 0x90000),
    (0x132D0, 0xA0000), (0x132D8, 0xB0000)]
/-- The image. -/
def small : Image := { bits := smallFields.foldl (fun n x => n + x.2 <<< (8 * x.1)) 0 }
/-- What the image says, as the sections' content. -/
def smallBody : ImageBody :=
  { ImageBody.empty with
    domains := roomyDom 0 0 :: List.replicate 1023 DomainEnt.disabled
    posmap := { spare := false, enabled := true, schedPos := 0, dom := 0 } :: List.replicate 767 PosEnt.disabled
    seqs := List.replicate 32 { enabled := false, autostart := false, actPos := 0, dom := 0, startPly := 0, objBase := 0, w0 := 0, w1 := 0, w2 := 0, w3 := 0 }
    links := List.replicate 16 { enabled := false, txPreset := 0, retryLimit := 3, quietAfter := 0, coldLease := 0 }
    peers := List.replicate 512 { chip := 0, rto := 0, valid := false }
    groups := [{ GroupEnt.none with valid := true, top := 1, seats := 0x20 }]
    power := { ImageBody.empty.power with guard := 100, waitLimit := 100, qmask := List.replicate 16 (0, 0) }
    repair := { region := 0x80000, copy0 := 0x80000, copy1 := 0x90000, dispQ := 0xA0000, dispK := 0xB0000 } }
/-- What its header says. -/
def smallHdr : ImageHdr :=
  { magic := 0x4C534154, format := 2, hdrSize := 0x200, imageSize := 0x14000, secVersion := 1, targetRev := 0x0B, hostId := 0, relVersion := 0
    buildId := 3, reservedZero := true
    sections := smallSecs.map (fun x => { type := x.1, flags := 0, offset := x.2.1, length := x.2.2.1, count := x.2.2.2 })
    pubkey := List.replicate 0x61 0, sigR := 0, sigS := 0 }
theorem small_hdr : small.hdr = smallHdr := by decide +kernel
theorem small_places : small.at_ = { dom := 0x200, pos := 0x10200, obj := 0x10E00, presets := 0, members := 0, grants := 0, opn := 0x10E40
                                     plies := 0, paged := 0, topo := 0x11080, groups := 1, sev := 0x131C0, sevs := 0, power := 0x131C0
                                     repair := 0x132C0 } := by decide +kernel

theorem small_body : small.body = smallBody := by decide +kernel
theorem small_zero : small.bodyZero 5 = true := by decide +kernel
theorem small_sizes : (small.sizesOk && (small.sec 5).length == 8512 && small.num 0x10E00 8 == 0) = true := by decide +kernel

/-- A block at LOAD with a directory and a slot to read. -/
def loading : State := { startAt .load with iml := { (startAt .load).iml with dir := some dirOf, trying := some false, chip := 5 } }

/-- Disabled domains overlap nothing. -/
theorem apart_disabled (a x : DomainEnt) (h : x.enabled = false) (n : Nat) : apart (a :: List.replicate n x) = true := by
  have k : ∀ m, apart (List.replicate m x) = true := by
    intro m
    induction m with
    | zero => rfl
    | succ m ih => simp [List.replicate_succ, apart, ih, DomainEnt.overlaps, h]
  simp [apart, k, DomainEnt.overlaps, h]

/-- Sequencers that are all disabled pass the checks of R196. -/
theorem seqs_disabled : smallBody.seqsOk = true := by
  have h : ∀ d, (smallBody.seqs.filter (fun e => e.enabled && e.autostart && e.dom == d)).length = 0 := by
    intro d
    rw [List.length_eq_zero_iff, List.filter_eq_nil_iff]
    intro e he
    rw [List.eq_of_mem_replicate he]
    simp
  unfold ImageBody.seqsOk
  simp only [h, Nat.zero_le, decide_true, Bool.and_eq_true, List.all_eq_true]
  refine ⟨⟨by decide, ?_⟩, fun _ _ => trivial⟩
  intro e he
  have k := List.eq_of_mem_replicate he
  subst k
  rfl

/-- The checks of R53 but for those above. -/
theorem small_accepted : (smallBody.domains.all DomainEnt.ok && smallBody.positionsOk &&
    smallBody.pliesOk && smallBody.linksOk 5 && smallBody.groupsOk 5 && smallBody.sevsOk && smallBody.power.ok &&
    smallBody.repair.ok dirOf false 0x14000 0x14000 && (loading.loadBody smallBody).isSome) = true := by decide +kernel
theorem small_header : (smallHdr.ok 0x10000 0x1000000 0 && smallHdr.sectionsOk) = true := by decide +kernel
theorem small_counts : small.countsOk = true := by
  have h : ((small.sec 1).count == 1024 && (small.sec 2).count == 768 && (small.sec 7).count == 1 && (small.sec 8).count == 1 &&
    smallBody.presets.length == (small.sec 3).count) = true := by decide +kernel
  unfold Image.countsOk
  rw [small_body]
  exact h
theorem test_load_accepts_content : loading.contentOk dirOf false small 0x14000 = true := by
  have h : apart smallBody.domains = true := apart_disabled (roomyDom 0 0) DomainEnt.disabled rfl 1023
  have k := small_accepted
  have z := small_sizes
  simp only [Bool.and_eq_true] at k z
  obtain ⟨⟨⟨⟨⟨⟨⟨⟨k1, k2⟩, k3⟩, k4⟩, k5⟩, k6⟩, k7⟩, k8⟩, k9⟩ := k
  unfold State.contentOk
  simp only []
  rw [small_body, small_hdr, z.1.1, small_counts, show seatOf loading.iml.chip = 5 from rfl, small_zero, k1, h, k2, k3, seqs_disabled, k4,
    show loading.iml.chip.toNat = 5 from rfl, k5, k6, k7, show smallHdr.imageSize = 0x14000 from rfl, k8, k9]
  rfl

/-- A block at VERIFY with an image staged, whose ROM digest differs from the digest of the image's key by `d`. -/
def verifying (d : BitVec 384) (m : Image) : State := { loading with
  iml := { loading.iml with stage := .verify, staged := some m }, rom := { loading.rom with rootDigest := sha384 m.hdr.pubkey + d } }

theorem test_verify_rejects (o : Option Nat) : verifyCode (verifying 1 small).rom small o = some 5 := by
  have h : sha384 small.hdr.pubkey ≠ sha384 small.hdr.pubkey + 1 := by simp
  unfold verifyCode
  rw [if_pos (by exact h)]

/-- The image is accepted where its signature verifies (R55). -/
theorem test_verify_accepts (m : Image) (n : Nat) (h : ecdsaP384 m.hdr.pubkey m.hdr.sigR m.hdr.sigS m.digest = true)
    (k : n ≤ m.hdr.secVersion) : verifyCode (verifying 0 m).rom m (some n) = none := by
  unfold verifyCode
  rw [h, if_neg (by simp [verifying])]
  simp [Nat.not_lt.mpr k]

/-- An image that VERIFY commits, and one whose presets are refused (a preset of no domain): VERIFY loads the body of each. -/
theorem test_verify_loads : (loading.loadBody smallBody).isSome = true ∧
    (loading.loadBody { smallBody with presets := [{ obj := 0, pin := false, cold := false, owner := 0, members := [], body := .flag false }] }
      ).isSome = false := by decide +kernel

/-- A stage of start-up out of reset between steps, as a test. -/
def startingB (s : State) (st : Stage) : Bool :=
  calmB s && !s.inReset && decide (s.iml.stage = st)

theorem test_stages_start :
    (∀ st ∈ [Stage.aonUp, .wingUp, .discovery, .load, .verify, .bist, .repair, .linkTrain], startingB (startAt st) st = true) ∧
    (State.reset.iml.porLow = true ∧ State.reset.tap.ir ≠ .extest ∧ (startAt .aonUp).iml.porLow = false) ∧
    (∀ w ∈ [Wing.q, .k], ((rising risenPwr).pwr w).risen = true ∧ startingB (rising risenPwr) .wingUp = true ∧
      ((rising risenPwr).pwr w).dead (rising risenPwr).now = false) ∧
    (∀ w ∈ [Wing.q, .k], ((rising { risenPwr with hand := .osc }).pwr w).risen = false ∧
      ((rising { risenPwr with hand := .osc }).pwr w).dead (rising { risenPwr with hand := .osc }).now = true) ∧
    (flashModeOf State.reset.rom (sfdp true) = 2 ∧ flashModeOf State.reset.rom (sfdp false) = 0) ∧
    (chooseDir (parseDir dirBytes 0x1000000) (parseDir [] 0x1000000) = some (false, dirOf) ∧
      chooseDir (parseDir [] 0x1000000) (parseDir [] 0x1000000) = none) ∧
    (startingB loading .load = true ∧ loading.iml.dir = some dirOf ∧ loading.rep.bistRows = []) ∧
    ({ startAt .bist with iml := { (startAt .bist).iml with restarted := true } }.iml.restarted = true ∧ (startAt .repair).rep.bistRows = []) ∧
    ({ startAt .verify with rom := { State.reset.rom with otpMode := 1 } }.rom.otpOn = true) ∧
    (startAt .bist).iml.restarted = false := by decide +kernel

theorem test_load_accepts : loading.loadCheck dirOf false (.image small 0x14000) = .ok small := by
  have h := small_header
  simp only [Bool.and_eq_true] at h
  have h1 : smallHdr.ok (dirOf.offset false) dirOf.density loading.rom.hostId = true := h.1
  unfold State.loadCheck
  simp only []
  rw [small_hdr, h1, h.2, test_load_accepts_content]
  rfl

theorem test_load_read_error : loading.loadCheck dirOf false .readError = .error 2 := rfl

theorem test_verify_stage (m : Image) : (verifying 0 m).iml.staged = some m ∧ (verifying 0 m).iml.trying = some false ∧
    (verifying 0 m).iml.stage = .verify ∧ startingB (verifying 0 m) .verify = true :=
  ⟨rfl, rfl, rfl, rfl⟩
theorem test_link_train : (startAt .linkTrain).rep.banks = [] ∧ (startAt .linkTrain).rep.slowObjs = [] ∧
    (∀ n < 8, (startAt .linkTrain).stranded n = [] ∧ 33 ≤ (startAt .linkTrain).freeSlots n) ∧ ∀ k < 32, ((startAt .linkTrain).seqEnt k).autostart = false := by decide +kernel

/-- The test access network is selected. -/
def ijtagged (s : State) : State := { s with tap := { s.tap with ir := .ijtag } }
/-- A boot hold. -/
def heldBoot (hold mbist : Bool) : State := { ijtagged (startAt .wingUp) with
  tap := { State.reset.tap with ir := .ijtag, holdBoot := hold, mbist := mbist }
  wq := { WingSt.reset with pwr := { Pwr.reset with state := .active } }, wk := { WingSt.reset with pwr := { Pwr.reset with state := .active } } }
/-- Port 3 in a loopback or at the margin. -/
def point : MarginPt := { phase := 1, threshold := 2, dwell := 16, headers := 0, crcs := 0, replays := 3 }
def looping (st : PortState) : State := ijtagged (linkedAt { fast with state := st, loop := some .phy, margin := some point } .active)

theorem test_test_access :
    (live.tap.ir ≠ .extest ∧ live.network = false ∧ (ijtagged live).network = true ∧ (ijtagged live).bootHeld = false ∧
      ({ live with tap := { live.tap with ir := .extest } } : State).iml.porLow = false ∧
      ({ State.reset with tap := { State.reset.tap with ir := .wrapSel } } : State).iml.porLow = true) ∧
    (∀ h, (heldBoot h false).bootHeld = true ∧ (heldBoot h false).network = true ∧ (heldBoot h true).tap.mbist = true ∧
      (heldBoot h false).anyLoop = false) ∧
    (regWing 0x300 = none ∧ (faultRegAt 0x300).isNone = true ∧ regWing 0x40000 = some .q ∧ (live.pwr .q).powered = true ∧
      ((heldBoot true false).pwr .k).powered = true ∧ ((startAt .wingUp).pwr .q).powered = false) ∧
    ((looping .down).port 3).loop = some .phy ∧ ((looping .down).port 3).state = .down ∧ (looping .down).inReset = false ∧
    (looping .down).bootHeld = false ∧ ((looping .fast).port 3).state = .fast ∧
    ((looping .fast).port 3).margin = some point ∧ (∀ k < 16, (live.port k).loop = none) := by decide +kernel

theorem test_stat_register : faultRegAt (faultBase bTCU) = some (bTCU, 0) := by decide +kernel

/-! ### The whole block -/

theorem test_step_runs_front : ({ live with pending := [.rateTick, .deepen] } : State).pending = [.rateTick, .deepen] ∧
    live.pending = [] ∧ live.inReset = false ∧ live.tsync.slew = 0 ∧ State.reset.pending = [] ∧ State.reset.inReset = true := by decide
/-- A block at the last 20 ns of a µs. -/
def tickNext : State := { live with now := 5000980 }
theorem test_tick_passes : (tickNext.now + 20) / 1000 ≠ tickNext.now / 1000 ∧ tickNext.tickRests ∧ tickNext.between :=
  ⟨by decide, ⟨by decide, by decide, by decide, fun _ => rfl, by decide, by decide⟩, between_of (by decide)⟩
/-- Two commands of one cycle on the pipe of one file: the lower port's enters first (R21). -/
theorem test_cycle_order : (∀ heads, live.first heads (.flagSet (at_ 6) (word 0x100 0 0)) (.flagSet (at_ 400) (word 0x100 0 0)) = true) ∧
    live.cycleOk [.flagSet (at_ 6) (word 0x100 0 0), .flagSet (at_ 400) (word 0x100 0 0)] = true ∧
    live.cycleOk [.flagSet (at_ 400) (word 0x100 0 0), .flagSet (at_ 6) (word 0x100 0 0)] = false := by decide
theorem test_calm_step : State.reset.calm ∧ ∃ t, step State.reset = .next t := by
  refine ⟨⟨by decide, by decide, by decide⟩, State.reset, ?_⟩
  have h : State.reset.pending = [] := rfl
  have k : State.reset.inReset = true := by decide
  unfold step State.idle
  rw [h, k]
  rfl
theorem test_reset_registers : (regAt 0x10180).isSome = true ∧ (regAt 0x20028).isSome = true := by decide +kernel
/-- The command at the front of the queue runs on the queue's rest: PORESET_N is released, and an empty slot of the ring reads none. -/
theorem test_step_takes_front : (match step { State.reset with pending := [.poresetRelease, .deepen] } with
    | .next t => t.iml.porLow == false && t.pending == [.deepen]
    | _ => false) = true := by decide +kernel

/-! ### Words written out from the spec's layouts -/

/-- Table 3.1: SEM_TAKE (0x11) with SLOT 2, PRIO 5, TAG 0xA7, WAIT, OBJ 0x00101, ARG 0x12345 and DATA 2. -/
theorem test_command_word : decodeCommand (at_ 6) 0x455A7800101123450000000000000002 =
    .semTake (at_ 6) { slot := 2, prio := 5, tag := 0xA7, wait := true, eager := false, staged := false, notify := false
                       obj := 0x101, arg := 0x12345, data := 2 } := by decide
/-- Table 3.3: GRANT (0x04) with ARG[10] is the revoke row; 0x3F and 0x07 are reserved (R9). -/
theorem test_grant_word : decodeCommand (at_ 6) (encode (.grantRevoke (at_ 6) (word 0x101 0x400 0))) = .grantRevoke (at_ 6) (word 0x101 0x400 0) ∧
    Op.ofCode 0x3F = none ∧ Op.ofCode 0x07 = none := by decide
/-- Table 3.2: STATUS 05 (BUSY) in bits 63:59, TAG 0xA7 in 58:51, VALUE 3. -/
theorem test_response_word : ({ status := .busy, tag := 0xA7, value := 3 } : Resp).word = 0x2D38000000000003 := by decide
/-- Table 3.8: SET of slot 3 with mask bits 0 and 2: five ones, so the parity bit is 1. -/
theorem test_wake_beat : encodeBeat .set 3 5 = 0xC3000000000005 := by decide +kernel
/-- R279: seat 0, class 1: the remainder of x^4 by x^4 + x + 1 is x + 1. -/
theorem test_quiet_frame : encodeQuiet 0 1 = 0x013 := by decide
/-- R47: CRC-32C of the nine digits, its usual check value. -/
theorem test_crc32c : crc32c [0x31, 0x32, 0x33, 0x34, 0x35, 0x36, 0x37, 0x38, 0x39] = 0xE3069283 := by decide +kernel

/-- Table 10.7: IDLE with ACK 0xFF and no credit: BTYPE 0x1E in byte 0, ACK in byte 2; QUIESCE and NAK 5 with ACK 4. -/
theorem test_control_blocks : (Ctl.idle 0xFF 0 0).low = 0x00FF001E ∧ (Ctl.quiesce 4).low = 0x0004004B ∧ (Ctl.nak 5 4).low = 0x0004052D ∧
    (Ctl.train 0x0305 0x11223344).block = ⟨0b10, 0x1122334400030578⟩ := by decide +kernel
/-- Table 10.10: the header of a frame of FTYPE 0x10 from chip 0x0102 to 0x0305 of domain 0x3FF at L3, object 0xABCDE, group 0x12. -/
theorem test_frame_header : ({ frm 0x0102 3 0xABCDE 0x01020304 [] with ftype := 0x10, term := 7, dst := 0x0305, dom := 0x3FF, group := 0x12 } :
    Frame).header = [0x10, 7, 2, 1, 5, 3, 0xFF, 0x0F, 0xDE, 0xBC, 0x2A, 0x01, 4, 3, 2, 1] := by decide +kernel

/-! ### Ill-formed commands are refused -/

def short : Frame := frm 3 0 0 0 [1]
theorem test_ill_formed : [Instr.nop (at_ 768) (word 0 0 0), .grant (at_ 5) (word 0 0x400 0), .grantRevoke (at_ 5) (word 0 0 0),
    .responseEntryRead .q 768 0x4050 16 true, .responseEntryRead .q 5 0x100 17 true, .lateCompletion 768, .queuedCommandResume 768 .q 0,
    .secondStalemateWalk 0 768, .orphaning 768, .rstNotify 1024, .plyPageArrival .q 23552 (List.replicate 64 0) false,
    .plyPageArrival .q 0 [] false, .holdDurationEnd (.pos 768), .holdDurationEnd (.seq 32), .hello 3 eof short, .remote 3 eof short,
    .reservedFtype 3 eof short, .aliveDue (.ctx 512), .levelDeadline 0 0 0, .suspectForget 0 0 0, .probeDue 512, .ackDelay 512,
    .tunnelData (pkt 0 0), .graceExpiry 37, .registerReload 37 true, .scrubRow .q (.corrected 0), .scrubRow .q (.corrected 17),
    .displacementCopy .q 4096 false, .discovery (sfdp true) [] dirBytes, .discovery (sfdp true) dirBytes [], .bist [⟨.q, 67, 0⟩] [],
    .bist [] [⟨.q, 0, 512⟩], .mbistDone [⟨.q, 0, 512⟩] [], .mbistDone [] [⟨.q, 0, 8⟩], .ingLoadClrCnt (at_ 768) 0 .q,
    .nop { at_ 5 with strikes := { Strikes.none with rows := [(⟨.q, 5, 6⟩, .corrected 17)] } } (word 0 0 0),
    .nop { at_ 5 with path := .caught 0 37 } (word 0 0 0), .nop { at_ 5 with strikes := { Strikes.none with parity := [(0, 0)] } } (word 0 0 0),
    .nop { at_ 5 with strikes := { Strikes.none with regs := [(37, 0)] } } (word 0 0 0), .nop { at_ 5 with strikes := { Strikes.none with rows := [(⟨.q, 67, 0⟩, .clean)] } } (word 0 0 0),
    .repair (List.replicate 2049 0) [] ⟨[], []⟩ none, .repair [] [] ⟨List.replicate 129 0, []⟩ none, .repair [] [] ⟨[], []⟩ (some ⟨.q, 64, 0⟩),
    .bootRecordAppend ⟨true, List.replicate 129 0, []⟩, .flashReclaim (at_ 768) ⟨0, sfdp true⟩, .traceEnable (.agent (at_ 768) 0) .ctl 0x80000000,
    .traceEnable (.agent (at_ 5) 0) .ctl 0, .traceEnable (.agent (at_ 5) 0) .sel 0x80000000, .pcselWrite (at_ 5) 0 0 10,
    .reservedOpcode (at_ 5) (word 0 0 0) 0x11, .badSubmit .q ⟨1024, 0⟩].all (fun i => !i.wf) = true := by decide +kernel
theorem test_well_formed : [Instr.nop (at_ 767) (word 0 0 0), .grant (at_ 5) (word 0 0 0), .grantRevoke (at_ 5) (word 0 0x400 0),
    .margin 3 32 (-50) 30 255, .reservedOpcode (at_ 5) (word 0 0 0) 0x3F, .badSubmit .q ⟨768, 0⟩, .scrubRow .q (.corrected 16),
    .mbistDone [⟨.q, 63, 511⟩] [⟨.q, 63, 7⟩], .traceEnable (.agent (at_ 5) 0) .ctl 0x80000000, .traceEnable .test .sel 5,
    .nop { at_ 5 with path := .caught 0 36 } (word 0 0 0), .repair [] (List.replicate 2048 0) ⟨[], List.replicate 128 0⟩ none].all Instr.wf = true := by decide +kernel

end Sys2Proof.Tests
end

section
/-! SUPPORT. Flags and semaphores (R177 to R179, R186, R187): what each body answers, which takers a count serves, and the two
obligations about them. -/
namespace Sys2Proof.Machine

/-! ### What a command that changes one record leaves alone -/

/-- A command that has changed one record alone has bound, completed and withdrawn no waiter. -/
theorem State.changed.wakes_none {s t : State} {obj : Nat} {o : Option Obj} (h : s.changed t obj o) :
    s.wakes t obj (s.waiters obj) [] := by
  obtain ⟨_, hframe⟩ := h
  rw [hframe]
  exact ⟨fun _ _ => rfl, rfl, fun _ _ => rfl⟩

/-- A change of one record is within what a command that serves waiters may change. -/
theorem State.changed.serves {s t : State} {obj : Nat} {o : Option Obj} (h : s.changed t obj o) : s.serves t := by
  obtain ⟨_, hframe⟩ := h
  rw [hframe]
  exact ⟨woken_refl _, woken_refl _, rfl⟩

/-! ### The bodies on a flag -/

section Flag
variable {c : Ctx} {s : State} {o : Obj} {b : Bool} {n : BitVec 32}

/-- R186: FLAG_SET on a flag already SET releases nothing. -/
theorem flagSetBody_of_set (ho : s.obj c.obj = some o) (hB : o.body = .flag true n) :
    flagSetBody c s = (okv 0, s.setBody c.obj (.flag true (n + 1))) := by
  obtain ⟨⟩ := o
  subst hB
  simp [flagSetBody, ho]

/-- R186: FLAG_SET on a CLEAR flag releases every waiter. -/
theorem flagSetBody_of_clear (ho : s.obj c.obj = some o) (hB : o.body = .flag false n) :
    flagSetBody c s = (okv (s.waiters c.obj).length,
      ((s.setBody c.obj (.flag true (n + 1))).setWaiters c.obj []).completeAll (wingOf c.obj)
        ((s.waiters c.obj).map (fun y => (y.pos, y.slot, Status.ok, BitVec.ofNat 51 (n + 1).toNat)))) := by
  obtain ⟨⟩ := o
  subst hB
  simp [flagSetBody, ho, State.waiters]

theorem flagClearBody_of_flag (ho : s.obj c.obj = some o) (hB : o.body = .flag b n) :
    flagClearBody c s = (okv 0, s.setBody c.obj (.flag false n)) := by
  obtain ⟨⟩ := o
  subst hB
  simp [flagClearBody, ho]

/-- R187: WAIT on a SET flag answers at once; on a CLEAR flag it binds its slot. -/
theorem waitBody_of_flag (ho : s.obj c.obj = some o) (hB : o.body = .flag b n) :
    waitBody c s = if b then (okv n.toNat, s) else s.bindWait c .flag 0 c.pendingValue := by
  obtain ⟨⟩ := o
  subst hB
  simp [waitBody, ho]

end Flag

/-! ### Serving takers -/

/-- The takers served, followed by those left, are the takers in their order. -/
theorem serve_append (l : List Waiter) (n : Nat) : (serve l n).1.map Prod.fst ++ (serve l n).2.1 = l := by
  induction l generalizing n with
  | nil => rfl
  | cons y l ih =>
    unfold serve
    split
    · split
      · simpa using ih _
      · rfl
    · rfl

/-- Takers on distinct slots are served on distinct slots. -/
theorem serve_slots_nodup {l : List Waiter} (hd : distinctSlots l) (n : Nat) :
    ((serve l n).1.map (fun y => 8 * y.1.pos + y.1.slot)).Nodup := by
  unfold distinctSlots at hd
  rw [← serve_append l n, List.map_append, List.map_map] at hd
  exact hd.sublist (List.sublist_append_left ..)

theorem takerAhead_eq_false_iff {s : State} {obj prio : Nat} :
    s.takerAhead obj prio = false ↔ ∀ y ∈ s.waiters obj, y.prio < prio := by
  simp [State.takerAhead]

theorem takerAhead_eq_true_iff {s : State} {obj prio : Nat} :
    s.takerAhead obj prio = true ↔ ∃ y ∈ s.waiters obj, prio ≤ y.prio := by
  simp [State.takerAhead]

/-! ### The bodies on a semaphore -/

section Semaphore
variable {c : Ctx} {s : State} {o : Obj} {n : Nat}

/-- R177: an accepted post serves takers from the sum, and leaves the rest in the semaphore. -/
theorem semPostBody_of_fits (ho : s.obj c.obj = some o) (hB : o.body = .sem n) (hfit : n + c.w.amount < 2 ^ 31) :
    semPostBody c s =
      (okv (serve (s.waiters c.obj) (n + c.w.amount)).2.2,
        ((s.setWaiters c.obj (serve (s.waiters c.obj) (n + c.w.amount)).2.1).completeAll (wingOf c.obj)
          ((serve (s.waiters c.obj) (n + c.w.amount)).1.map
            (fun y => (y.1.pos, y.1.slot, Status.ok, BitVec.ofNat 51 y.2)))).setBody c.obj
          (.sem (serve (s.waiters c.obj) (n + c.w.amount)).2.2)) := by
  obtain ⟨⟩ := o
  subst hB
  unfold semPostBody
  simp only [ho, if_neg (Nat.not_le.mpr hfit)]
  rfl

theorem semTakeBody_of_sem (ho : s.obj c.obj = some o) (hB : o.body = .sem n) :
    semTakeBody c s =
      if c.w.amount ≤ n && !s.takerAhead c.obj c.w.prio.toNat then
        (okv (n - c.w.amount), s.setBody c.obj (.sem (n - c.w.amount)))
      else s.bindWait c (.amount c.w.amount) c.w.prio.toNat c.pendingValue := by
  obtain ⟨⟩ := o
  subst hB
  simp [semTakeBody, ho]

/-- R178: SEM_TAKE completes at once when the count covers it and no taker of equal or higher PRIO waits. -/
theorem semTakeBody_of_covered (ho : s.obj c.obj = some o) (hB : o.body = .sem n) (hcov : c.w.amount ≤ n)
    (hfree : ∀ y ∈ s.waiters c.obj, y.prio < c.w.prio.toNat) :
    semTakeBody c s = (okv (n - c.w.amount), s.setBody c.obj (.sem (n - c.w.amount))) := by
  rw [semTakeBody_of_sem ho hB, takerAhead_eq_false_iff.mpr hfree]
  simp [hcov]

/-- R178: otherwise SEM_TAKE joins the takers. -/
theorem semTakeBody_of_blocked (ho : s.obj c.obj = some o) (hB : o.body = .sem n)
    (hblk : n < c.w.amount ∨ ∃ y ∈ s.waiters c.obj, c.w.prio.toNat ≤ y.prio) :
    semTakeBody c s = s.bindWait c (.amount c.w.amount) c.w.prio.toNat c.pendingValue := by
  rw [semTakeBody_of_sem ho hB, if_neg]
  rcases hblk with hshort | hahead
  · simp [Nat.not_le.mpr hshort]
  · simp [takerAhead_eq_true_iff.mpr hahead]

theorem semTryBody_of_sem (ho : s.obj c.obj = some o) (hB : o.body = .sem n) :
    semTryBody c s =
      if c.w.amount ≤ n && (s.waiters c.obj).isEmpty then (okv (n - c.w.amount), s.setBody c.obj (.sem (n - c.w.amount)))
      else (.ans .busy (BitVec.ofNat 51 n), s) := by
  obtain ⟨⟩ := o
  subst hB
  simp [semTryBody, ho]

/-- R179: SEM_TRY completes when the count covers it and no taker of any PRIO waits. -/
theorem semTryBody_of_covered (ho : s.obj c.obj = some o) (hB : o.body = .sem n) (hcov : c.w.amount ≤ n)
    (hfree : s.waiters c.obj = []) :
    semTryBody c s = (okv (n - c.w.amount), s.setBody c.obj (.sem (n - c.w.amount))) := by
  rw [semTryBody_of_sem ho hB, hfree]
  simp [hcov]

/-- R179: otherwise SEM_TRY answers BUSY with the count. -/
theorem semTryBody_of_blocked (ho : s.obj c.obj = some o) (hB : o.body = .sem n)
    (hblk : n < c.w.amount ∨ s.waiters c.obj ≠ []) : semTryBody c s = (.ans .busy (BitVec.ofNat 51 n), s) := by
  rw [semTryBody_of_sem ho hB, if_neg]
  rcases hblk with hshort | htaker
  · simp [Nat.not_le.mpr hshort]
  · simp [htaker]

end Semaphore

/-! ### The commands -/

/-- R186: FLAG_SET on a flag already SET changes its record alone. -/
theorem give_flagSet_of_set {s : State} {x : Src} {w : CmdW} {o : Obj} {n : BitVec 32} (ho : s.obj w.obj.toNat = some o)
    (hB : o.body = .flag true n) (h : s.reaches x .flagSet w) :
    ∃ t, s.give x .flagSet false w = t ∧ s.answered t x .flagSet w .ok 0 ∧
      s.changed t w.obj.toNat (some { o with body := .flag true (n + 1) }) :=
  give_body s x .flagSet w rfl rfl h o ho nofun .ok 0 (by decide) _ (fun _ _ _ => flagSetBody_of_set ho hB)

/-- R186: FLAG_SET on a CLEAR flag completes every waiter. -/
theorem give_flagSet_of_clear {s : State} {x : Src} {w : CmdW} {o : Obj} {n : BitVec 32} (ho : s.obj w.obj.toNat = some o)
    (hB : o.body = .flag false n) (h : s.reaches x .flagSet w) (hd : distinctSlots (s.waiters w.obj.toNat)) :
    ∃ t, s.give x .flagSet false w = t ∧
      s.answered t x .flagSet w .ok (BitVec.ofNat 51 (s.waiters w.obj.toNat).length) ∧
      s.puts t w.obj.toNat (some { o with body := .flag true (n + 1) }) ∧
      s.wakes t w.obj.toNat []
        ((s.waiters w.obj.toNat).map (fun y => (y.pos, y.slot, Status.ok, BitVec.ofNat 51 (n + 1).toNat))) ∧ s.serves t :=
  give_wakes s x .flagSet w rfl rfl h o ho nofun .ok (by decide) _ _ [] _ (by rw [List.map_map]; exact hd)
    (fun _ _ _ => .inr (flagSetBody_of_clear ho hB))

/-- R177: SEM_POST completes the takers that the sum serves. -/
theorem give_semPost {s : State} {x : Src} {w : CmdW} {o : Obj} {n : Nat} (ho : s.obj w.obj.toNat = some o)
    (hB : o.body = .sem n) (h : s.reaches x .semPost w) (hd : distinctSlots (s.waiters w.obj.toNat))
    (hfit : n + w.amount < 2 ^ 31) :
    ∃ t, s.give x .semPost false w = t ∧
      s.answered t x .semPost w .ok (BitVec.ofNat 51 (serve (s.waiters w.obj.toNat) (n + w.amount)).2.2) ∧
      s.puts t w.obj.toNat (some { o with body := .sem (serve (s.waiters w.obj.toNat) (n + w.amount)).2.2 }) ∧
      s.wakes t w.obj.toNat (serve (s.waiters w.obj.toNat) (n + w.amount)).2.1
        ((serve (s.waiters w.obj.toNat) (n + w.amount)).1.map (fun y => (y.1.pos, y.1.slot, Status.ok, BitVec.ofNat 51 y.2))) ∧
      s.serves t :=
  give_wakes s x .semPost w rfl rfl h o ho nofun .ok (by decide) _ _ _ _
    (by rw [List.map_map]; exact serve_slots_nodup hd (n + w.amount))
    (fun _ _ _ => .inl (semPostBody_of_fits (c := s.caller x .semPost w) ho hB hfit))

/-- Settles O1. FLAG_SET and WAIT split on the flag; on a SET flag FLAG_SET changes the record alone. -/
theorem flagsDo : Obligations.FlagsDo := by
  unfold Obligations.FlagsDo
  intro s x w o b n ho hB
  refine ⟨fun h hd => ?flagSet, fun h => ?flagClear, fun h hfmt => ⟨?waitSet, ?waitClear⟩⟩
  case flagSet =>
    cases b with
    | false =>
      obtain ⟨_, rfl, hrest⟩ := give_flagSet_of_clear ho hB h hd
      exact ⟨_, rfl, hrest⟩
    | true =>
      obtain ⟨_, rfl, hans, hch⟩ := give_flagSet_of_set ho hB h
      exact ⟨_, rfl, hans, hch.1, hch.wakes_none, hch.serves⟩
  case flagClear =>
    obtain ⟨_, rfl, hrest⟩ := give_body s x .flagClear w rfl rfl h o ho nofun .ok 0 (by decide) _
      (fun _ _ _ => flagClearBody_of_flag ho hB)
    exact ⟨_, rfl, hrest⟩
  case waitSet =>
    rintro rfl
    obtain ⟨_, rfl, hrest⟩ := give_only s x .wait w rfl rfl h o ho (fun _ => hfmt) .ok (BitVec.ofNat 51 n.toNat) (by decide)
      (fun _ _ _ => waitBody_of_flag ho hB)
    exact ⟨_, rfl, hrest⟩
  case waitClear =>
    rintro rfl
    obtain ⟨_, rfl, hrest⟩ := give_waits s x .wait w rfl rfl h o ho (fun _ => hfmt) .flag 0 (BitVec.ofNat 51 w.obj.toNat)
      (fun _ _ _ => waitBody_of_flag ho hB)
    exact ⟨_, rfl, hrest⟩

/-- Settles O2. A post serves a front part of the takers; SEM_TAKE and SEM_TRY complete or not by what their bodies ask. -/
theorem semaphoresDo : Obligations.SemaphoresDo := by
  unfold Obligations.SemaphoresDo
  intro s x w o n ho hB
  refine ⟨fun h hd hfit => ?post, fun h => ⟨?takeNow, ?takeWaits⟩, fun h => ⟨?tryNow, ?tryBusy⟩⟩
  case post =>
    obtain ⟨_, rfl, hrest⟩ := give_semPost ho hB h hd hfit
    exact ⟨_, rfl, hrest⟩
  case takeNow =>
    rintro ⟨hcov, hfree⟩
    obtain ⟨_, rfl, hrest⟩ := give_body s x .semTake w rfl rfl h o ho nofun .ok (BitVec.ofNat 51 (n - w.amount)) (by decide) _
      (fun _ _ _ => semTakeBody_of_covered (c := s.caller x .semTake w) ho hB hcov hfree)
    exact ⟨_, rfl, hrest⟩
  case takeWaits =>
    intro hblk
    obtain ⟨_, rfl, hrest⟩ := give_waits s x .semTake w rfl rfl h o ho nofun (.amount w.amount) w.prio.toNat
      (BitVec.ofNat 51 w.obj.toNat) (fun _ _ _ => semTakeBody_of_blocked (c := s.caller x .semTake w) ho hB hblk)
    exact ⟨_, rfl, hrest⟩
  case tryNow =>
    rintro ⟨hcov, hfree⟩
    obtain ⟨_, rfl, hrest⟩ := give_body s x .semTry w rfl rfl h o ho nofun .ok (BitVec.ofNat 51 (n - w.amount)) (by decide) _
      (fun _ _ _ => semTryBody_of_covered (c := s.caller x .semTry w) ho hB hcov hfree)
    exact ⟨_, rfl, hrest⟩
  case tryBusy =>
    intro hblk
    obtain ⟨_, rfl, hrest⟩ := give_only s x .semTry w rfl rfl h o ho nofun .busy (BitVec.ofNat 51 n) (by decide)
      (fun _ _ _ => semTryBody_of_blocked (c := s.caller x .semTry w) ho hB hblk)
    exact ⟨_, rfl, hrest⟩

end Sys2Proof.Machine
end
